-- ==== Sys2Proof/Word.lean ====
section
/-! DEFINITION. The word types of the part, as spec/00_scope.md R1 counts bits. -/

namespace Sys2Proof

/-- A 64-bit scalar register or doubleword. -/
abbrev Word := BitVec 64

/-- A byte of memory. -/
abbrev Byte := BitVec 8

/-- A 32-bit granule of code (R106). -/
abbrev Granule := BitVec 32

/-- A lane of the vector engine (R187). -/
abbrev Lane := BitVec 32

/-- A lane slice of 64 lanes (R187). -/
abbrev Slice := BitVec 2048

/-- A 32-byte buffer-record or stream-register image (R221, R294). -/
abbrev Image := BitVec 256

end Sys2Proof
end

