-- ==== Sys2Proof/Syntax.lean ====
section
/-! DEFINITION. The syntax of the machine: every row of the opcode table is one constructor of `Instr`. The words follow
spec/05_formats_and_opcode_map.md; the steps of the part that are no words follow spec/95_what_each_step_holds.md. -/

namespace Sys2Proof

/-- Element types of R115, in the order of their codes 0x0 to 0xE. -/
inductive ElemType where
  | s8 | s16 | s32 | z8 | z16 | z32 | f16 | bf16 | f32 | e4m3 | e5m2 | e3m2 | e2m3 | e2m1 | s4
  deriving DecidableEq, Repr, Inhabited

/-- Rounding codes of R116. -/
inductive Rnd where
  | rne | rtz | rdn | rup
  deriving DecidableEq, Repr, Inhabited

/-- Comparisons of vcmp (R131). -/
inductive Cmp where
  | eq | ne | lt | le | gt | ge | un | ord
  deriving DecidableEq, Repr, Inhabited

/-- Scope codes 0 to 4 of R125. -/
inductive Scope where
  | core | herd | die | module | system
  deriving DecidableEq, Repr, Inhabited

/-- The four engines of R119. -/
inductive Engine where
  | pump | matrix | well | coll
  deriving DecidableEq, Repr, Inhabited

/-- System registers of R390, R433, R440 and R441. -/
inductive XReg where
  | xstat | xvec | xepc | xcause | xtval | xscr0 | xscr1 | xrpt | xctx
  | xherd | xkov | xcond | xaqs | xaqa | xdsp | xfreq | xfres | xtherm | xtemp | xcyc
  deriving DecidableEq, Repr, Inhabited

/-- The header of a vector word (R112); ext stands in the words that read it. -/
structure VHdr where
  pred : BitVec 3
  lat  : BitVec 4
  gap  : BitVec 3
  ty   : ElemType
  rnd  : Rnd
  sat  : Bool
  lb   : Bool
  deriving DecidableEq, Repr, Inhabited

/-- A scratchpad reference (R114). -/
structure MemRef where
  b   : BitVec 4
  sel : BitVec 2
  off : BitVec 13
  deriving DecidableEq, Repr, Inhabited

/-- An operand descriptor (R114). The unused descriptor is all zeros and stands in no constructor. -/
inductive Desc where
  | reg  (n : BitVec 5)
  | mem  (m : MemRef)
  | scal (r : BitVec 5)
  | imm  (i : BitVec 16)
  deriving DecidableEq, Repr, Inhabited

/-- A completion barrier named in an engine header (R119). -/
structure BarRef where
  b   : BitVec 4
  off : BitVec 15
  deriving DecidableEq, Repr, Inhabited

/-- The common header of an engine word (R119, R120). -/
structure EHdr where
  guard  : Option (BitVec 4)
  colour : BitVec 3
  wsem   : BitVec 8
  wcnt   : BitVec 4
  ssem   : BitVec 8
  scnt   : BitVec 4
  bar    : Option BarRef
  deriving DecidableEq, Repr, Inhabited

/-- A bound of a pump dimension (R121). -/
inductive Bound where
  | count (n : BitVec 5)
  | loop  (l : BitVec 3)
  deriving DecidableEq, Repr, Inhabited

/-- A present dimension of a pump nest (R121). -/
structure Dim where
  bound : Bound
  ssel  : BitVec 2
  dsel  : BitVec 2
  deriving DecidableEq, Repr, Inhabited

/-- A pump payload (R121): its present dimensions, innermost first. -/
structure Pump where
  sb   : BitVec 4
  db   : BitVec 4
  soff : BitVec 18
  doff : BitVec 18
  tok  : BitVec 5
  hreg : BitVec 5
  ring : Bool
  dims : List Dim
  deriving DecidableEq, Repr, Inhabited

/-- Output kinds of mst (R311). -/
inductive OutKind where
  | f32 | bf16 | f16 | e4m3 | e5m2 | f64
  deriving DecidableEq, Repr, Inhabited

/-- Rows of a well word, relative to the rectangle (R123). -/
structure WellRows where
  rrow : BitVec 5
  nrm1 : BitVec 5
  deriving DecidableEq, Repr, Inhabited

/-- Rows and columns of a well word (R123). -/
structure WellRect where
  rows : WellRows
  rcol : BitVec 7
  ncm1 : BitVec 7
  deriving DecidableEq, Repr, Inhabited

/-- The source of a wfeed: a stream, with or without broadcast, or the buffers (R342). -/
inductive FeedSrc where
  | stream (q : BitVec 4) (bcast : Bool)
  | buf
  deriving DecidableEq, Repr, Inhabited

/-- Drain kinds of wdrain (R342). -/
inductive DrainKind where
  | f32 | bf16 | f16 | e4m3 | ep128
  deriving DecidableEq, Repr, Inhabited

/-- Weight formats of wmode (R342). -/
inductive WellFmt where
  | int8 | int4 | mxint8 | mxfp4 | mxfp6 | ql4
  deriving DecidableEq, Repr, Inhabited

/-- Functions of the activation stage (R340). -/
inductive ActFn where
  | identity | relu | silu | tanh | sigmoid
  deriving DecidableEq, Repr, Inhabited

/-- Combining operations of a collective (R124). -/
inductive CollOp where
  | sum | min | max | and | or | xor
  deriving DecidableEq, Repr, Inhabited

/-- A host access through BAR2 (R46): a read of n bytes, or a write. -/
inductive HostAccess where
  | read  (off n : Nat)
  | write (off : Nat) (data : List Byte)
  deriving DecidableEq, Repr, Inhabited

/-- Remote operations a peer port carries (R219, R384). -/
inductive RemoteOp where
  | store  (addr : Nat) (data : List Byte)
  | amo    (op : BitVec 5) (addr n : Nat) (value cmp : Word)
  deriving DecidableEq, Repr, Inhabited

/-- A register of the bank of R410 that lazy restore fetches. -/
inductive BankReg where
  | s (n : BitVec 5) | p (n : BitVec 3) | l (n : BitVec 3) | g (n : BitVec 4)
  | b (n : BitVec 4) | q (n : BitVec 4) | v (n : BitVec 5) | x (r : XReg)
  deriving DecidableEq, Repr, Inhabited

/-- Units that health retires (R435). -/
inductive UnitId where
  | dataBank   (herd core bank : Nat)
  | parityBank (herd core group : Nat)
  | herd       (herd : Nat)
  | matrix     (herd : Nat)
  | well       (die well : Nat)
  | diePump    (die pump : Nat)
  deriving DecidableEq, Repr, Inhabited

/-- A sample of the sensors (R438, R445, R446): degrees of each zone by die, the module's power in milliwatts, and the degrees of
the inlet. -/
structure Sample where
  temps : List (List Nat)
  power : Nat
  inlet : Nat
  deriving DecidableEq, Repr, Inhabited

/-- How bring-up ends (R448). -/
inductive BringUp where
  | ready (exchanged : Bool)
  | fatal
  deriving DecidableEq, Repr, Inhabited

/-- Every row of spec/opcode_table.json. -/
inductive Instr where
  /-- ADD (R158): Writes rs1 + rs2, low 64 bits, into rd. -/
  | add (rd rs1 rs2 : BitVec 5)
  /-- SUB (R158): Writes rs1 − rs2, low 64 bits, into rd. -/
  | sub (rd rs1 rs2 : BitVec 5)
  /-- AND (R158): Writes the bitwise AND of rs1 and rs2 into rd. -/
  | and (rd rs1 rs2 : BitVec 5)
  /-- OR (R158): Writes the bitwise OR of rs1 and rs2 into rd. -/
  | or (rd rs1 rs2 : BitVec 5)
  /-- XOR (R158): Writes the bitwise XOR of rs1 and rs2 into rd. -/
  | xor (rd rs1 rs2 : BitVec 5)
  /-- ANDN (R158): Writes rs1 AND NOT rs2 into rd. -/
  | andn (rd rs1 rs2 : BitVec 5)
  /-- SLL (R158): Shifts rs1 left by rs2[5:0] into rd. -/
  | sll (rd rs1 rs2 : BitVec 5)
  /-- SRL (R158): Shifts rs1 right by rs2[5:0], filling with zeros, into rd. -/
  | srl (rd rs1 rs2 : BitVec 5)
  /-- SRA (R158): Shifts rs1 right by rs2[5:0], filling with the sign bit, into rd. -/
  | sra (rd rs1 rs2 : BitVec 5)
  /-- ROL (R158): Rotates rs1 left by rs2[5:0] into rd. -/
  | rol (rd rs1 rs2 : BitVec 5)
  /-- ROR (R158): Rotates rs1 right by rs2[5:0] into rd. -/
  | ror (rd rs1 rs2 : BitVec 5)
  /-- SLT (R158): Writes 1 into rd when rs1 < rs2 as signed values, else 0. -/
  | slt (rd rs1 rs2 : BitVec 5)
  /-- SLTU (R158): Writes 1 into rd when rs1 < rs2 as unsigned values, else 0. -/
  | sltu (rd rs1 rs2 : BitVec 5)
  /-- SEQ (R158): Writes 1 into rd when rs1 equals rs2, else 0. -/
  | seq (rd rs1 rs2 : BitVec 5)
  /-- SNE (R158): Writes 1 into rd when rs1 differs from rs2, else 0. -/
  | sne (rd rs1 rs2 : BitVec 5)
  /-- MIN (R158): Writes the lesser of rs1 and rs2, as signed values, into rd. -/
  | min (rd rs1 rs2 : BitVec 5)
  /-- MAX (R158): Writes the greater of rs1 and rs2, as signed values, into rd. -/
  | max (rd rs1 rs2 : BitVec 5)
  /-- MINU (R158): Writes the lesser of rs1 and rs2, as unsigned values, into rd. -/
  | minu (rd rs1 rs2 : BitVec 5)
  /-- MAXU (R158): Writes the greater of rs1 and rs2, as unsigned values, into rd. -/
  | maxu (rd rs1 rs2 : BitVec 5)
  /-- CLZ (R158): Writes the count of leading zero bits of rs1 into rd. -/
  | clz (rd rs1 : BitVec 5)
  /-- CTZ (R158): Writes the count of trailing zero bits of rs1 into rd. -/
  | ctz (rd rs1 : BitVec 5)
  /-- POPC (R158): Writes the count of one bits of rs1 into rd. -/
  | popc (rd rs1 : BitVec 5)
  /-- SEXT_B (R158): Sign-extends rs1[7:0] into rd. -/
  | sextB (rd rs1 : BitVec 5)
  /-- SEXT_H (R158): Sign-extends rs1[15:0] into rd. -/
  | sextH (rd rs1 : BitVec 5)
  /-- SEXT_W (R158): Sign-extends rs1[31:0] into rd. -/
  | sextW (rd rs1 : BitVec 5)
  /-- ZEXT_B (R158): Zero-extends rs1[7:0] into rd. -/
  | zextB (rd rs1 : BitVec 5)
  /-- ZEXT_H (R158): Zero-extends rs1[15:0] into rd. -/
  | zextH (rd rs1 : BitVec 5)
  /-- ZEXT_W (R158): Zero-extends rs1[31:0] into rd. -/
  | zextW (rd rs1 : BitVec 5)
  /-- MUL (R161): Writes the low 64 bits of rs1 × rs2 into rd. -/
  | mul (rd rs1 rs2 : BitVec 5)
  /-- MULH (R161): Writes the high 64 bits of the signed × signed product into rd. -/
  | mulh (rd rs1 rs2 : BitVec 5)
  /-- MULHU (R161): Writes the high 64 bits of the unsigned × unsigned product into rd. -/
  | mulhu (rd rs1 rs2 : BitVec 5)
  /-- MULHSU (R161): Writes the high 64 bits of the signed × unsigned product into rd. -/
  | mulhsu (rd rs1 rs2 : BitVec 5)
  /-- DIV (R161): Writes the signed quotient, truncated toward zero, into rd, with fixed results for the borderline cases. -/
  | div (rd rs1 rs2 : BitVec 5)
  /-- DIVU (R161): Writes the unsigned quotient into rd. -/
  | divu (rd rs1 rs2 : BitVec 5)
  /-- REM (R161): Writes the signed remainder into rd. -/
  | rem (rd rs1 rs2 : BitVec 5)
  /-- REMU (R161): Writes the unsigned remainder into rd. -/
  | remu (rd rs1 rs2 : BitVec 5)
  /-- CVT_F64_S64 (R163): Converts an s64 value to f64 under the named rounding. -/
  | cvtF64S64 (rd rs1 : BitVec 5) (rnd : Rnd)
  /-- CVT_F32_S64 (R163): Converts an s64 value to f32 under the named rounding. -/
  | cvtF32S64 (rd rs1 : BitVec 5) (rnd : Rnd)
  /-- CVT_S64_F64 (R163): Converts an f64 value to s64 with clamping, and NaN to 0. -/
  | cvtS64F64 (rd rs1 : BitVec 5) (rnd : Rnd)
  /-- CVT_S64_F32 (R163): Converts an f32 value to s64 with clamping, and NaN to 0. -/
  | cvtS64F32 (rd rs1 : BitVec 5) (rnd : Rnd)
  /-- CVT_F64_F32 (R163): Converts f32 to f64 exactly, keeping NaN payloads. -/
  | cvtF64F32 (rd rs1 : BitVec 5)
  /-- CVT_F32_F64 (R163): Converts f64 to f32 under the named rounding. -/
  | cvtF32F64 (rd rs1 : BitVec 5) (rnd : Rnd)
  /-- CVT_F32_F16 (R163): Converts f16 to f32 exactly. -/
  | cvtF32F16 (rd rs1 : BitVec 5)
  /-- CVT_F16_F32 (R163): Converts f32 to f16 under the named rounding. -/
  | cvtF16F32 (rd rs1 : BitVec 5) (rnd : Rnd)
  /-- CVT_F32_BF16 (R163): Converts bf16 to f32 exactly. -/
  | cvtF32Bf16 (rd rs1 : BitVec 5)
  /-- CVT_BF16_F32 (R163): Converts f32 to bf16 under the named rounding. -/
  | cvtBf16F32 (rd rs1 : BitVec 5) (rnd : Rnd)
  /-- PTAG (R164): Writes rs2[7:0] as the tag over the address of rs1 into rd. -/
  | ptag (rd rs1 rs2 : BitVec 5)
  /-- PSPACE (R164): Writes the space field of a tagged pointer into rd. -/
  | pspace (rd rs1 : BitVec 5)
  /-- PRANK (R164): Writes the rank field of a tagged pointer into rd. -/
  | prank (rd rs1 : BitVec 5)
  /-- PADD (R164): Adds rs2 to the 56-bit address of rs1, keeping the tag. -/
  | padd (rd rs1 rs2 : BitVec 5)
  /-- PSUB (R164): Writes the sign-extended 56-bit difference of two addresses into rd. -/
  | psub (rd rs1 rs2 : BitVec 5)
  /-- PADDR (R164): Writes the 56-bit address of a tagged pointer into rd. -/
  | paddr (rd rs1 : BitVec 5)
  /-- JR (R167): Jumps to the address in rs1, trapping on misalignment. -/
  | jr (rs1 : BitVec 5)
  /-- CALLR (R167): Jumps to the address in rs1 and writes the return address into rd. -/
  | callr (rd rs1 : BitVec 5)
  /-- ADDI (R159): Writes rs1 plus the sign-extended immediate into rd. -/
  | addi (rd rs1 : BitVec 5) (imm : BitVec 14)
  /-- ANDI (R159): Writes rs1 AND the zero-extended immediate into rd. -/
  | andi (rd rs1 : BitVec 5) (imm : BitVec 14)
  /-- ORI (R159): Writes rs1 OR the zero-extended immediate into rd. -/
  | ori (rd rs1 : BitVec 5) (imm : BitVec 14)
  /-- XORI (R159): Writes rs1 XOR the zero-extended immediate into rd. -/
  | xori (rd rs1 : BitVec 5) (imm : BitVec 14)
  /-- SLLI (R159): Shifts rs1 left by an immediate count into rd. -/
  | slli (rd rs1 : BitVec 5) (sh : BitVec 6)
  /-- SRLI (R159): Shifts rs1 right by an immediate count, zero-filled, into rd. -/
  | srli (rd rs1 : BitVec 5) (sh : BitVec 6)
  /-- SRAI (R159): Shifts rs1 right by an immediate count, sign-filled, into rd. -/
  | srai (rd rs1 : BitVec 5) (sh : BitVec 6)
  /-- SLTI (R159): Writes 1 into rd when rs1 is below the immediate as signed values. -/
  | slti (rd rs1 : BitVec 5) (imm : BitVec 14)
  /-- SLTIU (R159): Writes 1 into rd when rs1 is below the sign-extended immediate as unsigned values. -/
  | sltiu (rd rs1 : BitVec 5) (imm : BitVec 14)
  /-- LUI (R160): Writes the immediate shifted left by 13, sign-extended, into rd. -/
  | lui (rd : BitVec 5) (imm : BitVec 19)
  /-- AUIPC (R160): Writes the word's address plus the shifted immediate into rd. -/
  | auipc (rd : BitVec 5) (imm : BitVec 19)
  /-- LSET (R168): Writes rs1 plus the immediate, low 32 bits, into a loop register. -/
  | lset (n : BitVec 3) (rs1 : BitVec 5) (imm : BitVec 14)
  /-- GSET_OPEN (R174): Opens a guard slot, so that later guarded entries pend on it. -/
  | gsetOpen (n : BitVec 4)
  /-- GSET_NE (R174): Resolves a guard slot to true if rs1 is non-zero, binding pending entries. -/
  | gsetNe (n : BitVec 4) (rs1 : BitVec 5)
  /-- GSET_EQ (R174): Resolves a guard slot to true if rs1 is zero, binding pending entries. -/
  | gsetEq (n : BitVec 4) (rs1 : BitVec 5)
  /-- BEQ (R165): Branches when rs1 equals rs2. -/
  | beq (rs1 rs2 : BitVec 5) (disp : BitVec 14)
  /-- BNE (R165): Branches when rs1 differs from rs2. -/
  | bne (rs1 rs2 : BitVec 5) (disp : BitVec 14)
  /-- BLT (R165): Branches when rs1 < rs2 as signed values. -/
  | blt (rs1 rs2 : BitVec 5) (disp : BitVec 14)
  /-- BGE (R165): Branches when rs1 ≥ rs2 as signed values. -/
  | bge (rs1 rs2 : BitVec 5) (disp : BitVec 14)
  /-- BLTU (R165): Branches when rs1 < rs2 as unsigned values. -/
  | bltu (rs1 rs2 : BitVec 5) (disp : BitVec 14)
  /-- BGEU (R165): Branches when rs1 ≥ rs2 as unsigned values. -/
  | bgeu (rs1 rs2 : BitVec 5) (disp : BitVec 14)
  /-- J (R166): Jumps by a granule displacement. -/
  | j (disp : BitVec 24)
  /-- CALL (R166): Jumps by a granule displacement and writes the return address into s31. -/
  | call (disp : BitVec 24)
  /-- LD_B (R248): Loads a sign-extended byte through a buffer record. -/
  | ldB (s : BitVec 5) (b : BitVec 4) (off : BitVec 15)
  /-- LD_BU (R248): Loads a zero-extended byte through a buffer record. -/
  | ldBu (s : BitVec 5) (b : BitVec 4) (off : BitVec 15)
  /-- LD_H (R248): Loads a sign-extended halfword through a buffer record. -/
  | ldH (s : BitVec 5) (b : BitVec 4) (off : BitVec 15)
  /-- LD_HU (R248): Loads a zero-extended halfword through a buffer record. -/
  | ldHu (s : BitVec 5) (b : BitVec 4) (off : BitVec 15)
  /-- LD_W (R248): Loads a sign-extended word through a buffer record. -/
  | ldW (s : BitVec 5) (b : BitVec 4) (off : BitVec 15)
  /-- LD_WU (R248): Loads a zero-extended word through a buffer record. -/
  | ldWu (s : BitVec 5) (b : BitVec 4) (off : BitVec 15)
  /-- LD_D (R248): Loads a doubleword through a buffer record. -/
  | ldD (s : BitVec 5) (b : BitVec 4) (off : BitVec 15)
  /-- LD_NR (R250): Loads a doubleword that is never served by reconstruction and never rebuilt. -/
  | ldNr (s : BitVec 5) (b : BitVec 4) (off : BitVec 15)
  /-- ST_B (R248): Stores a byte through a buffer record into the store queue. -/
  | stB (s : BitVec 5) (b : BitVec 4) (off : BitVec 15)
  /-- ST_H (R248): Stores a halfword through a buffer record into the store queue. -/
  | stH (s : BitVec 5) (b : BitVec 4) (off : BitVec 15)
  /-- ST_W (R248): Stores a word through a buffer record into the store queue. -/
  | stW (s : BitVec 5) (b : BitVec 4) (off : BitVec 15)
  /-- ST_D (R248): Stores a doubleword through a buffer record into the store queue. -/
  | stD (s : BitVec 5) (b : BitVec 4) (off : BitVec 15)
  /-- LDB (R251): Loads a 32-byte buffer-record image into a b register. -/
  | ldb (n b : BitVec 4) (off : BitVec 15)
  /-- STB (R251): Stores a b register as a 32-byte image. -/
  | stb (n b : BitVec 4) (off : BitVec 15)
  /-- LDQ (R252): Loads a stream-register image, zeroing head and tail, once no queued entry names it. -/
  | ldq (n b : BitVec 4) (off : BitVec 15)
  /-- STQ (R252): Stores a stream register with its head and tail, once no queued entry names it. -/
  | stq (n b : BitVec 4) (off : BitVec 15)
  /-- AMOADD_W (R367): Atomically adds to a 32-bit location and returns the old value. -/
  | amoaddW (s : BitVec 5) (b : BitVec 4) (off : BitVec 10)
  /-- AMOAND_W (R367): Atomically ANDs a 32-bit location and returns the old value. -/
  | amoandW (s : BitVec 5) (b : BitVec 4) (off : BitVec 10)
  /-- AMOOR_W (R367): Atomically ORs a 32-bit location and returns the old value. -/
  | amoorW (s : BitVec 5) (b : BitVec 4) (off : BitVec 10)
  /-- AMOXOR_W (R367): Atomically XORs a 32-bit location and returns the old value. -/
  | amoxorW (s : BitVec 5) (b : BitVec 4) (off : BitVec 10)
  /-- AMOMIN_W (R367): Atomic signed minimum on a 32-bit location. -/
  | amominW (s : BitVec 5) (b : BitVec 4) (off : BitVec 10)
  /-- AMOMAX_W (R367): Atomic signed maximum on a 32-bit location. -/
  | amomaxW (s : BitVec 5) (b : BitVec 4) (off : BitVec 10)
  /-- AMOMINU_W (R367): Atomic unsigned minimum on a 32-bit location. -/
  | amominuW (s : BitVec 5) (b : BitVec 4) (off : BitVec 10)
  /-- AMOMAXU_W (R367): Atomic unsigned maximum on a 32-bit location. -/
  | amomaxuW (s : BitVec 5) (b : BitVec 4) (off : BitVec 10)
  /-- AMOSWAP_W (R367): Atomically swaps a 32-bit location. -/
  | amoswapW (s : BitVec 5) (b : BitVec 4) (off : BitVec 10)
  /-- AMOCAS_W (R367): Atomic 32-bit compare-and-swap with an even register pair. -/
  | amocasW (pair b : BitVec 4) (off : BitVec 10)
  /-- AMOFADD_F32 (R367): Atomically adds an f32 value to a 32-bit location and returns the old value. -/
  | amofaddF32 (s : BitVec 5) (b : BitVec 4) (off : BitVec 10)
  /-- AMOADD_D (R367): Atomically adds to a 64-bit location and returns the old value. -/
  | amoaddD (s : BitVec 5) (b : BitVec 4) (off : BitVec 10)
  /-- AMOAND_D (R367): Atomically ANDs a 64-bit location. -/
  | amoandD (s : BitVec 5) (b : BitVec 4) (off : BitVec 10)
  /-- AMOOR_D (R367): Atomically ORs a 64-bit location. -/
  | amoorD (s : BitVec 5) (b : BitVec 4) (off : BitVec 10)
  /-- AMOXOR_D (R367): Atomically XORs a 64-bit location. -/
  | amoxorD (s : BitVec 5) (b : BitVec 4) (off : BitVec 10)
  /-- AMOMIN_D (R367): Atomic signed minimum on a 64-bit location. -/
  | amominD (s : BitVec 5) (b : BitVec 4) (off : BitVec 10)
  /-- AMOMAX_D (R367): Atomic signed maximum on a 64-bit location. -/
  | amomaxD (s : BitVec 5) (b : BitVec 4) (off : BitVec 10)
  /-- AMOMINU_D (R367): Atomic unsigned minimum on a 64-bit location. -/
  | amominuD (s : BitVec 5) (b : BitVec 4) (off : BitVec 10)
  /-- AMOMAXU_D (R367): Atomic unsigned maximum on a 64-bit location. -/
  | amomaxuD (s : BitVec 5) (b : BitVec 4) (off : BitVec 10)
  /-- AMOSWAP_D (R367): Atomically swaps a 64-bit location. -/
  | amoswapD (s : BitVec 5) (b : BitVec 4) (off : BitVec 10)
  /-- AMOCAS_D (R367): Atomic 64-bit compare-and-swap with an even register pair. -/
  | amocasD (pair b : BitVec 4) (off : BitVec 10)
  /-- FENCE_C (R363): Waits for earlier loads, and for the core's writes of the masked colours to be visible at a scope; acts as release and acquire. -/
  | fenceC (mask : BitVec 8) (scope : Scope)
  /-- SPINW (R364): Sleeps on a location's line monitor while it holds rd, then acquires at system scope. -/
  | spinw (rd : BitVec 5) (b : BitVec 4) (rs2 : BitVec 5)
  /-- BARR (R375): Releases the masked writes, then makes one arrival at a barrier object. -/
  | barr (rd : BitVec 5) (b : BitVec 4) (rs2 : BitVec 5)
  /-- BWAIT (R375): Waits until a barrier object reaches a phase, then acquires at its scope. -/
  | bwait (rd : BitVec 5) (b : BitVec 4) (rs2 : BitVec 5)
  /-- PBARR (R378): Releases, then arrives at a short barrier in scratchpad, flipping parity on completion. -/
  | pbarr (rd : BitVec 5) (b : BitVec 4) (rs2 : BitVec 5)
  /-- PBWAIT (R378): Waits until a short barrier's parity equals rd[0], then acquires at herd scope. -/
  | pbwait (rd : BitVec 5) (b : BitVec 4) (rs2 : BitVec 5)
  /-- KSIG (R179): Waits for earlier stores to be visible at herd scope, then adds units to a semaphore, trapping on overflow. -/
  | ksig (k : BitVec 8) (count : BitVec 4)
  /-- KWAIT (R179): Joins a semaphore's waiters and blocks until it is granted. -/
  | kwait (k : BitVec 8) (count : BitVec 4)
  /-- PCANCEL (R274): Cancels a pump entry by its handle and writes 0, 1 or 2 into rd. -/
  | pcancel (rd rs1 : BitVec 5)
  /-- PGDEC (R246): Atomically decrements a shared page's home count, pushing its frame when the count reaches zero. -/
  | pgdec (b : BitVec 4) (rs2 : BitVec 5)
  /-- XR (R399): Reads a system register into rd. -/
  | xr (rd : BitVec 5) (x : XReg)
  /-- XW (R399): Writes a system register from rs, field by field. -/
  | xw (rs : BitVec 5) (x : XReg)
  /-- XSET (R399): Sets bits of a system register. -/
  | xset (rs : BitVec 5) (x : XReg)
  /-- XCLR (R399): Clears bits of a system register. -/
  | xclr (rs : BitVec 5) (x : XReg)
  /-- TRAP (R400): Raises the trap cause with a code operand. -/
  | trap (code : BitVec 10)
  /-- XRET (R401): Returns from a trap, restoring privilege and ie. -/
  | xret
  /-- HALT (R427): Ends the core for the rest of the node. -/
  | halt
  /-- EBREAK (R400): Raises the ebreak cause. -/
  | ebreak
  /-- HERDID (R144): Writes the core, herd, die, gang-rank and attached-set identity into rd. -/
  | herdid (rd : BitVec 5)
  /-- JOIN (R145): Makes the core wait at a reconvergence point. -/
  | join
  /-- DETACH (R147): Makes the issuing core a stray at the next address. -/
  | detach
  /-- QSTAT (R184): Reads the state of the core's queue for one engine into rd. -/
  | qstat (rd : BitVec 5) (eng : Engine)
  /-- IFLUSH (R148): Discards fetched words of every stream and buffer of the herd, and refetches. -/
  | iflush
  /-- TLBINV (R243): Drops every TLB entry of the module that maps a page, and stalls until it is done. -/
  | tlbinv (rs1 : BitVec 5)
  /-- TLBINVALL (R243): Drops every TLB and walk-cache entry of one PASID or of all PASIDs. -/
  | tlbinvall (rs1 : BitVec 5)
  /-- WAIT (R402): Stops issue until a notice is pending. -/
  | wait
  /-- TRIGGER_N (R97): Marks the core for the node-level trigger and records its cut point. -/
  | triggerN
  /-- TRIGGER_G (R97): Marks the core for the graph-level trigger, and for the node-level trigger if unmarked. -/
  | triggerG
  /-- VADD (R197): Adds elements. -/
  | vadd (h : VHdr) (d a b : Desc)
  /-- VSUB (R197): Subtracts elements. -/
  | vsub (h : VHdr) (d a b : Desc)
  /-- VMUL (R197): Multiplies elements. -/
  | vmul (h : VHdr) (d a b : Desc)
  /-- VMULH (R197): Gives the high half of integer element products. -/
  | vmulh (h : VHdr) (d a b : Desc)
  /-- VMIN (R197): Gives the elementwise minimum. -/
  | vmin (h : VHdr) (d a b : Desc)
  /-- VMAX (R197): Gives the elementwise maximum. -/
  | vmax (h : VHdr) (d a b : Desc)
  /-- VABS (R197): Gives the absolute value of each element. -/
  | vabs (h : VHdr) (d a : Desc)
  /-- VNEG (R197): Negates each element. -/
  | vneg (h : VHdr) (d a : Desc)
  /-- VMAC (R197): Performs an integer multiply-accumulate into D. -/
  | vmac (h : VHdr) (d a b : Desc)
  /-- VDOT4 (R197): Accumulates a four-byte dot product into each lane. -/
  | vdot4 (h : VHdr) (d a b : Desc)
  /-- VFMA (R198): Fused A × B + D. -/
  | vfma (h : VHdr) (d a b : Desc)
  /-- VFMS (R198): Fused A × B − D. -/
  | vfms (h : VHdr) (d a b : Desc)
  /-- VFNMA (R198): Fused −(A × B) + D. -/
  | vfnma (h : VHdr) (d a b : Desc)
  /-- VDIV (R198): Correctly rounded division. -/
  | vdiv (h : VHdr) (d a b : Desc)
  /-- VSQRT (R198): Correctly rounded square root. -/
  | vsqrt (h : VHdr) (d a : Desc)
  /-- VRSQRT (R198): Correctly rounded reciprocal square root. -/
  | vrsqrt (h : VHdr) (d a : Desc)
  /-- VRCP (R198): Correctly rounded reciprocal. -/
  | vrcp (h : VHdr) (d a : Desc)
  /-- VEXP2 (R198): Correctly rounded 2 to the power A. -/
  | vexp2 (h : VHdr) (d a : Desc)
  /-- VLOG2 (R198): Correctly rounded base-2 logarithm. -/
  | vlog2 (h : VHdr) (d a : Desc)
  /-- VTANH (R198): Correctly rounded hyperbolic tangent. -/
  | vtanh (h : VHdr) (d a : Desc)
  /-- VSIGM (R198): Correctly rounded logistic sigmoid. -/
  | vsigm (h : VHdr) (d a : Desc)
  /-- VSCALE (R198): Multiplies A by 2 to the integer power B. -/
  | vscale (h : VHdr) (d a b : Desc)
  /-- VAND (R199): Bitwise AND of elements. -/
  | vand (h : VHdr) (d a b : Desc)
  /-- VOR (R199): Bitwise OR of elements. -/
  | vor (h : VHdr) (d a b : Desc)
  /-- VXOR (R199): Bitwise XOR of elements. -/
  | vxor (h : VHdr) (d a b : Desc)
  /-- VANDN (R199): Bitwise A AND NOT B. -/
  | vandn (h : VHdr) (d a b : Desc)
  /-- VSLL (R199): Logical left shift of elements. -/
  | vsll (h : VHdr) (d a b : Desc)
  /-- VSRL (R199): Logical right shift of elements. -/
  | vsrl (h : VHdr) (d a b : Desc)
  /-- VSRA (R199): Arithmetic right shift of elements. -/
  | vsra (h : VHdr) (d a b : Desc)
  /-- VCLZ (R199): Counts leading zero bits of each element. -/
  | vclz (h : VHdr) (d a : Desc)
  /-- VPOPC (R199): Counts one bits of each element. -/
  | vpopc (h : VHdr) (d a : Desc)
  /-- VMOV (R199): Copies A into D. -/
  | vmov (h : VHdr) (d a : Desc)
  /-- VSEL (R199): Selects A in active lanes and B in inactive lanes. -/
  | vsel (h : VHdr) (d a b : Desc)
  /-- VCMP (R200): Compares elements and writes a predicate. -/
  | vcmp (h : VHdr) (cc : Cmp) (d a b : Desc)
  /-- PAND (R201): ANDs two predicates. -/
  | pand (h : VHdr) (pd pa pb : BitVec 3)
  /-- POR (R201): ORs two predicates. -/
  | por (h : VHdr) (pd pa pb : BitVec 3)
  /-- PXOR (R201): XORs two predicates. -/
  | pxor (h : VHdr) (pd pa pb : BitVec 3)
  /-- PNOT (R201): Inverts a predicate. -/
  | pnot (h : VHdr) (pd pa : BitVec 3)
  /-- PSET (R201): Sets a predicate from a scalar or a lane count. -/
  | pset (h : VHdr) (pd : BitVec 3) (a : Desc)
  /-- PGET (R201): Expands a predicate into lane masks. -/
  | pget (h : VHdr) (vd : BitVec 5) (pa : BitVec 3)
  /-- PCNT (R201): Writes the predicate's population count to every lane. -/
  | pcnt (h : VHdr) (vd : BitVec 5) (pa : BitVec 3)
  /-- PFIRST (R201): Keeps only the lowest set bit of a predicate. -/
  | pfirst (h : VHdr) (pd pa : BitVec 3)
  /-- VCVT (R203): Converts elements between types of one width. -/
  | vcvt (h : VHdr) (src : ElemType) (d a : Desc)
  /-- VCVTSC (R204): Quantises or dequantises between f32 and a microscaling type with E8M0 scales. -/
  | vcvtsc (h : VHdr) (src : ElemType) (d a b : Desc)
  /-- VPACK (R203): Converts to a narrower type into one part of D. -/
  | vpack (h : VHdr) (src : ElemType) (d a : Desc) (part : BitVec 3)
  /-- VUNPACK (R203): Converts one part of A to a wider type. -/
  | vunpack (h : VHdr) (src : ElemType) (d a : Desc) (part : BitVec 3)
  /-- VROUND (R203): Rounds each element to an integral value. -/
  | vround (h : VHdr) (d a : Desc)
  /-- VQL4 (R205): Decodes one 64-element QL4 block to f32. -/
  | vql4 (h : VHdr) (d a b : Desc)
  /-- VRSUM (R206): Sums the active elements in a fixed tree. -/
  | vrsum (h : VHdr) (d a : Desc)
  /-- VRMAX (R206): Reduces the active elements to their maximum. -/
  | vrmax (h : VHdr) (d a : Desc)
  /-- VRMIN (R206): Reduces the active elements to their minimum. -/
  | vrmin (h : VHdr) (d a : Desc)
  /-- VRDOT (R206): Reduces the products of A and B to a dot product. -/
  | vrdot (h : VHdr) (d a b : Desc)
  /-- VSCAN (R206): Writes an inclusive prefix sum. -/
  | vscan (h : VHdr) (d a : Desc)
  /-- VARGMAX (R206): Writes the lowest index of the greatest active element. -/
  | vargmax (h : VHdr) (d a : Desc)
  /-- VPERM (R207): Permutes elements by indices. -/
  | vperm (h : VHdr) (d a b : Desc)
  /-- VROT (R207): Rotates elements. -/
  | vrot (h : VHdr) (d a b : Desc)
  /-- VSHFL (R207): Shuffles elements by an XOR of index. -/
  | vshfl (h : VHdr) (d a b : Desc)
  /-- VBCAST (R207): Broadcasts one element. -/
  | vbcast (h : VHdr) (d a b : Desc)
  /-- VZIP (R207): Interleaves A and B. -/
  | vzip (h : VHdr) (d a b : Desc)
  /-- VUNZIP (R207): Takes the even elements of A followed by B. -/
  | vunzip (h : VHdr) (d a b : Desc)
  /-- VTRN (R207): Transposes pairs of A and B. -/
  | vtrn (h : VHdr) (d a b : Desc)
  /-- VCOMPRESS (R207): Packs the active lanes to the bottom and zeros the rest. -/
  | vcompress (h : VHdr) (d a : Desc)
  /-- VEXPAND (R207): Spreads low lanes of A into the active lanes. -/
  | vexpand (h : VHdr) (d a : Desc)
  /-- VLD (R208): Loads one element per lane from own scratchpad. -/
  | vld (h : VHdr) (d a : Desc)
  /-- VST (R208): Stores one element per lane into own scratchpad. -/
  | vst (h : VHdr) (d a : Desc)
  /-- VGATH (R208): Gathers elements by index. -/
  | vgath (h : VHdr) (d a b : Desc)
  /-- VSCAT (R208): Scatters elements by index. -/
  | vscat (h : VHdr) (d a b : Desc)
  /-- VDQ (R209): Pops one data-queue entry per active lane. -/
  | vdq (h : VHdr) (vd : BitVec 5) (n : BitVec 2)
  /-- VAQ (R209): Pushes one address per active lane into an access queue. -/
  | vaq (h : VHdr) (m : MemRef) (vi : BitVec 5) (n : BitVec 2)
  /-- VLOOP (R211): Sets up a zero-overhead loop nest over the next body words. -/
  | vloop (h : VHdr) (lenM1 : BitVec 4) (depth : BitVec 3) (ts : BitVec 12)
  /-- VCPUSH (R214): Appends the active lanes to a conditional stream. -/
  | vcpush (h : VHdr) (a : Desc) (n : BitVec 2)
  /-- VCPOP (R214): Pops up to 64 records of a conditional stream into lanes. -/
  | vcpop (h : VHdr) (vd : BitVec 5) (n : BitVec 2)
  /-- VCFLUSH (R214): Empties a conditional stream and clears its overflow bit. -/
  | vcflush (h : VHdr) (n : BitVec 2)
  /-- PCOPY (R266): Queues a pump copy of a nest of elements. -/
  | pcopy (h : EHdr) (p : Pump)
  /-- PGATH (R267): Queues a pump copy with an indexed source. -/
  | pgath (h : EHdr) (p : Pump)
  /-- PSCAT (R267): Queues a pump copy with an indexed destination. -/
  | pscat (h : EHdr) (p : Pump)
  /-- PFILL (R266): Queues a pump fill with a scalar value. -/
  | pfill (h : EHdr) (p : Pump)
  /-- PRING (R272): Queues a pump copy out of a stream ring. -/
  | pring (h : EHdr) (p : Pump)
  /-- PPAGE (R268): Queues a supervisor copy of one physical page. -/
  | ppage (h : EHdr) (sb db : BitVec 4) (tok hreg : BitVec 5)
  /-- MMUL (R312): Queues one matrix tile step. -/
  | mmul (h : EHdr) (acc : BitVec 2) (qa qb : BitVec 4) (init : Bool)
  /-- MSL (R319): Queues a sliced FP32 or FP64 tile product. -/
  | msl (h : EHdr) (acc : BitVec 2) (qa qb : BitVec 4) (init : Bool) (slm1 : BitVec 3)
  /-- MKAT (R313): Queues a tile step checked against a CRC-64 signature. -/
  | mkat (h : EHdr) (acc : BitVec 2) (qa qb : BitVec 4) (init : Bool) (crc : BitVec 64)
  /-- MST (R314): Queues a store of an accumulator tile to memory. -/
  | mst (h : EHdr) (acc : BitVec 2) (ob : BitVec 4) (kind : OutKind) (sat : Bool) (ooff : BitVec 24)
  /-- MLD (R315): Queues a load of an accumulator tile from memory. -/
  | mld (h : EHdr) (acc : BitVec 2) (ob : BitVec 4) (ooff : BitVec 24)
  /-- MZERO (R316): Queues a zeroing of an accumulator tile. -/
  | mzero (h : EHdr) (acc : BitVec 2)
  /-- MREL (R316): Queues a release of the matrix lease. -/
  | mrel (h : EHdr)
  /-- WLOAD (R345): Queues latch fills from the wells' banks. -/
  | wload (h : EHdr) (r : WellRect) (latch : Bool) (off : BitVec 27) (sn : BitVec 5)
  /-- WSWAP (R345): Queues making a latch active once its fill is done. -/
  | wswap (h : EHdr) (r : WellRect) (latch : Bool)
  /-- WFEED (R345): Queues injecting activations and running vectors through the chains into cisterns. -/
  | wfeed (h : EHdr) (r : WellRect) (src : FeedSrc) (slot countM1 : BitVec 6) (part : Option (BitVec 4))
  /-- WDRAIN (R340): Queues draining cistern slots through the activation stage into a ring. -/
  | wdrain (h : EHdr) (rows : WellRows) (q : BitVec 4) (slot countM1 : BitVec 6) (kind : DrainKind) (sat : Bool)
  /-- WMODE (R345): Queues setting the rows' weight format and transposed flag. -/
  | wmode (h : EHdr) (rows : WellRows) (fmt : WellFmt) (tr : Bool)
  /-- WPIPE (R345): Queues setting the rows' flags, function, alpha and beta. -/
  | wpipe (h : EHdr) (rows : WellRows) (fn : ActFn) (sp : BitVec 5) (dqb mlb rdb : Bool)
  /-- WCHK (R348): Queues a per-well check and the writing of a failure bitmap. -/
  | wchk (h : EHdr) (r : WellRect) (slot : BitVec 6) (sb : BitVec 5)
  /-- CRED (R382): Queues a collective reduction. -/
  | cred (h : EHdr) (db sb : BitVec 4) (ty : ElemType) (count : BitVec 32) (op : CollOp) (scope : Scope) (group : BitVec 8)
  /-- CBCAST (R382): Queues a collective broadcast from the root. -/
  | cbcast (h : EHdr) (db sb : BitVec 4) (ty : ElemType) (count : BitVec 32) (scope : Scope) (group : BitVec 8)
  /-- CGATH (R382): Queues a collective gather. -/
  | cgath (h : EHdr) (db sb : BitVec 4) (ty : ElemType) (count : BitVec 32) (scope : Scope) (group : BitVec 8)
  /-- CSCAT (R382): Queues a collective scatter from the root. -/
  | cscat (h : EHdr) (db sb : BitVec 4) (ty : ElemType) (count : BitVec 32) (scope : Scope) (group : BitVec 8)
  /-- CSYNC (R382): Queues a collective synchronisation. -/
  | csync (h : EHdr) (scope : Scope) (group : BitVec 8)
  /-- QTAIL_WRITE (R53): The host writes a queue's tail, admitting the packets below it or stopping the queue with tail_invalid. -/
  | qtailWrite (qid : Nat) (value : BitVec 32)
  /-- MQTAIL_WRITE (R69): The host advances the management ring's tail, submitting commands. -/
  | mqtailWrite (value : BitVec 32)
  /-- REGISTER_WRITE (R49): A write to a BAR0 or system register that has no behaviour of its own, including ignored or logged accesses. -/
  | registerWrite (off : BitVec 26) (size : Nat) (value : BitVec 64)
  /-- BAR2_ACCESS (R46): A host read or write through BAR2 reaches the home LLC slice. -/
  | bar2Access (access : HostAccess)
  /-- ATS_INVALIDATION (R48): The host invalidates cached translations, and the part completes the invalidation. -/
  | atsInvalidation (pasid : BitVec 20) (va len : Nat)
  /-- PAGE_REQUEST_RESPONSE (R48): The host answers a PRI page request, granting it or causing a translation fault. -/
  | pageRequestResponse (pasid : BitVec 20) (va : Nat) (grant : Option Nat)
  /-- LAUNCH_PACKET (R43): Firmware reads and validates a launch record, its nodes, headers and successor lists, then admits the launch or stops the queue. -/
  | launchPacket (qid : Nat)
  /-- COPY_PACKET (R88): Firmware accepts a one-node copy launch on the named die. -/
  | copyPacket (qid : Nat)
  /-- WAIT_PACKET (R58): Firmware blocks the queue until a barrier reaches a phase. -/
  | waitPacket (qid : Nat)
  /-- SIGNAL_PACKET (R58): Firmware makes one arrival at a barrier at system scope. -/
  | signalPacket (qid : Nat)
  /-- MODE_PACKET (R62): Sets the queue's level and strict flag in one step. -/
  | modePacket (qid : Nat)
  /-- FENCE_PACKET (R58): Holds the queue until earlier launches retire and their masked writes are visible at scope. -/
  | fencePacket (qid : Nat)
  /-- WAIT_SATISFIED (R58): A blocked WAIT packet's phase condition comes true, and the head passes it. -/
  | waitSatisfied (qid : Nat)
  /-- FENCE_PACKET_COMPLETE (R58): A pending FENCE packet's condition comes true, and it completes. -/
  | fencePacketComplete (qid : Nat)
  /-- POOL_ROOM_ADMIT (R86): Room appears in a ready pool and the held launch's entries are reserved as the head passes. -/
  | poolRoomAdmit (qid : Nat)
  /-- MAPQ (R71): Creates a queue with its class, level, ring, vector and PASID. -/
  | mapq
  /-- UNMAPQ (R71): Removes a queue that needs no slot. -/
  | unmapq
  /-- QRESET (R72): Stops and discards all work a queue has started, and returns it to reading packets. -/
  | qreset
  /-- PASID_BIND (R71): Binds a PASID to a page-table root. -/
  | pasidBind
  /-- PASID_RETIRE (R74): Retires a PASID, stopping its queues and dropping its translations. -/
  | pasidRetire
  /-- PREEMPT (R75): Evicts a queue's outstanding launches into a save area. -/
  | preempt
  /-- RESYNC (R76): Writes a summary of queues, slots, launches, health and the error log. -/
  | resync
  /-- ATTEST (R78): Writes a signed attestation report. -/
  | attest
  /-- PATCH (R80): Checks and applies a signed firmware patch. -/
  | patch
  /-- DSP (R81): Sets the die-scratchpad size of one die. -/
  | dsp
  /-- SLOT_GRANT (R66): A free Tahr slot goes to a waiting queue. -/
  | slotGrant
  /-- SLOT_IDLE_RELEASE (R65): A queue that needs no slot for 4,096 ck releases it. -/
  | slotIdleRelease (slot : Nat)
  /-- FORCED_UNMAPPING (R67): Firmware force-unmaps a borrower so that a class regains its reservation. -/
  | forcedUnmapping
  /-- QUEUE_CONTEXT_SAVED (R105): An unmapping slot finishes saving the queue context and becomes Free. -/
  | queueContextSaved (slot : Nat)
  /-- NODE_DISPATCH (R89): A ready pool chooses its next node by level, slot and sequence number. -/
  | nodeDispatch (die : Nat)
  /-- RESERVING_CLAIM (R95): An executor becomes idle and goes to the Reserving node of highest precedence. -/
  | reservingClaim
  /-- LEVEL_AGING (R90): A Ready node's count of higher-level dispatches reaches 64 and its effective level rises. -/
  | levelAging (lseq node : Nat)
  /-- NODE_TRIGGER_FIRE (R98): A node's node-level trigger fires, lowering its successors' counts. -/
  | nodeTriggerFire (lseq node : Nat)
  /-- GRAPH_TRIGGER_FIRE (R99): A graph's graph-level trigger fires, letting the queue's next packet proceed. -/
  | graphTriggerFire (lseq : Nat)
  /-- NODE_RETIREMENT (R429): A herd or well node retires, freeing its executors and arriving at nbar. -/
  | nodeRetirement (lseq node : Nat)
  /-- COPY_NODE_RETIREMENT (R430): A copy node's copy completes and it retires. -/
  | copyNodeRetirement (lseq node : Nat)
  /-- GRAPH_RETIREMENT (R432): A graph retires, arriving at gbar and writing the queue's status record. -/
  | graphRetirement (lseq : Nat)
  /-- NODE_ROTATION (R103): A node on a herd hot for 256 samples is evicted and placed again. -/
  | nodeRotation (lseq node : Nat)
  /-- BRANCH_RESOLUTION (R141): Every attached core has reported a branch's next address, and the attached set splits. -/
  | branchResolution (herd : Nat)
  /-- VLOOP_BODY_ISSUE (R211): The core issues the next body word of a loop nest from its loop buffer. -/
  | vloopBodyIssue (herd core : Nat)
  /-- SCALAR_RESULT_LANDING (R156): A multi-cycle scalar result is written and its pending bit clears. -/
  | scalarResultLanding (herd core : Nat) (reg : BitVec 5)
  /-- VECTOR_RESULT_LANDING (R117): A vector word's result lands in its destination. -/
  | vectorResultLanding (herd core : Nat)
  /-- STORE_PERFORM (R357): A store-queue entry performs and becomes visible. -/
  | storePerform (herd core idx : Nat)
  /-- ACCESS_QUEUE_ENTRY_PERFORM (R256): An access-queue entry performs its load into the data queue, or is held by a fault. -/
  | accessQueueEntryPerform (herd core : Nat) (n : BitVec 2)
  /-- PARITY_UPDATE (R227): The parity row of a written data row is updated and its stale mark cleared. -/
  | parityUpdate (herd core group row : Nat)
  /-- BANK_REBUILD (R230): A parity bank finishes rebuilding a retired data bank, and the group becomes degraded. -/
  | bankRebuild (herd core bank : Nat)
  /-- TLB_MISS_WALK (R242): A second-level TLB serves a miss by walking the page tables. -/
  | tlbMissWalk (die : Nat) (pasid : BitVec 20) (va : Nat)
  /-- XDSP_WRITE (R234): A supervisor write to xdsp starts a change of die-scratchpad ways. -/
  | xdspWrite (herd core : Nat)
  /-- DSP_CHANGE_COMPLETE (R234): A change of die-scratchpad ways completes. -/
  | dspChangeComplete (die : Nat)
  /-- FREE_PAGE_POP (R245): A write to xfreq with op 0 pops a frame from a free-page list. -/
  | freePagePop (herd core : Nat)
  /-- FREE_PAGE_PUSH (R245): A write to xfreq with op 1 pushes a frame onto its well's free-page list. -/
  | freePagePush (herd core : Nat)
  /-- ZERO_FILL (R259): A write of xaqs.zf makes the faulted access-queue head deliver a zero entry and leave. -/
  | zeroFill (herd core : Nat)
  /-- REPORT_POST (R406): A write to xrpt with end = 0 posts a report to firmware. -/
  | reportPost (herd core : Nat)
  /-- REPORT_POST_END (R406): A write to xrpt with end = 1 posts a report and ends the core. -/
  | reportPostEnd (herd core : Nat)
  /-- SEMAPHORE_GRANT (R177): A semaphore grants units to its oldest satisfiable waiter. -/
  | semaphoreGrant (herd : Nat) (k : BitVec 8)
  /-- ENGINE_ENTRY_START (R172): A shared engine takes a Ready queue head. -/
  | engineEntryStart (herd core : Nat) (eng : Engine)
  /-- ENGINE_ENTRY_COMPLETION (R178): An engine entry completes or is discarded and makes its completion actions. -/
  | engineEntryCompletion (herd core : Nat) (eng : Engine)
  /-- LEASE_GRANT (R305): The matrix engine grants its lease to the next core with a startable head. -/
  | leaseGrant (herd : Nat)
  /-- LEASE_END (R306): The matrix lease ends by limit, mrel, idleness for 64 ck, or eviction. -/
  | leaseEnd (herd : Nat)
  /-- COLLECTIVE_START (R381): Every participant's matching collective is Ready and all start together. -/
  | collectiveStart (herd core : Nat)
  /-- PUMP_CANCEL_ACK (R274): A stopped pump acknowledges a cancel and the pcancel answer lands. -/
  | pumpCancelAck (herd core : Nat)
  /-- FILL_ROW_ACTIVATION (R330): A fill's DRAM row opens and its beats begin once the vertical path is free. -/
  | fillRowActivation (die well : Nat) (latch : Bool)
  /-- FILL_COMPLETE (R330): A latch fill's last beat lands and its fill-pending flag clears. -/
  | fillComplete (die well : Nat) (latch : Bool)
  /-- BANK_REFRESH (R331): A bank is refreshed once per refresh interval, closing its open row. -/
  | bankRefresh (die well bank : Nat)
  /-- CISTERN_ARRIVAL (R338): A chain's vector arrives at the output cistern, is checked and combined into its slot. -/
  | cisternArrival (herd : Nat)
  /-- BARRIER_WAITER_WAKE (R374): A barrier's phase satisfies a waiter, which wakes as an acquire. -/
  | barrierWaiterWake (herd core : Nat)
  /-- SHORT_BARRIER_WAKE (R378): A short barrier's parity flips and its pbwait waiters wake. -/
  | shortBarrierWake (herd core : Nat)
  /-- SPINW_WAKE (R364): A write to the monitored location wakes a spinw, which exits on a differing value. -/
  | spinwWake (herd core : Nat)
  /-- HOST_BARRIER_POLL (R376): Firmware re-reads a host-memory barrier object for a WAIT at most every 8,192 ck. -/
  | hostBarrierPoll (qid : Nat)
  /-- TRAP_ENTRY (R394): The core takes a precise trap, held access-queue fault or notice at an instruction boundary. -/
  | trapEntry (herd core : Nat)
  /-- REGISTER_MISS (R407): First use of an absent register fetches it from the save area. -/
  | registerMiss (herd core : Nat) (reg : BankReg)
  /-- NOTICE_POST (R396): Firmware posts a notice to a core, setting np and ncode. -/
  | noticePost (herd core : Nat) (code : BitVec 16)
  /-- CONTEXT_SWAP (R410): A core takes an eviction request at its boundary and exchanges register banks. -/
  | contextSwap (herd core : Nat)
  /-- HERD_QUIESCENCE (R413): Every old entry has completed and every old write is visible, so herd items can be read. -/
  | herdQuiescence (herd : Nat)
  /-- CONTEXT_SPILL_COMPLETE (R414): The old context has been written to its save area. -/
  | contextSpillComplete (herd : Nat)
  /-- CONTEXT_RESTORE (R415): Queues, herd items and tiles of a resumed context are read back. -/
  | contextRestore (herd : Nat)
  /-- UNIT_RETIREMENT (R435): A health counter reaches its threshold and the unit retires. -/
  | unitRetirement (unit : UnitId)
  /-- SENSOR_SAMPLE (R438): Firmware samples every zone sensor and module power every 1,024 ck. -/
  | sensorSample (sample : Sample)
  /-- XTHERM_UPDATE (R441): Firmware writes the die's issue budgets after a sample. -/
  | xthermUpdate (die : Nat)
  /-- THERMAL_EMERGENCY_STOP (R443): Running entries of a zone in emergency stop with thermal_abort. -/
  | thermalEmergencyStop (die zone : Nat)
  /-- REMOTE_ACCESS_RECEIVED (R219): A remote store or atomic from the peer is performed in device memory. -/
  | remoteAccessReceived (port : Bool) (op : RemoteOp)
  /-- PEER_PORT_DOWN (R386): A peer port goes down, losing remote stores and failing peer traffic. -/
  | peerPortDown (port : Bool)
  /-- POWER_ON_RESET (R447): Main power is applied and everything is cleared. -/
  | powerOnReset
  /-- FUNDAMENTAL_RESET (R447): A PCI Express fundamental reset clears the part as power-on does. -/
  | fundamentalReset
  /-- FUNCTION_LEVEL_RESET (R447): A function-level reset discards queues and work and keeps DRAM and health state. -/
  | functionLevelReset
  /-- BRING_UP_COMPLETE (R448): The Tahr finishes bring-up from ROM and sets ready, or sets fatal. -/
  | bringUpComplete (result : BringUp)
  /-- MAIN_POWER_LOSS (R20): Main power is removed and the part loses every piece of state, patches included. -/
  | mainPowerLoss
  /-- PEER_PORT_UP (R385): A peer port that was down comes up again and carries remote stores, atomics and collective traffic once more. -/
  | peerPortUp (port : Bool)
  /-- TLB_INVALIDATION_COMPLETE (R243): A tlbinv or tlbinvall completes across the module within 4,096 ck and the stalled core resumes. -/
  | tlbInvalidationComplete (herd core : Nat)
  deriving DecidableEq, Repr, Inhabited

end Sys2Proof
end

