-- ==== Sys2Proof/Machine/Types.lean ====
section
/-! DEFINITION. Codes and properties of the small types of the syntax (R115, R116, R125, R131, R187, R390). -/

namespace Sys2Proof.Machine

/-- Width in bits of an element type (R187). -/
def elemWidth : ElemType → Nat
  | .s32 | .z32 | .f32 => 32
  | .s16 | .z16 | .f16 | .bf16 => 16
  | .s8 | .z8 | .e4m3 | .e5m2 | .e3m2 | .e2m3 => 8
  | .e2m1 | .s4 => 4

/-- The types I of R197. -/
def isI : ElemType → Bool
  | .s8 | .s16 | .s32 | .z8 | .z16 | .z32 => true
  | _ => false

/-- The types F of R197. -/
def isF : ElemType → Bool
  | .f32 | .f16 | .bf16 => true
  | _ => false

/-- Integer types, s4 among them (R279). -/
def isInt : ElemType → Bool
  | .s4 => true
  | t => isI t

/-- Signed integer types (R115). -/
def isSigned : ElemType → Bool
  | .s8 | .s16 | .s32 | .s4 => true
  | _ => false

/-- Types that take an immediate (R191). -/
def takesImm (t : ElemType) : Bool := isI t || isF t

def elemCode : ElemType → Nat
  | .s8 => 0x0 | .s16 => 0x1 | .s32 => 0x2 | .z8 => 0x3 | .z16 => 0x4 | .z32 => 0x5 | .f16 => 0x6 | .bf16 => 0x7
  | .f32 => 0x8 | .e4m3 => 0x9 | .e5m2 => 0xA | .e3m2 => 0xB | .e2m3 => 0xC | .e2m1 => 0xD | .s4 => 0xE

/-- The element type of a code; 0xF is reserved (R115). -/
def elemOfCode : Nat → Option ElemType
  | 0x0 => some .s8 | 0x1 => some .s16 | 0x2 => some .s32 | 0x3 => some .z8 | 0x4 => some .z16 | 0x5 => some .z32
  | 0x6 => some .f16 | 0x7 => some .bf16 | 0x8 => some .f32 | 0x9 => some .e4m3 | 0xA => some .e5m2 | 0xB => some .e3m2
  | 0xC => some .e2m3 | 0xD => some .e2m1 | 0xE => some .s4
  | _ => none

def rndCode : Rnd → Nat
  | .rne => 0 | .rtz => 1 | .rdn => 2 | .rup => 3

/-- The rounding of the two-bit code (R116). -/
def rndOfCode (n : Nat) : Rnd :=
  match n with
  | 0 => .rne | 1 => .rtz | 2 => .rdn | _ => .rup

def cmpCode : Cmp → Nat
  | .eq => 0 | .ne => 1 | .lt => 2 | .le => 3 | .gt => 4 | .ge => 5 | .un => 6 | .ord => 7

/-- Comparison codes 8 to 15 are reserved (R131). -/
def cmpOfCode : Nat → Option Cmp
  | 0 => some .eq | 1 => some .ne | 2 => some .lt | 3 => some .le | 4 => some .gt | 5 => some .ge | 6 => some .un
  | 7 => some .ord
  | _ => none

def scopeCode : Scope → Nat
  | .core => 0 | .herd => 1 | .die => 2 | .module => 3 | .system => 4

/-- Scope codes 5 to 7 are reserved (R125). -/
def scopeOfCode : Nat → Option Scope
  | 0 => some .core | 1 => some .herd | 2 => some .die | 3 => some .module | 4 => some .system
  | _ => none

def engineCode : Engine → Nat
  | .pump => 0 | .matrix => 1 | .well => 2 | .coll => 3

def engineOfCode (n : Nat) : Engine :=
  match n with
  | 0 => .pump | 1 => .matrix | 2 => .well | _ => .coll

/-- Depth of an engine queue (R169). -/
def engineDepth : Engine → Nat
  | .pump => 16 | .matrix => 16 | .well => 32 | .coll => 8

def xregNum : XReg → Nat
  | .xstat => 0x000 | .xvec => 0x001 | .xepc => 0x002 | .xcause => 0x003 | .xtval => 0x004 | .xscr0 => 0x005
  | .xscr1 => 0x006 | .xrpt => 0x007 | .xctx => 0x008 | .xherd => 0x020 | .xkov => 0x021 | .xcond => 0x022
  | .xaqs => 0x023 | .xaqa => 0x024 | .xdsp => 0x030 | .xfreq => 0x031 | .xfres => 0x032 | .xtherm => 0x040
  | .xtemp => 0x041 | .xcyc => 0x042

/-- The register of a number; an unassigned number is none (R390). -/
def xregOfNum : Nat → Option XReg
  | 0x000 => some .xstat | 0x001 => some .xvec | 0x002 => some .xepc | 0x003 => some .xcause | 0x004 => some .xtval
  | 0x005 => some .xscr0 | 0x006 => some .xscr1 | 0x007 => some .xrpt | 0x008 => some .xctx | 0x020 => some .xherd
  | 0x021 => some .xkov | 0x022 => some .xcond | 0x023 => some .xaqs | 0x024 => some .xaqa | 0x030 => some .xdsp
  | 0x031 => some .xfreq | 0x032 => some .xfres | 0x040 => some .xtherm | 0x041 => some .xtemp | 0x042 => some .xcyc
  | _ => none

def outKindCode : OutKind → Nat
  | .f32 => 0 | .bf16 => 1 | .f16 => 2 | .e4m3 => 3 | .e5m2 => 4 | .f64 => 5

def outKindOfCode : Nat → Option OutKind
  | 0 => some .f32 | 1 => some .bf16 | 2 => some .f16 | 3 => some .e4m3 | 4 => some .e5m2 | 5 => some .f64
  | _ => none

/-- Element bytes of an mst kind (R311). -/
def outKindBytes : OutKind → Nat
  | .f32 => 4 | .bf16 => 2 | .f16 => 2 | .e4m3 => 1 | .e5m2 => 1 | .f64 => 8

def drainKindCode : DrainKind → Nat
  | .f32 => 0 | .bf16 => 1 | .f16 => 2 | .e4m3 => 3 | .ep128 => 4

def drainKindOfCode : Nat → Option DrainKind
  | 0 => some .f32 | 1 => some .bf16 | 2 => some .f16 | 3 => some .e4m3 | 4 => some .ep128
  | _ => none

/-- Output element size of a drain kind (R344). -/
def drainKindBytes : DrainKind → Nat
  | .f32 => 4 | .bf16 => 2 | .f16 => 2 | .e4m3 => 1 | .ep128 => 32

def wellFmtCode : WellFmt → Nat
  | .int8 => 0 | .int4 => 1 | .mxint8 => 2 | .mxfp4 => 3 | .mxfp6 => 4 | .ql4 => 5

def wellFmtOfCode : Nat → Option WellFmt
  | 0 => some .int8 | 1 => some .int4 | 2 => some .mxint8 | 3 => some .mxfp4 | 4 => some .mxfp6 | 5 => some .ql4
  | _ => none

def actFnCode : ActFn → Nat
  | .identity => 0 | .relu => 1 | .silu => 2 | .tanh => 3 | .sigmoid => 4

def actFnOfCode : Nat → Option ActFn
  | 0 => some .identity | 1 => some .relu | 2 => some .silu | 3 => some .tanh | 4 => some .sigmoid
  | _ => none

def collOpCode : CollOp → Nat
  | .sum => 0 | .min => 1 | .max => 2 | .and => 3 | .or => 4 | .xor => 5

def collOpOfCode : Nat → Option CollOp
  | 0 => some .sum | 1 => some .min | 2 => some .max | 3 => some .and | 4 => some .or | 5 => some .xor
  | _ => none

end Sys2Proof.Machine
end

