-- ==== Sys2Proof/Machine/Legal.lean ====
section
/-! DEFINITION. What the opcode map refuses of an instruction whose fields each hold an assigned value: kinds of operands,
element types, rounding and saturation, least LAT, and the fields an operation does not use (R109, R112 to R133, R188 to
R214, R262 to R268, R342, R379). -/

namespace Sys2Proof.Machine.Legal

open Sys2Proof.Machine

def isIF (t : ElemType) : Bool := isI t || isF t

/-- Kinds v m of a destination; sel 3 is illegal there (R190). -/
def kVM : Desc → Bool
  | .reg _ => true
  | .mem m => m.sel != 3
  | _ => false

def kV : Desc → Bool
  | .reg _ => true
  | _ => false

/-- A predicate named by a register descriptor (R114). -/
def kP : Desc → Bool
  | .reg n => decide (n.toNat < 8)
  | _ => false

/-- Kinds v m s i of a source of type t (R191). -/
def kVMSI (t : ElemType) : Desc → Bool
  | .imm _ => takesImm t
  | _ => true

def kVorM : Desc → Bool
  | .reg _ | .mem _ => true
  | _ => false

def kVorS : Desc → Bool
  | .reg _ | .scal _ => true
  | _ => false

def kS : Desc → Bool
  | .scal _ => true
  | _ => false

def kSI : Desc → Bool
  | .scal _ | .imm _ => true
  | _ => false

def kM : Desc → Bool
  | .mem _ => true
  | _ => false

def kM0 : Desc → Bool
  | .mem m => m.sel == 0
  | _ => false

def kMd : Desc → Bool
  | .mem m => m.sel != 3
  | _ => false

/-- The source of pset: a scalar, or a lane count from 0 to 64 (R201). -/
def kPset : Desc → Bool
  | .scal _ => true
  | .imm i => decide (i.toNat ≤ 64)
  | _ => false

/-- rnd and sat both zero (R194). -/
def rsNone (h : VHdr) : Bool := h.rnd == .rne && !h.sat

/-- rnd zero (R194). -/
def rsSat (h : VHdr) : Bool := h.rnd == .rne

/-- rnd and sat for floating types, sat for integers (R197). -/
def rsArith (h : VHdr) : Bool := if isF h.ty then true else rsSat h

/-- rnd and sat of a store (R208). -/
def rsSt (h : VHdr) : Bool :=
  match h.ty with
  | .f16 | .bf16 => true
  | .f32 => rsNone h
  | _ => rsSat h

/-- rnd and sat of a conversion (R202). -/
def rsCvt (h : VHdr) (src : ElemType) : Bool :=
  if isInt h.ty then (if isInt src then h.rnd == .rne else !h.sat) else true

/-- No type suffix, and no rnd, sat (R194). -/
def plain (h : VHdr) : Bool := h.ty == .z32 && rsNone h

def lat (h : VHdr) (n : Nat) : Bool := decide (n ≤ h.lat.toNat)

def latIF (h : VHdr) (i f : Nat) : Bool := if isF h.ty then lat h f else lat h i

/-- Permutes take types of width 8, 16 and 32 (R207). -/
def perm (h : VHdr) : Bool := elemWidth h.ty != 4 && rsNone h

/-- Types of the memory words (R208). -/
def memTy (t : ElemType) : Bool := isIF t

/-- One of the two types is f32 and the other a microscaling element type (R204). -/
def mxPair (t s : ElemType) : Bool := (t == .f32 && mxElem s) || (s == .f32 && mxElem t)
where
  mxElem : ElemType → Bool
    | .e4m3 | .e5m2 | .e3m2 | .e2m3 | .e2m1 | .s8 => true
    | _ => false

/-- The width ratio of vpack and vunpack, and the part below it (R203). -/
def packFactor (wide narrow : Nat) (part : BitVec 3) : Bool :=
  let f := wide / narrow
  (f == 2 || f == 4 || f == 8) && decide (part.toNat < f)

/-- Header fields of an engine word that do not act are zero (R120). -/
def hdr (h : EHdr) : Bool := (h.wcnt != 0 || h.wsem == 0) && (h.scnt != 0 || h.ssem == 0)

def boundOk : Bound → Bool
  | .count n => n != 0
  | .loop _ => true

/-- One to six dimensions, a token, and a handle that is not the token (R121, R273). -/
def nest (p : Pump) : Bool :=
  decide (1 ≤ p.dims.length ∧ p.dims.length ≤ 6) && p.dims.all (fun x => boundOk x.bound) && p.tok != 0 &&
    (p.hreg == 0 || p.hreg != p.tok)

/-- A ring destination has no offset (R121). -/
def ringOk (p : Pump) : Bool := !p.ring || p.doff == 0

/-- Whether the opcode map accepts the instruction's fields together (R109). -/
def legal : Instr → Bool
  | .add _ _ _ => true
  | .sub _ _ _ => true
  | .and _ _ _ => true
  | .or _ _ _ => true
  | .xor _ _ _ => true
  | .andn _ _ _ => true
  | .sll _ _ _ => true
  | .srl _ _ _ => true
  | .sra _ _ _ => true
  | .rol _ _ _ => true
  | .ror _ _ _ => true
  | .slt _ _ _ => true
  | .sltu _ _ _ => true
  | .seq _ _ _ => true
  | .sne _ _ _ => true
  | .min _ _ _ => true
  | .max _ _ _ => true
  | .minu _ _ _ => true
  | .maxu _ _ _ => true
  | .clz _ _ => true
  | .ctz _ _ => true
  | .popc _ _ => true
  | .sextB _ _ => true
  | .sextH _ _ => true
  | .sextW _ _ => true
  | .zextB _ _ => true
  | .zextH _ _ => true
  | .zextW _ _ => true
  | .mul _ _ _ => true
  | .mulh _ _ _ => true
  | .mulhu _ _ _ => true
  | .mulhsu _ _ _ => true
  | .div _ _ _ => true
  | .divu _ _ _ => true
  | .rem _ _ _ => true
  | .remu _ _ _ => true
  | .cvtF64S64 _ _ _ => true
  | .cvtF32S64 _ _ _ => true
  | .cvtS64F64 _ _ _ => true
  | .cvtS64F32 _ _ _ => true
  | .cvtF64F32 _ _ => true
  | .cvtF32F64 _ _ _ => true
  | .cvtF32F16 _ _ => true
  | .cvtF16F32 _ _ _ => true
  | .cvtF32Bf16 _ _ => true
  | .cvtBf16F32 _ _ _ => true
  | .ptag _ _ _ => true
  | .pspace _ _ => true
  | .prank _ _ => true
  | .padd _ _ _ => true
  | .psub _ _ _ => true
  | .paddr _ _ => true
  | .jr _ => true
  | .callr _ _ => true
  | .addi _ _ _ => true
  | .andi _ _ _ => true
  | .ori _ _ _ => true
  | .xori _ _ _ => true
  | .slli _ _ _ => true
  | .srli _ _ _ => true
  | .srai _ _ _ => true
  | .slti _ _ _ => true
  | .sltiu _ _ _ => true
  | .lui _ _ => true
  | .auipc _ _ => true
  | .lset _ _ _ => true
  | .gsetOpen _ => true
  | .gsetNe _ _ => true
  | .gsetEq _ _ => true
  | .beq _ _ _ => true
  | .bne _ _ _ => true
  | .blt _ _ _ => true
  | .bge _ _ _ => true
  | .bltu _ _ _ => true
  | .bgeu _ _ _ => true
  | .j _ => true
  | .call _ => true
  | .ldB _ _ _ => true
  | .ldBu _ _ _ => true
  | .ldH _ _ _ => true
  | .ldHu _ _ _ => true
  | .ldW _ _ _ => true
  | .ldWu _ _ _ => true
  | .ldD _ _ _ => true
  | .ldNr _ _ _ => true
  | .stB _ _ _ => true
  | .stH _ _ _ => true
  | .stW _ _ _ => true
  | .stD _ _ _ => true
  | .ldb _ _ _ => true
  | .stb _ _ _ => true
  | .ldq _ _ _ => true
  | .stq _ _ _ => true
  | .amoaddW _ _ _ => true
  | .amoandW _ _ _ => true
  | .amoorW _ _ _ => true
  | .amoxorW _ _ _ => true
  | .amominW _ _ _ => true
  | .amomaxW _ _ _ => true
  | .amominuW _ _ _ => true
  | .amomaxuW _ _ _ => true
  | .amoswapW _ _ _ => true
  | .amocasW _ _ _ => true
  | .amofaddF32 _ _ _ => true
  | .amoaddD _ _ _ => true
  | .amoandD _ _ _ => true
  | .amoorD _ _ _ => true
  | .amoxorD _ _ _ => true
  | .amominD _ _ _ => true
  | .amomaxD _ _ _ => true
  | .amominuD _ _ _ => true
  | .amomaxuD _ _ _ => true
  | .amoswapD _ _ _ => true
  | .amocasD _ _ _ => true
  | .fenceC _ _ => true
  | .spinw _ _ _ => true
  | .barr _ _ _ => true
  | .bwait _ _ _ => true
  | .pbarr _ _ _ => true
  | .pbwait _ _ _ => true
  | .ksig _ count => count != 0
  | .kwait _ count => count != 0
  | .pcancel _ _ => true
  | .pgdec _ _ => true
  | .xr _ _ => true
  | .xw _ _ => true
  | .xset _ _ => true
  | .xclr _ _ => true
  | .trap _ => true
  | .xret => true
  | .halt => true
  | .ebreak => true
  | .herdid _ => true
  | .join => true
  | .detach => true
  | .qstat _ _ => true
  | .iflush => true
  | .tlbinv _ => true
  | .tlbinvall _ => true
  | .wait => true
  | .triggerN => true
  | .triggerG => true
  | .vadd h d a b => kVM d && kVMSI h.ty a && kVMSI h.ty b && isIF h.ty && rsArith h && latIF h 1 4
  | .vsub h d a b => kVM d && kVMSI h.ty a && kVMSI h.ty b && isIF h.ty && rsArith h && latIF h 1 4
  | .vmul h d a b => kVM d && kVMSI h.ty a && kVMSI h.ty b && isIF h.ty && rsArith h && latIF h 3 4
  | .vmulh h d a b => kVM d && kVMSI h.ty a && kVMSI h.ty b && isI h.ty && rsNone h && lat h 3
  | .vmin h d a b => kVM d && kVMSI h.ty a && kVMSI h.ty b && isIF h.ty && rsNone h && lat h 1
  | .vmax h d a b => kVM d && kVMSI h.ty a && kVMSI h.ty b && isIF h.ty && rsNone h && lat h 1
  | .vabs h d a => kVM d && kVMSI h.ty a && isIF h.ty && (if isI h.ty then rsSat h else rsNone h) && lat h 1
  | .vneg h d a => kVM d && kVMSI h.ty a && isIF h.ty && (if isI h.ty then rsSat h else rsNone h) && lat h 1
  | .vmac h d a b => kVM d && kVMSI h.ty a && kVMSI h.ty b && isI h.ty && rsSat h && lat h 3
  | .vdot4 h d a b => kVM d && kVMSI h.ty a && kVMSI h.ty b && (h.ty == .s8 || h.ty == .z8) && rsSat h && lat h 3
  | .vfma h d a b => kVM d && kVMSI h.ty a && kVMSI h.ty b && isF h.ty && lat h 4
  | .vfms h d a b => kVM d && kVMSI h.ty a && kVMSI h.ty b && isF h.ty && lat h 4
  | .vfnma h d a b => kVM d && kVMSI h.ty a && kVMSI h.ty b && isF h.ty && lat h 4
  | .vdiv h d a b => kVM d && kVMSI h.ty a && kVMSI h.ty b && isF h.ty && lat h 12
  | .vsqrt h d a => kVM d && kVMSI h.ty a && isF h.ty && lat h 12
  | .vrsqrt h d a => kVM d && kVMSI h.ty a && isF h.ty && lat h 6
  | .vrcp h d a => kVM d && kVMSI h.ty a && isF h.ty && lat h 6
  | .vexp2 h d a => kVM d && kVMSI h.ty a && isF h.ty && lat h 8
  | .vlog2 h d a => kVM d && kVMSI h.ty a && isF h.ty && lat h 8
  | .vtanh h d a => kVM d && kVMSI h.ty a && isF h.ty && lat h 8
  | .vsigm h d a => kVM d && kVMSI h.ty a && isF h.ty && lat h 8
  | .vscale h d a b => kVM d && kVMSI h.ty a && kVMSI h.ty b && isF h.ty && lat h 2
  | .vand h d a b => kVM d && kVMSI h.ty a && kVMSI h.ty b && isI h.ty && rsNone h && lat h 1
  | .vor h d a b => kVM d && kVMSI h.ty a && kVMSI h.ty b && isI h.ty && rsNone h && lat h 1
  | .vxor h d a b => kVM d && kVMSI h.ty a && kVMSI h.ty b && isI h.ty && rsNone h && lat h 1
  | .vandn h d a b => kVM d && kVMSI h.ty a && kVMSI h.ty b && isI h.ty && rsNone h && lat h 1
  | .vsll h d a b => kVM d && kVMSI h.ty a && kVMSI h.ty b && isI h.ty && rsNone h && lat h 1
  | .vsrl h d a b => kVM d && kVMSI h.ty a && kVMSI h.ty b && isI h.ty && rsNone h && lat h 1
  | .vsra h d a b => kVM d && kVMSI h.ty a && kVMSI h.ty b && isI h.ty && rsNone h && lat h 1
  | .vclz h d a => kVM d && kVMSI h.ty a && isI h.ty && rsNone h && lat h 1
  | .vpopc h d a => kVM d && kVMSI h.ty a && isI h.ty && rsNone h && lat h 1
  | .vmov h d a => kVM d && kVMSI h.ty a && rsNone h && lat h 1
  | .vsel h d a b => kVM d && kVMSI h.ty a && kVMSI h.ty b && rsNone h && lat h 1
  | .vcmp h cc d a b => kP d && kVMSI h.ty a && kVMSI h.ty b && isIF h.ty && (isF h.ty || (cc != .un && cc != .ord)) && rsNone h && latIF h 1 2
  | .pand h _ _ _ => plain h && h.pred == 0 && lat h 1
  | .por h _ _ _ => plain h && h.pred == 0 && lat h 1
  | .pxor h _ _ _ => plain h && h.pred == 0 && lat h 1
  | .pnot h _ _ => plain h && h.pred == 0 && lat h 1
  | .pset h _ a => plain h && h.pred == 0 && lat h 1 && kPset a
  | .pget h _ _ => plain h && h.pred == 0 && lat h 1
  | .pcnt h _ _ => plain h && h.pred == 0 && lat h 1
  | .pfirst h _ _ => plain h && h.pred == 0 && lat h 1
  | .vcvt h src d a => kVM d && kVMSI src a && elemWidth h.ty == elemWidth src && h.ty != src && rsCvt h src && lat h 3
  | .vcvtsc h src d a b => kV d && kVorM a && kVorS b && mxPair h.ty src && (h.ty != .s8 || !h.sat) && lat h 4
  | .vpack h src d a part => kV d && kVorM a && packFactor (elemWidth src) (elemWidth h.ty) part && rsCvt h src && lat h 3
  | .vunpack h src d a part => kV d && kVorM a && packFactor (elemWidth h.ty) (elemWidth src) part && rsCvt h src && lat h 3
  | .vround h d a => kVM d && kVMSI h.ty a && isF h.ty && !h.sat && lat h 2
  | .vql4 h d a b => kV d && kVorM a && kS b && h.ty == .f32 && lat h 4
  | .vrsum h d a => kV d && kVorM a && isIF h.ty && rsArith h && lat h 8
  | .vrmax h d a => kV d && kVorM a && isIF h.ty && rsNone h && lat h 8
  | .vrmin h d a => kV d && kVorM a && isIF h.ty && rsNone h && lat h 8
  | .vrdot h d a b => kV d && kVorM a && kVorM b && (isF h.ty || (isI h.ty && elemWidth h.ty != 32)) && rsArith h && lat h 10
  | .vscan h d a => kVM d && kVorM a && isIF h.ty && rsArith h && lat h 12
  | .vargmax h d a => kV d && kVorM a && isIF h.ty && rsNone h && lat h 8
  | .vperm h d a b => kV d && kVorM a && kVorM b && perm h && lat h 2
  | .vrot h d a b => kV d && kVorM a && kSI b && perm h && lat h 2
  | .vshfl h d a b => kV d && kVorM a && kSI b && perm h && lat h 2
  | .vbcast h d a b => kV d && kVorM a && kSI b && perm h && lat h 2
  | .vzip h d a b => kV d && kVorM a && kVorM b && perm h && lat h 2
  | .vunzip h d a b => kV d && kVorM a && kVorM b && perm h && lat h 2
  | .vtrn h d a b => kV d && kVorM a && kVorM b && perm h && lat h 2
  | .vcompress h d a => kV d && kVorM a && perm h && lat h 3
  | .vexpand h d a => kV d && kVorM a && perm h && lat h 3
  | .vld h d a => kV d && kM a && memTy h.ty && rsNone h && lat h 2
  | .vst h d a => kMd d && kV a && memTy h.ty && rsSt h && lat h 1
  | .vgath h d a b => kV d && kM0 a && kV b && memTy h.ty && rsNone h && lat h 2
  | .vscat h d a b => kM0 d && kV a && kV b && memTy h.ty && rsSt h && lat h 1
  | .vdq h _ _ => memTy h.ty && rsNone h && lat h 1
  | .vaq h m _ _ => (m.sel == 0) && (h.ty == .s32 || h.ty == .z32) && rsNone h
  | .vloop h _ depth ts => plain h && h.pred == 0 && !h.lb && depth != 0 && depth != 7 && ts.toNat < 4 ^ depth.toNat
  | .vcpush h a _ => plain h && kVorM a && lat h 2
  | .vcpop h _ _ => plain h && h.pred == 0 && lat h 3
  | .vcflush h _ => plain h && h.pred == 0 && lat h 1
  | .pcopy h p => hdr h && nest p && ringOk p
  | .pgath h p => hdr h && nest p && ringOk p && decide (2 ≤ p.dims.length) && (p.dims.drop 2).all (fun x => x.ssel == 0)
  | .pscat h p => hdr h && nest p && !p.ring && decide (2 ≤ p.dims.length) && (p.dims.drop 2).all (fun x => x.dsel == 0)
  | .pfill h p => hdr h && nest p && !p.ring && p.sb == 0 && p.soff == 0 && p.dims.all (fun x => x.ssel == 0)
  | .pring h p => hdr h && nest p && !p.ring && p.soff == 0 && p.dims.all (fun x => x.ssel == 0)
  | .ppage h _ _ tok hreg => hdr h && tok != 0 && (hreg == 0 || hreg != tok)
  | .mmul h _ _ _ _ => hdr h
  | .msl h _ _ _ _ _ => hdr h
  | .mkat h _ _ _ _ _ => hdr h
  | .mst h _ _ _ _ _ => hdr h
  | .mld h _ _ _ => hdr h
  | .mzero h _ => hdr h
  | .mrel h => hdr h
  | .wload h _ _ _ _ => hdr h
  | .wswap h _ _ => hdr h
  | .wfeed h _ _ _ _ _ => hdr h
  | .wdrain h _ _ _ _ _ _ => hdr h
  | .wmode h _ fmt tr => hdr h && (!tr || fmt == .int8 || fmt == .int4)
  | .wpipe h _ _ _ _ _ _ => hdr h
  | .wchk h _ _ _ => hdr h
  | .cred h _ _ _ count _ scope _ => hdr h && scope != .core && count != 0
  | .cbcast h _ _ _ count scope _ => hdr h && scope != .core && count != 0
  | .cgath h _ _ _ count scope _ => hdr h && scope != .core && count != 0
  | .cscat h _ _ _ count scope _ => hdr h && scope != .core && count != 0
  | .csync h scope _ => hdr h && scope != .core
  | .qtailWrite _ _ => true
  | .mqtailWrite _ => true
  | .registerWrite _ _ _ => true
  | .bar2Access _ => true
  | .atsInvalidation _ _ _ => true
  | .pageRequestResponse _ _ _ => true
  | .launchPacket _ => true
  | .copyPacket _ => true
  | .waitPacket _ => true
  | .signalPacket _ => true
  | .modePacket _ => true
  | .fencePacket _ => true
  | .waitSatisfied _ => true
  | .fencePacketComplete _ => true
  | .poolRoomAdmit _ => true
  | .mapq => true
  | .unmapq => true
  | .qreset => true
  | .pasidBind => true
  | .pasidRetire => true
  | .preempt => true
  | .resync => true
  | .attest => true
  | .patch => true
  | .dsp => true
  | .slotGrant => true
  | .slotIdleRelease _ => true
  | .forcedUnmapping => true
  | .queueContextSaved _ => true
  | .nodeDispatch _ => true
  | .reservingClaim => true
  | .levelAging _ _ => true
  | .nodeTriggerFire _ _ => true
  | .graphTriggerFire _ => true
  | .nodeRetirement _ _ => true
  | .copyNodeRetirement _ _ => true
  | .graphRetirement _ => true
  | .nodeRotation _ _ => true
  | .branchResolution _ => true
  | .vloopBodyIssue _ _ => true
  | .scalarResultLanding _ _ _ => true
  | .vectorResultLanding _ _ => true
  | .storePerform _ _ _ => true
  | .accessQueueEntryPerform _ _ _ => true
  | .parityUpdate _ _ _ _ => true
  | .bankRebuild _ _ _ => true
  | .tlbMissWalk _ _ _ => true
  | .xdspWrite _ _ => true
  | .dspChangeComplete _ => true
  | .freePagePop _ _ => true
  | .freePagePush _ _ => true
  | .zeroFill _ _ => true
  | .reportPost _ _ => true
  | .reportPostEnd _ _ => true
  | .semaphoreGrant _ _ => true
  | .engineEntryStart _ _ _ => true
  | .engineEntryCompletion _ _ _ => true
  | .leaseGrant _ => true
  | .leaseEnd _ => true
  | .collectiveStart _ _ => true
  | .pumpCancelAck _ _ => true
  | .fillRowActivation _ _ _ => true
  | .fillComplete _ _ _ => true
  | .bankRefresh _ _ _ => true
  | .cisternArrival _ => true
  | .barrierWaiterWake _ _ => true
  | .shortBarrierWake _ _ => true
  | .spinwWake _ _ => true
  | .hostBarrierPoll _ => true
  | .trapEntry _ _ => true
  | .registerMiss _ _ _ => true
  | .noticePost _ _ _ => true
  | .contextSwap _ _ => true
  | .herdQuiescence _ => true
  | .contextSpillComplete _ => true
  | .contextRestore _ => true
  | .unitRetirement _ => true
  | .sensorSample _ => true
  | .xthermUpdate _ => true
  | .thermalEmergencyStop _ _ => true
  | .remoteAccessReceived _ _ => true
  | .peerPortDown _ => true
  | .powerOnReset => true
  | .fundamentalReset => true
  | .functionLevelReset => true
  | .bringUpComplete _ => true
  | .mainPowerLoss => true
  | .peerPortUp _ => true
  | .tlbInvalidationComplete _ _ => true

end Sys2Proof.Machine.Legal
end

