-- ==== Sys2Proof/WellFormed.lean ====
section
/-! DEFINITION. Well-formed instructions: what the decoder yields, and the only ones a step runs. -/

namespace Sys2Proof

/-- The opcode map accepts the instruction (R109 to R133). -/
def Instr.wf (i : Instr) : Bool := Machine.Legal.legal i

end Sys2Proof
end

