-- ==== Sys2Proof/Decode.lean ====
section
/-! DEFINITION. The decoder and the encoder, from the tables of spec/05_formats_and_opcode_map.md, 13 (R342) and 14
(R379). A word is read as a list of bit fields from its low end; the same lists write it. -/

namespace Sys2Proof

open Sys2Proof.Machine

/-- Fields of the given widths and values laid from bit 0 upward. -/
def pack : List (Nat × Nat) → Nat
  | [] => 0
  | (n, v) :: r => v % 2 ^ n + 2 ^ n * pack r

/-- The values of fields of the given widths, from bit 0 upward. -/
def unpack : List Nat → Nat → List Nat
  | [], _ => []
  | n :: ns, w => w % 2 ^ n :: unpack ns (w / 2 ^ n)

/-- Why bits are not an instruction (R109). -/
inductive DecodeError where
  | truncated | notAClass | reservedMajor | reservedFunction | reservedOpcode | reservedValue | unusedField | illegal
  deriving DecidableEq, Repr

/-- A decoding that may be refused by name. -/
abbrev Decoded := Except DecodeError Instr

/-- Refuse with the name unless the condition holds. -/
def need (c : Bool) (e : DecodeError) (k : Decoded) : Decoded := if c then k else .error e

/-- The value of an optional field, refused by name when it is reserved. -/
def field {α : Type} (o : Option α) (k : α → Decoded) : Decoded :=
  match o with
  | some x => k x
  | none => .error .reservedValue

/-! ## Layouts, low field first -/

/-- RR and SYS (R110): func9, rs2, rs1, rd, major, class. -/
def layRR : List Nat := [9, 5, 5, 5, 6, 2]
/-- SYS with xnum (R110): func9, xnum, rd, major, class. -/
def layX : List Nat := [9, 10, 5, 6, 2]
/-- RI (R110): imm14, rs1, rd, major, class. -/
def layRI : List Nat := [14, 5, 5, 6, 2]
/-- RW (R110): imm19, rd, major, class. -/
def layRW : List Nat := [19, 5, 6, 2]
/-- RB (R110): disp14, rs2, rs1, major, class. -/
def layRB : List Nat := [14, 5, 5, 6, 2]
/-- J (R110): disp24, major, class. -/
def layJ : List Nat := [24, 6, 2]
/-- LS (R110): off15, b, s, major, class. -/
def layLS : List Nat := [15, 4, 5, 6, 2]
/-- AT (R110): off10, func5, b, s, major, class. -/
def layAT : List Nat := [10, 5, 4, 5, 6, 2]
/-- fence.c, ksig and kwait (R129): func9, [12:9], [15:13], [23:16], major, class. -/
def layK : List Nat := [9, 4, 3, 8, 6, 2]
/-- The vector header (R112): ext, lb, sat, rnd, type, gap, LAT, pred, opcode, class. -/
def layV : List Nat := [4, 1, 1, 2, 4, 3, 4, 3, 8, 2]
/-- The operand field (R113): D, A, B, reserved. -/
def layO : List Nat := [21, 21, 21, 1]
/-- A descriptor (R114): [12:0], [14:13], [18:15], kind. -/
def layD : List Nat := [13, 2, 4, 2]
/-- Granule 0 of an engine word (R119): reserved, wcnt, wsem, colour, guard, opcode, engine, class. -/
def layE0 : List Nat := [2, 4, 8, 3, 5, 6, 2, 2]
/-- Granule 1 of an engine word (R119): baroff, barb, barv, scnt, ssem. -/
def layE1 : List Nat := [15, 4, 1, 4, 8]
/-- A pump payload (R121): sb, db, soff, doff, tok, hreg, ring, reserved, six bounds, six pairs ssel dsel, reserved. -/
def layP : List Nat := [4, 4, 18, 18, 5, 5, 1, 9, 6, 6, 6, 6, 6, 6, 2, 2, 2, 2, 2, 2, 2, 2, 2, 2, 2, 2, 4]
/-- A matrix payload (R122): qa, qb, acc, init, slm1, ob, ofmt, ooff, reserved, crc. -/
def layM : List Nat := [4, 4, 2, 1, 3, 4, 4, 24, 18, 64]
/-- A well payload (R123): rrow, nrm1, rcol, ncm1, latch, reserved, q, opa, opb. -/
def layW : List Nat := [5, 5, 7, 7, 1, 3, 4, 32, 64]
/-- A collective payload (R124): sb, db, etype, op, scope, group, reserved, count, reserved. -/
def layC : List Nat := [4, 4, 4, 4, 3, 8, 37, 32, 32]

/-! ## Scalar words -/

/-- Three-register functions (R127). -/
def r3 (f : BitVec 5 → BitVec 5 → BitVec 5 → Instr) (d a b : Nat) : Decoded :=
  .ok (f (.ofNat 5 d) (.ofNat 5 a) (.ofNat 5 b))

/-- Unary functions require rs2 = 0 (R127). -/
def r2 (f : BitVec 5 → BitVec 5 → Instr) (d a b : Nat) : Decoded :=
  need (b == 0) .unusedField (.ok (f (.ofNat 5 d) (.ofNat 5 a)))

/-- Conversions take their rounding from rs2[1:0] (R127). -/
def rcvt (f : BitVec 5 → BitVec 5 → Rnd → Instr) (d a b : Nat) : Decoded :=
  need (decide (b < 4)) .unusedField (.ok (f (.ofNat 5 d) (.ofNat 5 a) (rndOfCode b)))

/-- Functions of major 0x00 (R127). -/
def decodeRR0 (f d a b : Nat) : Decoded :=
  match f with
  | 0 => r3 .add d a b
  | 1 => r3 .sub d a b
  | 2 => r3 .and d a b
  | 3 => r3 .or d a b
  | 4 => r3 .xor d a b
  | 5 => r3 .andn d a b
  | 6 => r3 .sll d a b
  | 7 => r3 .srl d a b
  | 8 => r3 .sra d a b
  | 9 => r3 .rol d a b
  | 10 => r3 .ror d a b
  | 11 => r3 .slt d a b
  | 12 => r3 .sltu d a b
  | 13 => r3 .seq d a b
  | 14 => r3 .sne d a b
  | 15 => r3 .min d a b
  | 16 => r3 .max d a b
  | 17 => r3 .minu d a b
  | 18 => r3 .maxu d a b
  | 19 => r2 .clz d a b
  | 20 => r2 .ctz d a b
  | 21 => r2 .popc d a b
  | 22 => r2 .sextB d a b
  | 23 => r2 .sextH d a b
  | 24 => r2 .sextW d a b
  | 25 => r2 .zextB d a b
  | 26 => r2 .zextH d a b
  | 27 => r2 .zextW d a b
  | _ => .error .reservedFunction

/-- Functions of major 0x01 (R127). -/
def decodeRR1 (f d a b : Nat) : Decoded :=
  match f with
  | 0 => r3 .mul d a b
  | 1 => r3 .mulh d a b
  | 2 => r3 .mulhu d a b
  | 3 => r3 .mulhsu d a b
  | 4 => r3 .div d a b
  | 5 => r3 .divu d a b
  | 6 => r3 .rem d a b
  | 7 => r3 .remu d a b
  | _ => .error .reservedFunction

/-- Functions of major 0x02 (R127). -/
def decodeRR2 (f d a b : Nat) : Decoded :=
  match f with
  | 0 => rcvt .cvtF64S64 d a b
  | 1 => rcvt .cvtF32S64 d a b
  | 2 => rcvt .cvtS64F64 d a b
  | 3 => rcvt .cvtS64F32 d a b
  | 4 => r2 .cvtF64F32 d a b
  | 5 => rcvt .cvtF32F64 d a b
  | 6 => r2 .cvtF32F16 d a b
  | 7 => rcvt .cvtF16F32 d a b
  | 8 => r2 .cvtF32Bf16 d a b
  | 9 => rcvt .cvtBf16F32 d a b
  | _ => .error .reservedFunction

/-- Functions of major 0x03 (R127). -/
def decodeRR3 (f d a b : Nat) : Decoded :=
  match f with
  | 0 => r3 .ptag d a b
  | 1 => r2 .pspace d a b
  | 2 => r2 .prank d a b
  | 3 => r3 .padd d a b
  | 4 => r3 .psub d a b
  | 5 => r2 .paddr d a b
  | _ => .error .reservedFunction

/-- Register jumps of major 0x04 (R127). -/
def decodeRR4 (f d a b : Nat) : Decoded :=
  match f with
  | 0 => need (d == 0 && b == 0) .unusedField (.ok (.jr (.ofNat 5 a)))
  | 1 => need (b == 0) .unusedField (.ok (.callr (.ofNat 5 d) (.ofNat 5 a)))
  | _ => .error .reservedFunction

/-- A shift immediate uses imm14[5:0] (R111). -/
def shImm (f : BitVec 5 → BitVec 5 → BitVec 6 → Instr) (d a i : Nat) : Decoded :=
  need (decide (i < 64)) .unusedField (.ok (f (.ofNat 5 d) (.ofNat 5 a) (.ofNat 6 i)))

/-- gset selects its mode by imm14 (R174). -/
def decodeGset (d a i : Nat) : Decoded :=
  need (decide (d < 16)) .unusedField <|
  match i with
  | 0 => need (a == 0) .unusedField (.ok (.gsetOpen (.ofNat 4 d)))
  | 1 => .ok (.gsetNe (.ofNat 4 d) (.ofNat 5 a))
  | 2 => .ok (.gsetEq (.ofNat 4 d) (.ofNat 5 a))
  | _ => .error .reservedValue

/-- RI words, majors 0x08 to 0x10, 0x13 and 0x14 (R126, R159). -/
def decodeRI (m d a i : Nat) : Decoded :=
  match m with
  | 0x08 => .ok (.addi (.ofNat 5 d) (.ofNat 5 a) (.ofNat 14 i))
  | 0x09 => .ok (.andi (.ofNat 5 d) (.ofNat 5 a) (.ofNat 14 i))
  | 0x0A => .ok (.ori (.ofNat 5 d) (.ofNat 5 a) (.ofNat 14 i))
  | 0x0B => .ok (.xori (.ofNat 5 d) (.ofNat 5 a) (.ofNat 14 i))
  | 0x0C => shImm .slli d a i
  | 0x0D => shImm .srli d a i
  | 0x0E => shImm .srai d a i
  | 0x0F => .ok (.slti (.ofNat 5 d) (.ofNat 5 a) (.ofNat 14 i))
  | 0x10 => .ok (.sltiu (.ofNat 5 d) (.ofNat 5 a) (.ofNat 14 i))
  | 0x13 => need (decide (d < 8)) .unusedField (.ok (.lset (.ofNat 3 d) (.ofNat 5 a) (.ofNat 14 i)))
  | _ => decodeGset d a i

/-- Conditional branches (R126, R165). -/
def decodeRB (m a b i : Nat) : Decoded :=
  match m with
  | 0x18 => .ok (.beq (.ofNat 5 a) (.ofNat 5 b) (.ofNat 14 i))
  | 0x19 => .ok (.bne (.ofNat 5 a) (.ofNat 5 b) (.ofNat 14 i))
  | 0x1A => .ok (.blt (.ofNat 5 a) (.ofNat 5 b) (.ofNat 14 i))
  | 0x1B => .ok (.bge (.ofNat 5 a) (.ofNat 5 b) (.ofNat 14 i))
  | 0x1C => .ok (.bltu (.ofNat 5 a) (.ofNat 5 b) (.ofNat 14 i))
  | _ => .ok (.bgeu (.ofNat 5 a) (.ofNat 5 b) (.ofNat 14 i))

/-- ldb, stb, ldq and stq name a register in s[3:0] (R111). -/
def img (f : BitVec 4 → BitVec 4 → BitVec 15 → Instr) (s b o : Nat) : Decoded :=
  need (decide (s < 16)) .unusedField (.ok (f (.ofNat 4 s) (.ofNat 4 b) (.ofNat 15 o)))

/-- Loads and stores (R126, R248, R251). -/
def decodeLS (m s b o : Nat) : Decoded :=
  match m with
  | 0x20 => .ok (.ldB (.ofNat 5 s) (.ofNat 4 b) (.ofNat 15 o))
  | 0x21 => .ok (.ldBu (.ofNat 5 s) (.ofNat 4 b) (.ofNat 15 o))
  | 0x22 => .ok (.ldH (.ofNat 5 s) (.ofNat 4 b) (.ofNat 15 o))
  | 0x23 => .ok (.ldHu (.ofNat 5 s) (.ofNat 4 b) (.ofNat 15 o))
  | 0x24 => .ok (.ldW (.ofNat 5 s) (.ofNat 4 b) (.ofNat 15 o))
  | 0x25 => .ok (.ldWu (.ofNat 5 s) (.ofNat 4 b) (.ofNat 15 o))
  | 0x26 => .ok (.ldD (.ofNat 5 s) (.ofNat 4 b) (.ofNat 15 o))
  | 0x27 => .ok (.ldNr (.ofNat 5 s) (.ofNat 4 b) (.ofNat 15 o))
  | 0x28 => .ok (.stB (.ofNat 5 s) (.ofNat 4 b) (.ofNat 15 o))
  | 0x29 => .ok (.stH (.ofNat 5 s) (.ofNat 4 b) (.ofNat 15 o))
  | 0x2A => .ok (.stW (.ofNat 5 s) (.ofNat 4 b) (.ofNat 15 o))
  | 0x2B => .ok (.stD (.ofNat 5 s) (.ofNat 4 b) (.ofNat 15 o))
  | 0x2C => img .ldb s b o
  | 0x2D => img .stb s b o
  | 0x2E => img .ldq s b o
  | _ => img .stq s b o

/-- Atomics of major 0x30 (R128); a cas requires an even s (R367). -/
def decodeATW (f s b o : Nat) : Decoded :=
  match f with
  | 0 => .ok (.amoaddW (.ofNat 5 s) (.ofNat 4 b) (.ofNat 10 o))
  | 1 => .ok (.amoandW (.ofNat 5 s) (.ofNat 4 b) (.ofNat 10 o))
  | 2 => .ok (.amoorW (.ofNat 5 s) (.ofNat 4 b) (.ofNat 10 o))
  | 3 => .ok (.amoxorW (.ofNat 5 s) (.ofNat 4 b) (.ofNat 10 o))
  | 4 => .ok (.amominW (.ofNat 5 s) (.ofNat 4 b) (.ofNat 10 o))
  | 5 => .ok (.amomaxW (.ofNat 5 s) (.ofNat 4 b) (.ofNat 10 o))
  | 6 => .ok (.amominuW (.ofNat 5 s) (.ofNat 4 b) (.ofNat 10 o))
  | 7 => .ok (.amomaxuW (.ofNat 5 s) (.ofNat 4 b) (.ofNat 10 o))
  | 8 => .ok (.amoswapW (.ofNat 5 s) (.ofNat 4 b) (.ofNat 10 o))
  | 9 => need (s % 2 == 0) .reservedValue (.ok (.amocasW (.ofNat 4 (s / 2)) (.ofNat 4 b) (.ofNat 10 o)))
  | 10 => .ok (.amofaddF32 (.ofNat 5 s) (.ofNat 4 b) (.ofNat 10 o))
  | _ => .error .reservedFunction

/-- Atomics of major 0x31 (R128); a cas requires an even s (R367). -/
def decodeATD (f s b o : Nat) : Decoded :=
  match f with
  | 0 => .ok (.amoaddD (.ofNat 5 s) (.ofNat 4 b) (.ofNat 10 o))
  | 1 => .ok (.amoandD (.ofNat 5 s) (.ofNat 4 b) (.ofNat 10 o))
  | 2 => .ok (.amoorD (.ofNat 5 s) (.ofNat 4 b) (.ofNat 10 o))
  | 3 => .ok (.amoxorD (.ofNat 5 s) (.ofNat 4 b) (.ofNat 10 o))
  | 4 => .ok (.amominD (.ofNat 5 s) (.ofNat 4 b) (.ofNat 10 o))
  | 5 => .ok (.amomaxD (.ofNat 5 s) (.ofNat 4 b) (.ofNat 10 o))
  | 6 => .ok (.amominuD (.ofNat 5 s) (.ofNat 4 b) (.ofNat 10 o))
  | 7 => .ok (.amomaxuD (.ofNat 5 s) (.ofNat 4 b) (.ofNat 10 o))
  | 8 => .ok (.amoswapD (.ofNat 5 s) (.ofNat 4 b) (.ofNat 10 o))
  | 9 => need (s % 2 == 0) .reservedValue (.ok (.amocasD (.ofNat 4 (s / 2)) (.ofNat 4 b) (.ofNat 10 o)))
  | _ => .error .reservedFunction

/-- Record-addressed synchronisation words: rs1[4] = 0 (R129). -/
def syncW (f : BitVec 5 → BitVec 4 → BitVec 5 → Instr) (d a b : Nat) : Decoded :=
  need (decide (a < 16)) .unusedField (.ok (f (.ofNat 5 d) (.ofNat 4 a) (.ofNat 5 b)))

/-- Functions of major 0x32 (R129). -/
def decodeSync (w : Nat) : Decoded :=
  match unpack layRR w, unpack layK w with
  | [f, b, a, d, _, _], [_, c, s, k, _, _] =>
    match f with
    | 0 => need (c == 0) .unusedField (field (scopeOfCode s) fun sc => .ok (.fenceC (.ofNat 8 k) sc))
    | 1 => syncW .spinw d a b
    | 2 => syncW .barr d a b
    | 3 => syncW .bwait d a b
    | 4 => syncW .pbarr d a b
    | 5 => syncW .pbwait d a b
    | 6 => need (s == 0) .unusedField (.ok (.ksig (.ofNat 8 k) (.ofNat 4 c)))
    | 7 => need (s == 0) .unusedField (.ok (.kwait (.ofNat 8 k) (.ofNat 4 c)))
    | 8 => need (b == 0) .unusedField (.ok (.pcancel (.ofNat 5 d) (.ofNat 5 a)))
    | 9 => need (d == 0 && decide (a < 16)) .unusedField (.ok (.pgdec (.ofNat 4 a) (.ofNat 5 b)))
    | _ => .error .reservedFunction
  | _, _ => .error .truncated

/-- A system function of no operands. -/
def sys0 (i : Instr) (d x : Nat) : Decoded := need (d == 0 && x == 0) .unusedField (.ok i)

/-- Functions of major 0x3F (R130). -/
def decodeSys (w : Nat) : Decoded :=
  match unpack layRR w, unpack layX w with
  | [_, b, a, _, _, _], [f, x, d, _, _] =>
    match f with
    | 0x000 => field (xregOfNum x) fun r => .ok (.xr (.ofNat 5 d) r)
    | 0x001 => field (xregOfNum x) fun r => .ok (.xw (.ofNat 5 d) r)
    | 0x002 => field (xregOfNum x) fun r => .ok (.xset (.ofNat 5 d) r)
    | 0x003 => field (xregOfNum x) fun r => .ok (.xclr (.ofNat 5 d) r)
    | 0x004 => need (d == 0) .unusedField (.ok (.trap (.ofNat 10 x)))
    | 0x005 => sys0 .xret d x
    | 0x006 => sys0 .halt d x
    | 0x007 => sys0 .ebreak d x
    | 0x008 => need (x == 0) .unusedField (.ok (.herdid (.ofNat 5 d)))
    | 0x009 => sys0 .join d x
    | 0x00A => sys0 .detach d x
    | 0x00B => need (decide (a < 4) && b == 0) .unusedField (.ok (.qstat (.ofNat 5 d) (engineOfCode a)))
    | 0x00C => sys0 .iflush d x
    | 0x00D => need (d == 0 && b == 0) .unusedField (.ok (.tlbinv (.ofNat 5 a)))
    | 0x00E => need (d == 0 && b == 0) .unusedField (.ok (.tlbinvall (.ofNat 5 a)))
    | 0x00F => sys0 .wait d x
    | 0x010 => sys0 .triggerN d x
    | 0x011 => sys0 .triggerG d x
    | _ => .error .reservedFunction
  | _, _ => .error .truncated

/-- A scalar word by its major opcode (R126). -/
def decodeScalar (w : Nat) : Decoded :=
  match w / 2 ^ 24 % 64, unpack layRR w, unpack layRI w, unpack layLS w, unpack layAT w with
  | m, [f, b, a, d, _, _], [i, a', d', _, _], [o, lb, s, _, _], [ao, af, ab, as, _, _] =>
    if m == 0x00 then decodeRR0 f d a b
    else if m == 0x01 then decodeRR1 f d a b
    else if m == 0x02 then decodeRR2 f d a b
    else if m == 0x03 then decodeRR3 f d a b
    else if m == 0x04 then decodeRR4 f d a b
    else if m == 0x11 then .ok (.lui (.ofNat 5 d) (.ofNat 19 w))
    else if m == 0x12 then .ok (.auipc (.ofNat 5 d) (.ofNat 19 w))
    else if 0x08 ≤ m ∧ m ≤ 0x14 then decodeRI m d' a' i
    else if 0x18 ≤ m ∧ m ≤ 0x1D then decodeRB m d' a' i
    else if m == 0x1E then .ok (.j (.ofNat 24 w))
    else if m == 0x1F then .ok (.call (.ofNat 24 w))
    else if 0x20 ≤ m ∧ m ≤ 0x2F then decodeLS m s lb o
    else if m == 0x30 then decodeATW af as ab ao
    else if m == 0x31 then decodeATD af as ab ao
    else if m == 0x32 then decodeSync w
    else if m == 0x3F then decodeSys w
    else .error .reservedMajor
  | _, _, _, _, _ => .error .truncated

/-! ## Vector words -/

/-- The descriptor of 21 bits (R114). -/
def descOf (x : Nat) : Option Desc :=
  match unpack layD x with
  | [lo, sel, b, 0] => if lo < 32 && sel == 0 && b == 0 then some (.reg (.ofNat 5 lo)) else none
  | [lo, sel, b, 1] => some (.mem ⟨.ofNat 4 b, .ofNat 2 sel, .ofNat 13 lo⟩)
  | [lo, sel, b, 2] => if lo < 32 && sel == 0 && b == 0 then some (.scal (.ofNat 5 lo)) else none
  | [lo, sel, b, 3] => if b < 2 then some (.imm (.ofNat 16 (lo + 2 ^ 13 * sel + 2 ^ 15 * b))) else none
  | _ => none

/-- The bits of a descriptor (R114). -/
def descBits : Desc → Nat
  | .reg n => pack [(13, n.toNat), (2, 0), (4, 0), (2, 0)]
  | .mem m => pack [(13, m.off.toNat), (2, m.sel.toNat), (4, m.b.toNat), (2, 1)]
  | .scal r => pack [(13, r.toNat), (2, 0), (4, 0), (2, 2)]
  | .imm i => pack [(13, i.toNat), (2, i.toNat / 2 ^ 13), (4, i.toNat / 2 ^ 15), (2, 3)]

/-- A register descriptor naming v0 to v31. -/
def vregOf (x : Nat) : Option (BitVec 5) :=
  match descOf x with
  | some (.reg n) => some n
  | _ => none

/-- A register descriptor naming p0 to p7 (R114). -/
def pregOf (x : Nat) : Option (BitVec 3) :=
  match descOf x with
  | some (.reg n) => if n.toNat < 8 then some (.ofNat 3 n.toNat) else none
  | _ => none

/-- An immediate descriptor below the limit. -/
def immOf (limit : Nat) (x : Nat) : Option Nat :=
  match descOf x with
  | some (.imm i) => if i.toNat < limit then some i.toNat else none
  | _ => none

def memOf (x : Nat) : Option MemRef :=
  match descOf x with
  | some (.mem m) => some m
  | _ => none

/-- Words with D, A and B and no ext. -/
def v3 (f : VHdr → Desc → Desc → Desc → Instr) (h : VHdr) (e d a b : Nat) : Decoded :=
  need (e == 0) .unusedField <| field (descOf d) fun d => field (descOf a) fun a => field (descOf b) fun b => .ok (f h d a b)

/-- Words with D and A and no ext. -/
def v2 (f : VHdr → Desc → Desc → Instr) (h : VHdr) (e d a b : Nat) : Decoded :=
  need (e == 0 && b == 0) .unusedField <| field (descOf d) fun d => field (descOf a) fun a => .ok (f h d a)

def p3 (f : VHdr → BitVec 3 → BitVec 3 → BitVec 3 → Instr) (h : VHdr) (e d a b : Nat) : Decoded :=
  need (e == 0) .unusedField <| field (pregOf d) fun d => field (pregOf a) fun a => field (pregOf b) fun b => .ok (f h d a b)

def p2 (f : VHdr → BitVec 3 → BitVec 3 → Instr) (h : VHdr) (e d a b : Nat) : Decoded :=
  need (e == 0 && b == 0) .unusedField <| field (pregOf d) fun d => field (pregOf a) fun a => .ok (f h d a)

def vp (f : VHdr → BitVec 5 → BitVec 3 → Instr) (h : VHdr) (e d a b : Nat) : Decoded :=
  need (e == 0 && b == 0) .unusedField <| field (vregOf d) fun d => field (pregOf a) fun a => .ok (f h d a)

/-- Words that name a source type in ext (R112). -/
def vs2 (f : VHdr → ElemType → Desc → Desc → Instr) (h : VHdr) (e d a b : Nat) : Decoded :=
  need (b == 0) .unusedField <| field (elemOfCode e) fun s => field (descOf d) fun d => field (descOf a) fun a => .ok (f h s d a)

def vs3 (f : VHdr → ElemType → Desc → Desc → Desc → Instr) (h : VHdr) (e d a b : Nat) : Decoded :=
  field (elemOfCode e) fun s => field (descOf d) fun d => field (descOf a) fun a => field (descOf b) fun b => .ok (f h s d a b)

/-- vpack and vunpack hold their part in an immediate B (R203). -/
def vsp (f : VHdr → ElemType → Desc → Desc → BitVec 3 → Instr) (h : VHdr) (e d a b : Nat) : Decoded :=
  field (elemOfCode e) fun s => field (descOf d) fun d => field (descOf a) fun a => field (immOf 8 b) fun j =>
    .ok (f h s d a (.ofNat 3 j))

/-- A vector word by its opcode (R132). -/
def decodeVec (op : Nat) (h : VHdr) (e d a b : Nat) : Decoded :=
  match op with
  | 0x00 => v3 .vadd h e d a b
  | 0x01 => v3 .vsub h e d a b
  | 0x02 => v3 .vmul h e d a b
  | 0x03 => v3 .vmulh h e d a b
  | 0x04 => v3 .vmin h e d a b
  | 0x05 => v3 .vmax h e d a b
  | 0x06 => v2 .vabs h e d a b
  | 0x07 => v2 .vneg h e d a b
  | 0x08 => v3 .vmac h e d a b
  | 0x09 => v3 .vdot4 h e d a b
  | 0x10 => v3 .vfma h e d a b
  | 0x11 => v3 .vfms h e d a b
  | 0x12 => v3 .vfnma h e d a b
  | 0x13 => v3 .vdiv h e d a b
  | 0x14 => v2 .vsqrt h e d a b
  | 0x15 => v2 .vrsqrt h e d a b
  | 0x16 => v2 .vrcp h e d a b
  | 0x17 => v2 .vexp2 h e d a b
  | 0x18 => v2 .vlog2 h e d a b
  | 0x19 => v2 .vtanh h e d a b
  | 0x1A => v2 .vsigm h e d a b
  | 0x1B => v3 .vscale h e d a b
  | 0x20 => v3 .vand h e d a b
  | 0x21 => v3 .vor h e d a b
  | 0x22 => v3 .vxor h e d a b
  | 0x23 => v3 .vandn h e d a b
  | 0x24 => v3 .vsll h e d a b
  | 0x25 => v3 .vsrl h e d a b
  | 0x26 => v3 .vsra h e d a b
  | 0x27 => v2 .vclz h e d a b
  | 0x28 => v2 .vpopc h e d a b
  | 0x29 => v2 .vmov h e d a b
  | 0x2A => v3 .vsel h e d a b
  | 0x30 => field (cmpOfCode e) fun c => field (descOf d) fun d => field (descOf a) fun a => field (descOf b) fun b => .ok (.vcmp h c d a b)
  | 0x31 => p3 .pand h e d a b
  | 0x32 => p3 .por h e d a b
  | 0x33 => p3 .pxor h e d a b
  | 0x34 => p2 .pnot h e d a b
  | 0x35 => need (e == 0 && b == 0) .unusedField <| field (pregOf d) fun d => field (descOf a) fun a => .ok (.pset h d a)
  | 0x36 => vp .pget h e d a b
  | 0x37 => vp .pcnt h e d a b
  | 0x38 => p2 .pfirst h e d a b
  | 0x40 => vs2 .vcvt h e d a b
  | 0x41 => vs3 .vcvtsc h e d a b
  | 0x42 => vsp .vpack h e d a b
  | 0x43 => vsp .vunpack h e d a b
  | 0x44 => v2 .vround h e d a b
  | 0x45 => v3 .vql4 h e d a b
  | 0x50 => v2 .vrsum h e d a b
  | 0x51 => v2 .vrmax h e d a b
  | 0x52 => v2 .vrmin h e d a b
  | 0x53 => v3 .vrdot h e d a b
  | 0x54 => v2 .vscan h e d a b
  | 0x55 => v2 .vargmax h e d a b
  | 0x60 => v3 .vperm h e d a b
  | 0x61 => v3 .vrot h e d a b
  | 0x62 => v3 .vshfl h e d a b
  | 0x63 => v3 .vbcast h e d a b
  | 0x64 => v3 .vzip h e d a b
  | 0x65 => v3 .vunzip h e d a b
  | 0x66 => v3 .vtrn h e d a b
  | 0x67 => v2 .vcompress h e d a b
  | 0x68 => v2 .vexpand h e d a b
  | 0x70 => v2 .vld h e d a b
  | 0x71 => v2 .vst h e d a b
  | 0x72 => v3 .vgath h e d a b
  | 0x73 => v3 .vscat h e d a b
  | 0x74 => need (e == 0 && b == 0) .unusedField <| field (vregOf d) fun d => field (immOf 4 a) fun n => .ok (.vdq h d (.ofNat 2 n))
  | 0x75 => need (e == 0) .unusedField <| field (memOf d) fun d => field (vregOf a) fun a => field (immOf 4 b) fun n =>
      .ok (.vaq h d a (.ofNat 2 n))
  | 0x80 => need (d == 0) .unusedField <| field (immOf 8 a) fun a => field (immOf 4096 b) fun b =>
      .ok (.vloop h (.ofNat 4 e) (.ofNat 3 a) (.ofNat 12 b))
  | 0x81 => need (e == 0 && d == 0) .unusedField <| field (descOf a) fun a => field (immOf 4 b) fun n => .ok (.vcpush h a (.ofNat 2 n))
  | 0x82 => need (e == 0 && b == 0) .unusedField <| field (vregOf d) fun d => field (immOf 4 a) fun n => .ok (.vcpop h d (.ofNat 2 n))
  | 0x83 => need (e == 0 && d == 0 && b == 0) .unusedField <| field (immOf 4 a) fun n => .ok (.vcflush h (.ofNat 2 n))
  | _ => .error .reservedOpcode

/-- A vector word: header granule and operand field O (R112, R113). -/
def decodeVector (w o : Nat) : Decoded :=
  match unpack layV w, unpack layO o with
  | [e, lb, sat, rnd, ty, gap, lat, pred, op, _], [d, a, b, r] =>
    need (r == 0) .reservedValue <| field (elemOfCode ty) fun t =>
      decodeVec op ⟨.ofNat 3 pred, .ofNat 4 lat, .ofNat 3 gap, t, rndOfCode rnd, sat == 1, lb == 1⟩ e d a b
  | _, _ => .error .truncated

/-! ## Engine words -/

/-- A bound of six bits: absent, a count or a loop register (R121). -/
def boundOf (b : Nat) : Option (Option Bound) :=
  if b == 0 then some none
  else if b < 32 then some (some (.count (.ofNat 5 b)))
  else if b < 40 then some (some (.loop (.ofNat 3 (b - 32))))
  else none

def boundBits : Bound → Nat
  | .count n => n.toNat
  | .loop l => 32 + l.toNat

/-- Present dimensions come first; absent ones have no selectors (R121). -/
def dimsOf : List (Nat × Nat × Nat) → Option (List Dim)
  | [] => some []
  | (b, s, t) :: r =>
    match boundOf b with
    | none => none
    | some none => if (b, s, t) == (0, 0, 0) && r.all (fun x => x == (0, 0, 0)) then some [] else none
    | some (some bd) => (dimsOf r).map (fun l => ⟨bd, .ofNat 2 s, .ofNat 2 t⟩ :: l)

/-- The bound, ssel and dsel of dimension i, zeros when it is absent. -/
def dimBits (ds : List Dim) (i : Nat) : Nat × Nat × Nat :=
  match ds[i]? with
  | some d => (boundBits d.bound, d.ssel.toNat, d.dsel.toNat)
  | none => (0, 0, 0)

/-- A pump payload (R121). -/
def pumpOf (p : Nat) : Option Pump :=
  match unpack layP p with
  | [sb, db, so, dof, tok, hr, ring, r1, b0, b1, b2, b3, b4, b5, s0, d0, s1, d1, s2, d2, s3, d3, s4, d4, s5, d5, r2] =>
    if r1 == 0 && r2 == 0 then
      (dimsOf [(b0, s0, d0), (b1, s1, d1), (b2, s2, d2), (b3, s3, d3), (b4, s4, d4), (b5, s5, d5)]).map fun ds =>
        ⟨.ofNat 4 sb, .ofNat 4 db, .ofNat 18 so, .ofNat 18 dof, .ofNat 5 tok, .ofNat 5 hr, ring == 1, ds⟩
    else none
  | _ => none

def pumpBits (p : Pump) : Nat :=
  let x := dimBits p.dims
  pack [(4, p.sb.toNat), (4, p.db.toNat), (18, p.soff.toNat), (18, p.doff.toNat), (5, p.tok.toNat), (5, p.hreg.toNat),
    (1, p.ring.toNat), (9, 0), (6, (x 0).1), (6, (x 1).1), (6, (x 2).1), (6, (x 3).1), (6, (x 4).1), (6, (x 5).1),
    (2, (x 0).2.1), (2, (x 0).2.2), (2, (x 1).2.1), (2, (x 1).2.2), (2, (x 2).2.1), (2, (x 2).2.2),
    (2, (x 3).2.1), (2, (x 3).2.2), (2, (x 4).2.1), (2, (x 4).2.2), (2, (x 5).2.1), (2, (x 5).2.2), (4, 0)]

/-- A pump word by its opcode (R133). -/
def decodePump (op : Nat) (h : EHdr) (p : Nat) : Decoded :=
  field (pumpOf p) fun x =>
  match op with
  | 0 => .ok (.pcopy h x)
  | 1 => .ok (.pgath h x)
  | 2 => .ok (.pscat h x)
  | 3 => .ok (.pfill h x)
  | 4 => .ok (.pring h x)
  | 5 => need (x.soff == 0 && x.doff == 0 && !x.ring && x.dims.isEmpty) .unusedField
      (.ok (.ppage h x.sb x.db x.tok x.hreg))
  | _ => .error .reservedOpcode

/-- A matrix word by its opcode (R133); a field that it does not use is zero. -/
def decodeMatrix (op : Nat) (h : EHdr) (p : Nat) : Decoded :=
  match unpack layM p with
  | [qa, qb, acc, init, sl, ob, ofmt, oo, r, crc] =>
    let A : BitVec 2 := .ofNat 2 acc
    need (r == 0) .reservedValue <|
    match op with
    | 0 => need (sl == 0 && ob == 0 && ofmt == 0 && oo == 0 && crc == 0) .unusedField
        (.ok (.mmul h A (.ofNat 4 qa) (.ofNat 4 qb) (init == 1)))
    | 1 => need (ob == 0 && ofmt == 0 && oo == 0 && crc == 0) .unusedField
        (.ok (.msl h A (.ofNat 4 qa) (.ofNat 4 qb) (init == 1) (.ofNat 3 sl)))
    | 2 => need (sl == 0 && ob == 0 && ofmt == 0 && oo == 0) .unusedField
        (.ok (.mkat h A (.ofNat 4 qa) (.ofNat 4 qb) (init == 1) (.ofNat 64 crc)))
    | 3 => need (qa == 0 && qb == 0 && init == 0 && sl == 0 && crc == 0) .unusedField
        (field (outKindOfCode (ofmt % 8)) fun k => .ok (.mst h A (.ofNat 4 ob) k (decide (8 ≤ ofmt)) (.ofNat 24 oo)))
    | 4 => need (qa == 0 && qb == 0 && init == 0 && sl == 0 && ofmt == 0 && crc == 0) .unusedField
        (.ok (.mld h A (.ofNat 4 ob) (.ofNat 24 oo)))
    | 5 => need (qa == 0 && qb == 0 && init == 0 && sl == 0 && ob == 0 && ofmt == 0 && oo == 0 && crc == 0) .unusedField
        (.ok (.mzero h A))
    | 6 => need (p == 0) .unusedField (.ok (.mrel h))
    | _ => .error .reservedOpcode
  | _ => .error .truncated

/-- A well word by its opcode (R342). -/
def decodeWell (op : Nat) (h : EHdr) (p : Nat) : Decoded :=
  match unpack layW p with
  | [rr, nr, rc, nc, la, r, q, oa, ob] =>
    let rows : WellRows := ⟨.ofNat 5 rr, .ofNat 5 nr⟩
    let rect : WellRect := ⟨rows, .ofNat 7 rc, .ofNat 7 nc⟩
    need (r == 0) .reservedValue <|
    match op with
    | 0 => match unpack [27, 5, 32] ob with
      | [off, sn, z] => need (q == 0 && oa == 0 && z == 0) .unusedField
          (.ok (.wload h rect (la == 1) (.ofNat 27 off) (.ofNat 5 sn)))
      | _ => .error .truncated
    | 1 => need (q == 0 && oa == 0 && ob == 0) .unusedField (.ok (.wswap h rect (la == 1)))
    | 2 => match unpack [6, 6, 20] oa, unpack [4, 1, 1, 1, 57] ob with
      | [slot, cnt, z], [qp, pv, reuse, bc, z'] =>
        need (la == 0 && z == 0 && z' == 0 && (pv == 1 || qp == 0) && (reuse == 0 || (q == 0 && bc == 0))) .unusedField
          (.ok (.wfeed h rect (if reuse == 1 then .buf else .stream (.ofNat 4 q) (bc == 1)) (.ofNat 6 slot) (.ofNat 6 cnt)
            (if pv == 1 then some (.ofNat 4 qp) else none)))
      | _, _ => .error .truncated
    | 3 => match unpack [6, 6, 3, 1, 16] oa with
      | [slot, cnt, k, sat, z] =>
        need (la == 0 && rc == 0 && nc == 0 && z == 0 && ob == 0) .unusedField (field (drainKindOfCode k) fun k =>
          .ok (.wdrain h rows (.ofNat 4 q) (.ofNat 6 slot) (.ofNat 6 cnt) k (sat == 1)))
      | _ => .error .truncated
    | 4 => match unpack [3, 1, 28] oa with
      | [f, tr, z] => need (la == 0 && rc == 0 && nc == 0 && q == 0 && z == 0 && ob == 0) .unusedField
          (field (wellFmtOfCode f) fun f => .ok (.wmode h rows f (tr == 1)))
      | _ => .error .truncated
    | 5 => match unpack [1, 1, 1, 3, 26] oa, unpack [5, 59] ob with
      | [dq, ml, rd, f, z], [sp, z'] =>
        need (la == 0 && rc == 0 && nc == 0 && q == 0 && z == 0 && z' == 0) .unusedField (field (actFnOfCode f) fun f =>
          .ok (.wpipe h rows f (.ofNat 5 sp) (dq == 1) (ml == 1) (rd == 1)))
      | _, _ => .error .truncated
    | 6 => match unpack [6, 26] oa, unpack [5, 59] ob with
      | [slot, z], [sb, z'] => need (la == 0 && q == 0 && z == 0 && z' == 0) .unusedField
          (.ok (.wchk h rect (.ofNat 6 slot) (.ofNat 5 sb)))
      | _, _ => .error .truncated
    | _ => .error .reservedOpcode
  | _ => .error .truncated

/-- A collective word by its opcode (R379). -/
def decodeColl (op : Nat) (h : EHdr) (p : Nat) : Decoded :=
  match unpack layC p with
  | [sb, db, ty, o, s, g, r, cnt, r'] =>
    let S : BitVec 4 := .ofNat 4 sb
    let D : BitVec 4 := .ofNat 4 db
    let G : BitVec 8 := .ofNat 8 g
    need (r == 0 && r' == 0) .reservedValue <| field (scopeOfCode s) fun s => field (elemOfCode ty) fun t =>
      field (collOpOfCode o) fun c =>
      match op with
      | 0 => .ok (.cred h D S t (.ofNat 32 cnt) c s G)
      | 1 => need (c == .sum) .unusedField (.ok (.cbcast h D S t (.ofNat 32 cnt) s G))
      | 2 => need (c == .sum) .unusedField (.ok (.cgath h D S t (.ofNat 32 cnt) s G))
      | 3 => need (c == .sum) .unusedField (.ok (.cscat h D S t (.ofNat 32 cnt) s G))
      | 4 => need (sb == 0 && db == 0 && ty == 0 && o == 0 && cnt == 0) .unusedField (.ok (.csync h s G))
      | _ => .error .reservedOpcode
  | _ => .error .truncated

/-- The guard field (R119). -/
def guardOf (g : Nat) : Option (Option (BitVec 4)) :=
  if g == 0 then some none else if g < 16 then none else some (some (.ofNat 4 (g - 16)))

/-- The barrier fields (R120). -/
def barOf (v b o : Nat) : Option (Option BarRef) :=
  if v == 1 then some (some ⟨.ofNat 4 b, .ofNat 15 o⟩) else if b == 0 && o == 0 then some none else none

/-- An engine word: granule 0, granule 1 and the payload (R119). -/
def decodeEngine (w w1 p : Nat) : Decoded :=
  match unpack layE0 w, unpack layE1 w1 with
  | [r, wc, ws, col, g, op, eng, _], [bo, bb, bv, sc, ss] =>
    need (r == 0) .reservedValue <| field (guardOf g) fun g => field (barOf bv bb bo) fun bar =>
      let h : EHdr := ⟨g, .ofNat 3 col, .ofNat 8 ws, .ofNat 4 wc, .ofNat 8 ss, .ofNat 4 sc, bar⟩
      match eng with
      | 0 => decodePump op h p
      | 1 => decodeMatrix op h p
      | 2 => decodeWell op h p
      | _ => decodeColl op h p
  | _, _ => .error .truncated

/-! ## Words of any class -/

/-- The granules of a word by the class of its first granule (R106); class 0b11 is no instruction. -/
def granules (g : Granule) : Option Nat :=
  match g.toNat / 2 ^ 30 with
  | 0 => some 1
  | 1 => some 3
  | 2 => some 6
  | _ => none

/-- The value of granules laid from the lowest address upward (R1). -/
def join32 : List Granule → Nat
  | [] => 0
  | g :: r => g.toNat + 2 ^ 32 * join32 r

/-- The fields of a word before the checks of R109 that span fields. -/
def decodeRaw (g : Granule) (r : List Granule) : Decoded :=
  match granules g, r with
  | some 1, _ => decodeScalar g.toNat
  | some 3, g1 :: g2 :: _ => decodeVector g.toNat (join32 [g1, g2])
  | some 6, g1 :: g2 :: g3 :: g4 :: g5 :: _ => decodeEngine g.toNat g1.toNat (join32 [g2, g3, g4, g5])
  | none, _ => .error .notAClass
  | _, _ => .error .truncated

/-- The instruction of the word that starts the granules (R107, R109). -/
def decodeGranules : List Granule → Decoded
  | [] => .error .truncated
  | g :: r =>
    match decodeRaw g r with
    | .ok i => if i.wf then .ok i else .error .illegal
    | .error e => .error e

/-- The granule of four bytes, little-endian (R1). -/
def granuleOf (a b c d : Byte) : Granule :=
  .ofNat 32 (a.toNat + 2 ^ 8 * b.toNat + 2 ^ 16 * c.toNat + 2 ^ 24 * d.toNat)

/-- The whole granules of bytes in address order. -/
def granulesOf : List Byte → List Granule
  | a :: b :: c :: d :: r => granuleOf a b c d :: granulesOf r
  | _ => []

/-- The bytes of granules in address order (R1). -/
def bytesOf : List Granule → List Byte
  | [] => []
  | g :: r => g.setWidth 8 :: (g >>> 8).setWidth 8 :: (g >>> 16).setWidth 8 :: (g >>> 24).setWidth 8 :: bytesOf r

/-- The instruction that bytes in address order start with. -/
def decodeBytes (bs : List Byte) : Decoded := decodeGranules (granulesOf bs)

/-- The granules of a number whose bit 0 is bit 0 of the first word. -/
def splitGranules : Nat → Nat → List Granule
  | 0, _ => []
  | n + 1, w => .ofNat 32 w :: splitGranules n (w / 2 ^ 32)

/-- What the decoder reads from an instruction whose bits are w, with every bit above nbits zero. -/
def decodeTableWord (nbits w : Nat) : Option Instr :=
  match decodeBytes (bytesOf (splitGranules 6 (w % 2 ^ nbits))) with
  | .ok i => some i
  | .error _ => none

/-! ## The encoder -/

def encRR (m f d a b : Nat) : List Granule := [.ofNat 32 (pack [(9, f), (5, b), (5, a), (5, d), (6, m), (2, 0)])]
def encRI (m d a i : Nat) : List Granule := [.ofNat 32 (pack [(14, i), (5, a), (5, d), (6, m), (2, 0)])]
def encRW (m d i : Nat) : List Granule := [.ofNat 32 (pack [(19, i), (5, d), (6, m), (2, 0)])]
def encJ (m i : Nat) : List Granule := [.ofNat 32 (pack [(24, i), (6, m), (2, 0)])]
def encLS (m s b o : Nat) : List Granule := [.ofNat 32 (pack [(15, o), (4, b), (5, s), (6, m), (2, 0)])]
def encAT (m f s b o : Nat) : List Granule := [.ofNat 32 (pack [(10, o), (5, f), (4, b), (5, s), (6, m), (2, 0)])]
def encK (f c s k : Nat) : List Granule := [.ofNat 32 (pack [(9, f), (4, c), (3, s), (8, k), (6, 0x32), (2, 0)])]
def encX (f x d : Nat) : List Granule := [.ofNat 32 (pack [(9, f), (10, x), (5, d), (6, 0x3F), (2, 0)])]

/-- A vector word: opcode, header, ext and the three descriptors (R112, R113). -/
def encV (op : Nat) (h : VHdr) (e d a b : Nat) : List Granule :=
  .ofNat 32 (pack [(4, e), (1, h.lb.toNat), (1, h.sat.toNat), (2, rndCode h.rnd), (4, elemCode h.ty), (3, h.gap.toNat),
    (4, h.lat.toNat), (3, h.pred.toNat), (8, op), (2, 1)]) :: splitGranules 2 (pack [(21, d), (21, a), (21, b), (1, 0)])

def encVs3 (op : Nat) (h : VHdr) (e : Nat) (d a b : Desc) : List Granule :=
  encV op h e (descBits d) (descBits a) (descBits b)

def encVs2 (op : Nat) (h : VHdr) (e : Nat) (d a : Desc) : List Granule := encV op h e (descBits d) (descBits a) 0

/-- The bits of a predicate named in a descriptor (R114). -/
def pBits (p : BitVec 3) : Nat := descBits (.reg (p.setWidth 5))

/-- The bits of an immediate descriptor (R114). -/
def iBits (n : Nat) : Nat := descBits (.imm (.ofNat 16 n))

/-- An engine word: engine, opcode, header and payload (R119). -/
def encE (eng op : Nat) (h : EHdr) (p : Nat) : List Granule :=
  let g := match h.guard with
    | none => 0
    | some g => 16 + g.toNat
  let (v, b, o) := match h.bar with
    | none => (0, 0, 0)
    | some x => (1, x.b.toNat, x.off.toNat)
  .ofNat 32 (pack [(2, 0), (4, h.wcnt.toNat), (8, h.wsem.toNat), (3, h.colour.toNat), (5, g), (6, op), (2, eng), (2, 2)]) ::
    .ofNat 32 (pack [(15, o), (4, b), (1, v), (4, h.scnt.toNat), (8, h.ssem.toNat)]) :: splitGranules 4 p

/-- A matrix payload (R122). -/
def encM (qa qb acc init sl ob ofmt oo crc : Nat) : Nat :=
  pack [(4, qa), (4, qb), (2, acc), (1, init), (3, sl), (4, ob), (4, ofmt), (24, oo), (18, 0), (64, crc)]

/-- A well payload (R123). -/
def encW (r : WellRect) (latch q opa opb : Nat) : Nat :=
  pack [(5, r.rows.rrow.toNat), (5, r.rows.nrm1.toNat), (7, r.rcol.toNat), (7, r.ncm1.toNat), (1, latch), (3, 0), (4, q),
    (32, opa), (64, opb)]

/-- Rows alone: rcol and ncm1 are zero (R342). -/
def rowsRect (r : WellRows) : WellRect := ⟨r, 0, 0⟩

/-- A collective payload (R124). -/
def encC (sb db ty op s g cnt : Nat) : Nat :=
  pack [(4, sb), (4, db), (4, ty), (4, op), (3, s), (8, g), (37, 0), (32, cnt), (32, 0)]

/-- The granules of an instruction; a step of the part has none. -/
def encode : Instr → List Granule
  | .add d a b => encRR 0 0 d.toNat a.toNat b.toNat
  | .sub d a b => encRR 0 1 d.toNat a.toNat b.toNat
  | .and d a b => encRR 0 2 d.toNat a.toNat b.toNat
  | .or d a b => encRR 0 3 d.toNat a.toNat b.toNat
  | .xor d a b => encRR 0 4 d.toNat a.toNat b.toNat
  | .andn d a b => encRR 0 5 d.toNat a.toNat b.toNat
  | .sll d a b => encRR 0 6 d.toNat a.toNat b.toNat
  | .srl d a b => encRR 0 7 d.toNat a.toNat b.toNat
  | .sra d a b => encRR 0 8 d.toNat a.toNat b.toNat
  | .rol d a b => encRR 0 9 d.toNat a.toNat b.toNat
  | .ror d a b => encRR 0 10 d.toNat a.toNat b.toNat
  | .slt d a b => encRR 0 11 d.toNat a.toNat b.toNat
  | .sltu d a b => encRR 0 12 d.toNat a.toNat b.toNat
  | .seq d a b => encRR 0 13 d.toNat a.toNat b.toNat
  | .sne d a b => encRR 0 14 d.toNat a.toNat b.toNat
  | .min d a b => encRR 0 15 d.toNat a.toNat b.toNat
  | .max d a b => encRR 0 16 d.toNat a.toNat b.toNat
  | .minu d a b => encRR 0 17 d.toNat a.toNat b.toNat
  | .maxu d a b => encRR 0 18 d.toNat a.toNat b.toNat
  | .clz d a => encRR 0 19 d.toNat a.toNat 0
  | .ctz d a => encRR 0 20 d.toNat a.toNat 0
  | .popc d a => encRR 0 21 d.toNat a.toNat 0
  | .sextB d a => encRR 0 22 d.toNat a.toNat 0
  | .sextH d a => encRR 0 23 d.toNat a.toNat 0
  | .sextW d a => encRR 0 24 d.toNat a.toNat 0
  | .zextB d a => encRR 0 25 d.toNat a.toNat 0
  | .zextH d a => encRR 0 26 d.toNat a.toNat 0
  | .zextW d a => encRR 0 27 d.toNat a.toNat 0
  | .mul d a b => encRR 1 0 d.toNat a.toNat b.toNat
  | .mulh d a b => encRR 1 1 d.toNat a.toNat b.toNat
  | .mulhu d a b => encRR 1 2 d.toNat a.toNat b.toNat
  | .mulhsu d a b => encRR 1 3 d.toNat a.toNat b.toNat
  | .div d a b => encRR 1 4 d.toNat a.toNat b.toNat
  | .divu d a b => encRR 1 5 d.toNat a.toNat b.toNat
  | .rem d a b => encRR 1 6 d.toNat a.toNat b.toNat
  | .remu d a b => encRR 1 7 d.toNat a.toNat b.toNat
  | .cvtF64S64 d a r => encRR 2 0 d.toNat a.toNat (rndCode r)
  | .cvtF32S64 d a r => encRR 2 1 d.toNat a.toNat (rndCode r)
  | .cvtS64F64 d a r => encRR 2 2 d.toNat a.toNat (rndCode r)
  | .cvtS64F32 d a r => encRR 2 3 d.toNat a.toNat (rndCode r)
  | .cvtF64F32 d a => encRR 2 4 d.toNat a.toNat 0
  | .cvtF32F64 d a r => encRR 2 5 d.toNat a.toNat (rndCode r)
  | .cvtF32F16 d a => encRR 2 6 d.toNat a.toNat 0
  | .cvtF16F32 d a r => encRR 2 7 d.toNat a.toNat (rndCode r)
  | .cvtF32Bf16 d a => encRR 2 8 d.toNat a.toNat 0
  | .cvtBf16F32 d a r => encRR 2 9 d.toNat a.toNat (rndCode r)
  | .ptag d a b => encRR 3 0 d.toNat a.toNat b.toNat
  | .pspace d a => encRR 3 1 d.toNat a.toNat 0
  | .prank d a => encRR 3 2 d.toNat a.toNat 0
  | .padd d a b => encRR 3 3 d.toNat a.toNat b.toNat
  | .psub d a b => encRR 3 4 d.toNat a.toNat b.toNat
  | .paddr d a => encRR 3 5 d.toNat a.toNat 0
  | .jr a => encRR 4 0 0 a.toNat 0
  | .callr d a => encRR 4 1 d.toNat a.toNat 0
  | .addi d a i => encRI 8 d.toNat a.toNat i.toNat
  | .andi d a i => encRI 9 d.toNat a.toNat i.toNat
  | .ori d a i => encRI 10 d.toNat a.toNat i.toNat
  | .xori d a i => encRI 11 d.toNat a.toNat i.toNat
  | .slli d a i => encRI 12 d.toNat a.toNat i.toNat
  | .srli d a i => encRI 13 d.toNat a.toNat i.toNat
  | .srai d a i => encRI 14 d.toNat a.toNat i.toNat
  | .slti d a i => encRI 15 d.toNat a.toNat i.toNat
  | .sltiu d a i => encRI 16 d.toNat a.toNat i.toNat
  | .lui d i => encRW 0x11 d.toNat i.toNat
  | .auipc d i => encRW 0x12 d.toNat i.toNat
  | .lset d a i => encRI 19 d.toNat a.toNat i.toNat
  | .gsetOpen n => encRI 0x14 n.toNat 0 0
  | .gsetNe n a => encRI 0x14 n.toNat a.toNat 1
  | .gsetEq n a => encRI 0x14 n.toNat a.toNat 2
  | .beq a b i => encRI 0x18 a.toNat b.toNat i.toNat
  | .bne a b i => encRI 0x19 a.toNat b.toNat i.toNat
  | .blt a b i => encRI 0x1A a.toNat b.toNat i.toNat
  | .bge a b i => encRI 0x1B a.toNat b.toNat i.toNat
  | .bltu a b i => encRI 0x1C a.toNat b.toNat i.toNat
  | .bgeu a b i => encRI 0x1D a.toNat b.toNat i.toNat
  | .j i => encJ 0x1E i.toNat
  | .call i => encJ 0x1F i.toNat
  | .ldB s b o => encLS 0x20 s.toNat b.toNat o.toNat
  | .ldBu s b o => encLS 0x21 s.toNat b.toNat o.toNat
  | .ldH s b o => encLS 0x22 s.toNat b.toNat o.toNat
  | .ldHu s b o => encLS 0x23 s.toNat b.toNat o.toNat
  | .ldW s b o => encLS 0x24 s.toNat b.toNat o.toNat
  | .ldWu s b o => encLS 0x25 s.toNat b.toNat o.toNat
  | .ldD s b o => encLS 0x26 s.toNat b.toNat o.toNat
  | .ldNr s b o => encLS 0x27 s.toNat b.toNat o.toNat
  | .stB s b o => encLS 0x28 s.toNat b.toNat o.toNat
  | .stH s b o => encLS 0x29 s.toNat b.toNat o.toNat
  | .stW s b o => encLS 0x2A s.toNat b.toNat o.toNat
  | .stD s b o => encLS 0x2B s.toNat b.toNat o.toNat
  | .ldb s b o => encLS 0x2C s.toNat b.toNat o.toNat
  | .stb s b o => encLS 0x2D s.toNat b.toNat o.toNat
  | .ldq s b o => encLS 0x2E s.toNat b.toNat o.toNat
  | .stq s b o => encLS 0x2F s.toNat b.toNat o.toNat
  | .amoaddW s b o => encAT 0x30 0 s.toNat b.toNat o.toNat
  | .amoandW s b o => encAT 0x30 1 s.toNat b.toNat o.toNat
  | .amoorW s b o => encAT 0x30 2 s.toNat b.toNat o.toNat
  | .amoxorW s b o => encAT 0x30 3 s.toNat b.toNat o.toNat
  | .amominW s b o => encAT 0x30 4 s.toNat b.toNat o.toNat
  | .amomaxW s b o => encAT 0x30 5 s.toNat b.toNat o.toNat
  | .amominuW s b o => encAT 0x30 6 s.toNat b.toNat o.toNat
  | .amomaxuW s b o => encAT 0x30 7 s.toNat b.toNat o.toNat
  | .amoswapW s b o => encAT 0x30 8 s.toNat b.toNat o.toNat
  | .amocasW s b o => encAT 0x30 9 (2 * s.toNat) b.toNat o.toNat
  | .amofaddF32 s b o => encAT 0x30 10 s.toNat b.toNat o.toNat
  | .amoaddD s b o => encAT 0x31 0 s.toNat b.toNat o.toNat
  | .amoandD s b o => encAT 0x31 1 s.toNat b.toNat o.toNat
  | .amoorD s b o => encAT 0x31 2 s.toNat b.toNat o.toNat
  | .amoxorD s b o => encAT 0x31 3 s.toNat b.toNat o.toNat
  | .amominD s b o => encAT 0x31 4 s.toNat b.toNat o.toNat
  | .amomaxD s b o => encAT 0x31 5 s.toNat b.toNat o.toNat
  | .amominuD s b o => encAT 0x31 6 s.toNat b.toNat o.toNat
  | .amomaxuD s b o => encAT 0x31 7 s.toNat b.toNat o.toNat
  | .amoswapD s b o => encAT 0x31 8 s.toNat b.toNat o.toNat
  | .amocasD s b o => encAT 0x31 9 (2 * s.toNat) b.toNat o.toNat
  | .fenceC k s => encK 0 0 (scopeCode s) k.toNat
  | .spinw d b a => encRR 0x32 1 d.toNat b.toNat a.toNat
  | .barr d b a => encRR 0x32 2 d.toNat b.toNat a.toNat
  | .bwait d b a => encRR 0x32 3 d.toNat b.toNat a.toNat
  | .pbarr d b a => encRR 0x32 4 d.toNat b.toNat a.toNat
  | .pbwait d b a => encRR 0x32 5 d.toNat b.toNat a.toNat
  | .ksig k c => encK 6 c.toNat 0 k.toNat
  | .kwait k c => encK 7 c.toNat 0 k.toNat
  | .pcancel d a => encRR 0x32 8 d.toNat a.toNat 0
  | .pgdec b a => encRR 0x32 9 0 b.toNat a.toNat
  | .xr d x => encX 0 (xregNum x) d.toNat
  | .xw d x => encX 1 (xregNum x) d.toNat
  | .xset d x => encX 2 (xregNum x) d.toNat
  | .xclr d x => encX 3 (xregNum x) d.toNat
  | .trap c => encX 4 c.toNat 0
  | .xret => encX 0x5 0 0
  | .halt => encX 0x6 0 0
  | .ebreak => encX 0x7 0 0
  | .herdid d => encX 8 0 d.toNat
  | .join => encX 0x9 0 0
  | .detach => encX 0xA 0 0
  | .qstat d e => encRR 0x3F 0xB d.toNat (engineCode e) 0
  | .iflush => encX 0xC 0 0
  | .tlbinv a => encRR 0x3F 0xD 0 a.toNat 0
  | .tlbinvall a => encRR 0x3F 0xE 0 a.toNat 0
  | .wait => encX 0xF 0 0
  | .triggerN => encX 0x10 0 0
  | .triggerG => encX 0x11 0 0
  | .vadd h d a b => encVs3 0x00 h 0 d a b
  | .vsub h d a b => encVs3 0x01 h 0 d a b
  | .vmul h d a b => encVs3 0x02 h 0 d a b
  | .vmulh h d a b => encVs3 0x03 h 0 d a b
  | .vmin h d a b => encVs3 0x04 h 0 d a b
  | .vmax h d a b => encVs3 0x05 h 0 d a b
  | .vabs h d a => encVs2 0x06 h 0 d a
  | .vneg h d a => encVs2 0x07 h 0 d a
  | .vmac h d a b => encVs3 0x08 h 0 d a b
  | .vdot4 h d a b => encVs3 0x09 h 0 d a b
  | .vfma h d a b => encVs3 0x10 h 0 d a b
  | .vfms h d a b => encVs3 0x11 h 0 d a b
  | .vfnma h d a b => encVs3 0x12 h 0 d a b
  | .vdiv h d a b => encVs3 0x13 h 0 d a b
  | .vsqrt h d a => encVs2 0x14 h 0 d a
  | .vrsqrt h d a => encVs2 0x15 h 0 d a
  | .vrcp h d a => encVs2 0x16 h 0 d a
  | .vexp2 h d a => encVs2 0x17 h 0 d a
  | .vlog2 h d a => encVs2 0x18 h 0 d a
  | .vtanh h d a => encVs2 0x19 h 0 d a
  | .vsigm h d a => encVs2 0x1A h 0 d a
  | .vscale h d a b => encVs3 0x1B h 0 d a b
  | .vand h d a b => encVs3 0x20 h 0 d a b
  | .vor h d a b => encVs3 0x21 h 0 d a b
  | .vxor h d a b => encVs3 0x22 h 0 d a b
  | .vandn h d a b => encVs3 0x23 h 0 d a b
  | .vsll h d a b => encVs3 0x24 h 0 d a b
  | .vsrl h d a b => encVs3 0x25 h 0 d a b
  | .vsra h d a b => encVs3 0x26 h 0 d a b
  | .vclz h d a => encVs2 0x27 h 0 d a
  | .vpopc h d a => encVs2 0x28 h 0 d a
  | .vmov h d a => encVs2 0x29 h 0 d a
  | .vsel h d a b => encVs3 0x2A h 0 d a b
  | .vcmp h c d a b => encVs3 0x30 h (cmpCode c) d a b
  | .pand h d a b => encV 0x31 h 0 (pBits d) (pBits a) (pBits b)
  | .por h d a b => encV 0x32 h 0 (pBits d) (pBits a) (pBits b)
  | .pxor h d a b => encV 0x33 h 0 (pBits d) (pBits a) (pBits b)
  | .pnot h d a => encV 0x34 h 0 (pBits d) (pBits a) 0
  | .pset h d a => encV 0x35 h 0 (pBits d) (descBits a) 0
  | .pget h d a => encV 0x36 h 0 (descBits (.reg d)) (pBits a) 0
  | .pcnt h d a => encV 0x37 h 0 (descBits (.reg d)) (pBits a) 0
  | .pfirst h d a => encV 0x38 h 0 (pBits d) (pBits a) 0
  | .vcvt h s d a => encVs2 0x40 h (elemCode s) d a
  | .vcvtsc h s d a b => encVs3 0x41 h (elemCode s) d a b
  | .vpack h s d a j => encV 0x42 h (elemCode s) (descBits d) (descBits a) (iBits j.toNat)
  | .vunpack h s d a j => encV 0x43 h (elemCode s) (descBits d) (descBits a) (iBits j.toNat)
  | .vround h d a => encVs2 0x44 h 0 d a
  | .vql4 h d a b => encVs3 0x45 h 0 d a b
  | .vrsum h d a => encVs2 0x50 h 0 d a
  | .vrmax h d a => encVs2 0x51 h 0 d a
  | .vrmin h d a => encVs2 0x52 h 0 d a
  | .vrdot h d a b => encVs3 0x53 h 0 d a b
  | .vscan h d a => encVs2 0x54 h 0 d a
  | .vargmax h d a => encVs2 0x55 h 0 d a
  | .vperm h d a b => encVs3 0x60 h 0 d a b
  | .vrot h d a b => encVs3 0x61 h 0 d a b
  | .vshfl h d a b => encVs3 0x62 h 0 d a b
  | .vbcast h d a b => encVs3 0x63 h 0 d a b
  | .vzip h d a b => encVs3 0x64 h 0 d a b
  | .vunzip h d a b => encVs3 0x65 h 0 d a b
  | .vtrn h d a b => encVs3 0x66 h 0 d a b
  | .vcompress h d a => encVs2 0x67 h 0 d a
  | .vexpand h d a => encVs2 0x68 h 0 d a
  | .vld h d a => encVs2 0x70 h 0 d a
  | .vst h d a => encVs2 0x71 h 0 d a
  | .vgath h d a b => encVs3 0x72 h 0 d a b
  | .vscat h d a b => encVs3 0x73 h 0 d a b
  | .vdq h d n => encV 0x74 h 0 (descBits (.reg d)) (iBits n.toNat) 0
  | .vaq h m a n => encV 0x75 h 0 (descBits (.mem m)) (descBits (.reg a)) (iBits n.toNat)
  | .vloop h l d t => encV 0x80 h l.toNat 0 (iBits d.toNat) (iBits t.toNat)
  | .vcpush h a n => encV 0x81 h 0 0 (descBits a) (iBits n.toNat)
  | .vcpop h d n => encV 0x82 h 0 (descBits (.reg d)) (iBits n.toNat) 0
  | .vcflush h n => encV 0x83 h 0 0 (iBits n.toNat) 0
  | .pcopy h p => encE 0 0 h (pumpBits p)
  | .pgath h p => encE 0 1 h (pumpBits p)
  | .pscat h p => encE 0 2 h (pumpBits p)
  | .pfill h p => encE 0 3 h (pumpBits p)
  | .pring h p => encE 0 4 h (pumpBits p)
  | .ppage h s d t r => encE 0 5 h (pumpBits ⟨s, d, 0, 0, t, r, false, []⟩)
  | .mmul h c a b i => encE 1 0 h (encM a.toNat b.toNat c.toNat i.toNat 0 0 0 0 0)
  | .msl h c a b i l => encE 1 1 h (encM a.toNat b.toNat c.toNat i.toNat l.toNat 0 0 0 0)
  | .mkat h c a b i x => encE 1 2 h (encM a.toNat b.toNat c.toNat i.toNat 0 0 0 0 x.toNat)
  | .mst h c b k s o => encE 1 3 h (encM 0 0 c.toNat 0 0 b.toNat (outKindCode k + 8 * s.toNat) o.toNat 0)
  | .mld h c b o => encE 1 4 h (encM 0 0 c.toNat 0 0 b.toNat 0 o.toNat 0)
  | .mzero h c => encE 1 5 h (encM 0 0 c.toNat 0 0 0 0 0 0)
  | .mrel h => encE 1 6 h 0
  | .wload h r l o s => encE 2 0 h (encW r l.toNat 0 0 (pack [(27, o.toNat), (5, s.toNat), (32, 0)]))
  | .wswap h r l => encE 2 1 h (encW r l.toNat 0 0 0)
  | .wfeed h r src s c p =>
    let (q, bc, reuse) := match src with
      | .stream q b => (q.toNat, b.toNat, 0)
      | .buf => (0, 0, 1)
    let (qp, pv) := match p with
      | some q => (q.toNat, 1)
      | none => (0, 0)
    encE 2 2 h (encW r 0 q (pack [(6, s.toNat), (6, c.toNat), (20, 0)]) (pack [(4, qp), (1, pv), (1, reuse), (1, bc), (57, 0)]))
  | .wdrain h r q s c k t => encE 2 3 h (encW (rowsRect r) 0 q.toNat
    (pack [(6, s.toNat), (6, c.toNat), (3, drainKindCode k), (1, t.toNat), (16, 0)]) 0)
  | .wmode h r f t => encE 2 4 h (encW (rowsRect r) 0 0 (pack [(3, wellFmtCode f), (1, t.toNat), (28, 0)]) 0)
  | .wpipe h r f s d m b => encE 2 5 h (encW (rowsRect r) 0 0
    (pack [(1, d.toNat), (1, m.toNat), (1, b.toNat), (3, actFnCode f), (26, 0)]) (pack [(5, s.toNat), (59, 0)]))
  | .wchk h r s b => encE 2 6 h (encW r 0 0 (pack [(6, s.toNat), (26, 0)]) (pack [(5, b.toNat), (59, 0)]))
  | .cred h d s t c o x g => encE 3 0 h (encC s.toNat d.toNat (elemCode t) (collOpCode o) (scopeCode x) g.toNat c.toNat)
  | .cbcast h d s t c x g => encE 3 1 h (encC s.toNat d.toNat (elemCode t) 0 (scopeCode x) g.toNat c.toNat)
  | .cgath h d s t c x g => encE 3 2 h (encC s.toNat d.toNat (elemCode t) 0 (scopeCode x) g.toNat c.toNat)
  | .cscat h d s t c x g => encE 3 3 h (encC s.toNat d.toNat (elemCode t) 0 (scopeCode x) g.toNat c.toNat)
  | .csync h x g => encE 3 4 h (encC 0 0 0 0 (scopeCode x) g.toNat 0)
  | .qtailWrite _ _ => []
  | .mqtailWrite _ => []
  | .registerWrite _ _ _ => []
  | .bar2Access _ => []
  | .atsInvalidation _ _ _ => []
  | .pageRequestResponse _ _ _ => []
  | .launchPacket _ => []
  | .copyPacket _ => []
  | .waitPacket _ => []
  | .signalPacket _ => []
  | .modePacket _ => []
  | .fencePacket _ => []
  | .waitSatisfied _ => []
  | .fencePacketComplete _ => []
  | .poolRoomAdmit _ => []
  | .mapq => []
  | .unmapq => []
  | .qreset => []
  | .pasidBind => []
  | .pasidRetire => []
  | .preempt => []
  | .resync => []
  | .attest => []
  | .patch => []
  | .dsp => []
  | .slotGrant => []
  | .slotIdleRelease _ => []
  | .forcedUnmapping => []
  | .queueContextSaved _ => []
  | .nodeDispatch _ => []
  | .reservingClaim => []
  | .levelAging _ _ => []
  | .nodeTriggerFire _ _ => []
  | .graphTriggerFire _ => []
  | .nodeRetirement _ _ => []
  | .copyNodeRetirement _ _ => []
  | .graphRetirement _ => []
  | .nodeRotation _ _ => []
  | .branchResolution _ => []
  | .vloopBodyIssue _ _ => []
  | .scalarResultLanding _ _ _ => []
  | .vectorResultLanding _ _ => []
  | .storePerform _ _ _ => []
  | .accessQueueEntryPerform _ _ _ => []
  | .parityUpdate _ _ _ _ => []
  | .bankRebuild _ _ _ => []
  | .tlbMissWalk _ _ _ => []
  | .xdspWrite _ _ => []
  | .dspChangeComplete _ => []
  | .freePagePop _ _ => []
  | .freePagePush _ _ => []
  | .zeroFill _ _ => []
  | .reportPost _ _ => []
  | .reportPostEnd _ _ => []
  | .semaphoreGrant _ _ => []
  | .engineEntryStart _ _ _ => []
  | .engineEntryCompletion _ _ _ => []
  | .leaseGrant _ => []
  | .leaseEnd _ => []
  | .collectiveStart _ _ => []
  | .pumpCancelAck _ _ => []
  | .fillRowActivation _ _ _ => []
  | .fillComplete _ _ _ => []
  | .bankRefresh _ _ _ => []
  | .cisternArrival _ => []
  | .barrierWaiterWake _ _ => []
  | .shortBarrierWake _ _ => []
  | .spinwWake _ _ => []
  | .hostBarrierPoll _ => []
  | .trapEntry _ _ => []
  | .registerMiss _ _ _ => []
  | .noticePost _ _ _ => []
  | .contextSwap _ _ => []
  | .herdQuiescence _ => []
  | .contextSpillComplete _ => []
  | .contextRestore _ => []
  | .unitRetirement _ => []
  | .sensorSample _ => []
  | .xthermUpdate _ => []
  | .thermalEmergencyStop _ _ => []
  | .remoteAccessReceived _ _ => []
  | .peerPortDown _ => []
  | .powerOnReset => []
  | .fundamentalReset => []
  | .functionLevelReset => []
  | .bringUpComplete _ => []
  | .mainPowerLoss => []
  | .peerPortUp _ => []
  | .tlbInvalidationComplete _ _ => []

end Sys2Proof
end

