-- ==== Sys2Proof/Config.lean ====
section
/-! DEFINITION. What one implementation fixes and the manual does not, and the free values. An `opaque` constant here has
no body: nothing can be proved of its value, so a statement that holds, holds whatever the part chooses (R6). -/

namespace Sys2Proof.Config

/-- A byte of a range the manual calls undefined: by the seed of the event that made it so, and its location (log 2). -/
opaque freeByte : Nat → Nat → Byte

/-- A 64-bit free value: by the count of free values taken (log 4). -/
opaque freeWord : Nat → Word

/-- A free lane slice: an operand read before it has landed (R117, log 9). -/
opaque freeSlice : Nat → Slice

/-- The result of an elementary function where the enclosures do not decide the rounding (R198, log 10). -/
opaque freeRound : Nat → Nat → Nat

/-- What the abutting part's memory holds for a remote atomic: by a count of such accesses (R385, log 16). -/
opaque peerWord : Nat → Word

/-- The cores of the abutting part's gang at scope 4, by launch, node and port, and whether they come before this part's in the
numbering of participants (R381, log 36). -/
opaque peerCores : Nat → Nat → Bool → Nat
opaque peerFirst : Nat → Nat → Bool → Bool

/-- The silicon stepping (R50). -/
opaque stepping : Byte

/-- The bus address that the host has given BAR2 (R50, log 12). -/
opaque bar2Bus : Nat

/-- Whether the link trained at x8 (R50). -/
opaque narrow : Bool

/-- The SHA-256 digest of the ROM, 32 bytes by index (R79, log 13). -/
opaque romDigest : Nat → Byte

/-- The identity key and its certificate: byte by index (R79, log 13). -/
opaque identityKey : Nat → Byte

/-- The LMS signature of a report by a leaf: byte by index (R79, log 13). -/
opaque lmsSign : List Byte → Nat → Nat → Byte

/-- Whether a patch image carries a good signature, its sequence number, and its digest (R80, log 13). -/
opaque patchGood : List Byte → Bool
opaque patchSeq : List Byte → Nat
opaque patchDigest : List Byte → Nat → Byte

/-- The runtime's handler address (R403). -/
def handlerAddr : Word := 0x00FFFFFFFF000000

/-- Bytes of device memory installed: 1 TiB, eight dies of 128 GiB (R10). -/
def dramBytes : Nat := 2 ^ 40

/-- Bytes of a die's memory-side LLC (R17, R22). -/
def llcBytes : Nat := 2 ^ 29

/-- Bytes of one way of the LLC: 16 ways in all, of which 8 may be carved off (R17, R233). -/
def wayBytes : Nat := 2 ^ 25

/-- Bytes of one core scratchpad (R15). -/
def scratchBytes : Nat := 2 ^ 20

end Sys2Proof.Config
end

