-- ==== Sys2Proof/Machine/State.lean ====
section
/-! DEFINITION. The state of the part, all of it plain data, and the state after reset. INVENTORY.md lists every item with
the rule that names it and its reset value; notes/assumptions/3.md names the values the spec does not give. -/

namespace Sys2Proof.Machine

/-- Why the machine stops. -/
inductive Fault where
  /-- Raised by a step that names a herd, core, die or other unit the part does not have. Safe: no such step exists on the
  hardware, and nothing follows from it here. -/
  | noSuchUnit
  deriving DecidableEq, Repr, Inhabited

/-- Why an instruction has no meaning here. -/
inductive Refusal where
  /-- Answered by exec's arm of an instruction whose meaning is not written. Safe: nothing follows from it. -/
  | notModelled (mnemonic : String)
  deriving DecidableEq, Repr, Inhabited

/-! ## Memory -/

/-- A range of locations that some event left undefined (R6). -/
structure Span where
  lo   : Nat
  hi   : Nat
  seed : Nat
  deriving DecidableEq, Repr, Inhabited

/-- The bytes of every location: listed cells, else a free byte inside an undefined span, else zero (log 1, log 2). -/
structure Mem where
  cells : List Host.Cell
  undef : List Span
  deriving DecidableEq, Repr, Inhabited

/-- Memory of which nothing is known: every byte is undefined (R447, R6; log 1). -/
def Mem.unknown (seed : Nat) : Mem := ⟨[], [⟨0, 2 ^ 128, seed⟩]⟩

/-- A dirty line of the LLC: what the banks still hold of it (R17, R328). -/
structure DirtyLine where
  line : Nat
  bank : List Byte
  deriving DecidableEq, Repr, Inhabited

/-- Kinds of error a protected unit may hold: a single-bit error, an uncorrectable one, or an uncorrectable one of a clean
LLC line, which ends at its first read (R229, R450). -/
inductive ErrKind where
  | single | double | soft
  deriving DecidableEq, Repr, Inhabited

/-- A unit of memory that holds an error: a 16-byte scratchpad row or a 64-byte line, by its first location / 16, and the doubleword
of the unit in which the error lies (R43; log 17). -/
structure ErrMark where
  row  : Nat
  kind : ErrKind
  dw   : Nat
  deriving DecidableEq, Repr, Inhabited

/-- A held translation: a whole page of any size, tagged with its PASID (R242). -/
structure TlbEntry where
  pasid : BitVec 20
  base  : Nat
  size  : Nat
  dw0   : Word
  count : Option Nat
  deriving DecidableEq, Repr, Inhabited

/-- A held table descriptor: the table that serves a level below (R242). -/
structure WalkEntry where
  pasid : BitVec 20
  level : Nat
  index : Nat
  table : Nat
  deriving DecidableEq, Repr, Inhabited

/-! ## One core -/

/-- State of a core at its herd's front end (R137). -/
inductive Front where
  | attached | stray | halted
  deriving DecidableEq, Repr, Inhabited

/-- State of a guard slot (R173). -/
inductive Guard where
  | opened | yes | no
  deriving DecidableEq, Repr, Inhabited

/-- A scalar result on its way (R156, R157). -/
structure Landing where
  reg : BitVec 5
  val : Word
  deriving DecidableEq, Repr, Inhabited

/-- One target of a vector result on its way (R117). -/
inductive VTarget where
  | reg  (n : BitVec 5) (mask val : Slice)
  | pred (n : BitVec 3) (mask val : Word)
  | mem  (cells : List Host.Cell)
  deriving DecidableEq, Repr, Inhabited

/-- A vector result on its way (R117): the first ck that may find it landed, and the last in which it may land; dq says that a
vdq wrote it (R258). -/
structure VLanding where
  targets  : List VTarget
  opens    : Nat
  deadline : Nat
  colour   : BitVec 3
  seq      : Nat
  dq       : Bool
  deriving DecidableEq, Repr, Inhabited

/-- Operations of the atomics (R367). -/
inductive AmoOp where
  | add | and | or | xor | min | max | minu | maxu | swap | cas | fadd
  deriving DecidableEq, Repr, Inhabited

/-- What a store-queue entry does when it performs (R253); rd is the result register of an atomic. -/
inductive SqOp where
  | store  (loc : Nat) (data : List Byte)
  | amo    (op : AmoOp) (loc n : Nat) (v cmp : Word) (rd : BitVec 5)
  | remote (port : Bool) (op : RemoteOp) (rd : BitVec 5)
  deriving DecidableEq, Repr, Inhabited

/-- An entry of the store queue (R253, R355). -/
structure SqEntry where
  op     : SqOp
  colour : BitVec 3
  seq    : Nat
  deriving DecidableEq, Repr, Inhabited

/-- Why an access-queue head is held (R259, R260). -/
inductive AqCause where
  | translation (kind : BitVec 8) | bounds | misalignment | unrecoverable
  deriving DecidableEq, Repr, Inhabited

/-- An entry of an access queue (R255); data is what it has loaded and not yet delivered. -/
structure AqEntry where
  base     : Word
  extent   : BitVec 32
  bounds   : BitVec 4
  width    : Nat
  off      : Int
  bad      : Bool
  user     : Bool
  seq      : Nat
  held     : Option AqCause
  reported : Bool
  data     : Option (BitVec 32)
  deriving DecidableEq, Repr, Inhabited

/-- Completion statuses of engine entries (R181). -/
inductive EStatus where
  | ok | eccZeroed | scalePoison | checksumMismatch | katMismatch | replayLost | cancelled | staleBarrier | translation
  | peerDown | queueReset | thermalAbort
  deriving DecidableEq, Repr, Inhabited

/-- What a Running entry holds (R171, R172): its pump, or the ck that a matrix entry takes uncontended (R307), and the ck it started; how far it has come, and the bytes it has
written; units zeroed, blocks poisoned and rows that failed; the status it has met; what it has read to be used later; the
ranges it has read and written; the residue mismatches it has had (R323); and whether it is to stop (R274, R443). -/
structure Run where
  unit     : Nat
  started  : Nat
  pos      : Nat
  bytes    : Nat
  zeroed   : List Nat
  units    : Nat
  poisoned : Nat
  rows     : List Nat
  status   : EStatus
  kept     : List (List Byte)
  reads    : List (Nat × Nat)
  writes   : List (Nat × Nat)
  tries    : Nat
  stop     : Bool
  deriving DecidableEq, Repr, Inhabited

/-- An entry of an engine queue, with what it captured at issue (R170, R174, R420); `num` is a collective's number among those that its
core has issued to the group (R381). -/
structure Entry where
  word    : Instr
  seq     : Nat
  outcome : Option Bool
  pending : Option (BitVec 4)
  granted : Bool
  age     : Option Nat
  cancel  : Bool
  user    : Bool
  gen     : Byte
  bar     : Word
  handle  : BitVec 32
  num     : Nat
  img1    : Image
  img2    : Image
  scal    : Word
  bounds  : List Nat
  run     : Option Run
  deriving DecidableEq, Repr, Inhabited

/-- What a core that issues nothing waits for. -/
inductive Block where
  /-- kwait, joined at the ck age (R177, R179). -/
  | kwait (k : BitVec 8) (n : Nat) (age : Nat)
  /-- bwait on the object that a pointer reaches at a location, for a phase; met: an arrival has brought it (R372, R375). -/
  | bwait (loc : Nat) (ptr : Word) (phase : BitVec 16) (met : Bool)
  /-- pbwait on the short barrier at a location, for a parity; met: an arrival has brought it (R378). -/
  | pbwait (loc : Nat) (ptr : Word) (parity : Bool) (met : Bool)
  /-- spinw asleep on the line monitor of the location that a pointer reaches (R364). -/
  | spinw (loc : Nat) (ptr : Word) (val : Word)
  /-- wait (R402). -/
  | notice
  /-- An attached core that has reported its next address (R141). -/
  | branch
  /-- An attached core that has issued an iflush of the shared stream (R148). -/
  | iflush
  /-- tlbinv of a page, or tlbinvall of one PASID or all (R243). -/
  | tlbinv (pasid : Option (BitVec 20)) (va : Option Nat)
  /-- A write of xdsp on its way or in progress (R234). -/
  | xdsp (ways : Nat) (started : Bool)
  /-- A report not yet accepted (R405, R406, R397). -/
  | report (code : BitVec 16) (ends : Bool) (cause epc tval : Word)
  deriving DecidableEq, Repr, Inhabited

/-- An operation of xfreq on its way (R245). -/
structure FreeReq where
  sz   : Nat
  die  : Nat
  well : Nat
  any  : Bool
  push : Bool
  frame : Nat
  deriving DecidableEq, Repr, Inhabited

/-- Loop state of vloop (R211, R212): the word's address, the counts, the indices and the position in the body. -/
structure Loop where
  addr   : BitVec 56
  counts : List Nat
  steps  : List (BitVec 2)
  idx    : List Nat
  body   : List (BitVec 56)
  pos    : Nat
  after  : BitVec 56
  deriving DecidableEq, Repr, Inhabited

/-- The trap registers of a core (R391, R392). -/
structure XRegs where
  priv   : Bool
  ie     : Bool
  pp     : Bool
  pie    : Bool
  intrap : Bool
  np     : Bool
  ncode  : BitVec 16
  xvec   : Word
  xepc   : Word
  xcause : Word
  xtval  : Word
  xscr0  : Word
  xscr1  : Word
  xfres  : Word
  deriving DecidableEq, Repr, Inhabited

/-- Where a saved context stands: in a save area of space 0, or in an area that firmware reserves for rotation (R414;
log 26). -/
inductive SaveRef where
  | virt (pasid : BitVec 20) (va : Nat)
  | firm (area off : Nat)
  deriving DecidableEq, Repr, Inhabited

/-- A word that waits in a core's issue buffer (R138): its address, the word as it was decoded and its bytes, where its stream goes on
and whether the front end stops behind it, and the attached set when it was given out (R144). -/
structure BufWord where
  addr : BitVec 56
  word : Instr
  len  : Nat
  next : BitVec 56
  stop : Bool
  att  : BitVec 8
  deriving DecidableEq, Repr, Inhabited

/-- The context of one core (R154, R419). `handles` counts the pump words issued, and `wrapped` says that there have been 2^32 or
more (R273, R274); `colls` counts the collective words issued to each group (R381); `recon` says that the next scratchpad read
is reconstructed and fails, `faulted` is the word that took a reconstruction fault whose handler runs, and `direct` the place in program
order of the word that reads the bank directly after it (R229);
`lapped` are the stream registers whose producers have written 2^32 bytes or more (R294, R297); `tokens` are the token registers that have
landed and that no word has read yet (R271; log 65). -/
structure Core where
  s        : List Word
  pend     : BitVec 32
  landings : List Landing
  v        : List Slice
  vlands   : List VLanding
  p        : List Word
  l        : List (BitVec 32)
  g        : List Guard
  b        : List Image
  q        : List Image
  pc       : BitVec 56
  front    : Front
  join     : Option (BitVec 56)
  block    : Option Block
  buf      : List BufWord
  issueAt  : Nat
  cutN     : Option Nat
  cutG     : Option Nat
  loop     : Option Loop
  cs       : List (List Lane)
  csOvf    : BitVec 4
  aq       : List (List AqEntry)
  dq       : List (List Lane)
  ldstall  : BitVec 32
  sq       : List SqEntry
  seq      : Nat
  eq       : List (List Entry)
  last     : List EStatus
  details  : List Nat
  done     : List (BitVec 32)
  handles  : BitVec 32
  wrapped  : Bool
  colls    : List Nat
  cancelRd : List (BitVec 32 × BitVec 5)
  x        : XRegs
  freeReq  : Option FreeReq
  absent   : List BankReg
  saved    : Option SaveRef
  lost     : BitVec 8
  recon    : Bool
  faulted  : Option (BitVec 56)
  direct   : Option Nat
  lapped   : BitVec 16
  tokens   : BitVec 32
  swapped  : Bool
  deriving DecidableEq, Repr, Inhabited

/-! ## One herd -/

/-- The node a herd holds, with the header fields that its words read (R40, R41). -/
structure Held where
  lseq   : Nat
  node   : Nat
  grank  : Nat
  gang   : Nat
  pasid  : BitVec 20
  matrix : Bool
  acc    : Nat
  fp     : Nat
  det    : Bool
  well   : Bool
  wdie   : Nat
  row0   : Nat
  col0   : Nat
  rows   : Nat
  cols   : Nat
  deriving DecidableEq, Repr, Inhabited

/-- A branch of the shared stream that is not yet resolved (R141, R152). -/
structure Diverge where
  addr : BitVec 56
  deriving DecidableEq, Repr, Inhabited

/-- A granule of code as the front end has fetched it (R148). -/
structure Fetched where
  pasid : BitVec 20
  addr  : BitVec 56
  word  : Granule
  deriving DecidableEq, Repr, Inhabited

/-- The matrix lease (R305, R306): its holder, the ck of its grant, the entries it has started, and the ck since which the
holder's head has not been startable. -/
structure Lease where
  core  : Nat
  since : Nat
  runs  : Nat
  idle  : Option Nat
  deriving DecidableEq, Repr, Inhabited

/-- What has been done to a herd's semaphores in a ck (R179): whether units have been granted, and the ksig words that applied, by
semaphore and core rank. -/
structure SemTurn where
  ck      : Nat
  granted : Bool
  sigs    : List (BitVec 8 × Nat)
  deriving DecidableEq, Repr, Inhabited

/-- The context of one herd (R152, R413, R421). -/
structure HerdCtx where
  held    : Option Held
  cores   : List Core
  stream  : BitVec 56
  stopped : Bool
  diverge : Option Diverge
  mstall  : BitVec 16
  code    : List Fetched
  k       : List (BitVec 16)
  kov     : Bool
  ksem    : Byte
  turn    : SemTurn
  acc     : List (List Lane)
  accErr  : List (Nat × ErrKind)
  lease   : Option Lease
  lastRun : List Nat
  evicts  : Nat
  deriving DecidableEq, Repr, Inhabited

/-- A parity group of a core scratchpad (R230, R231). -/
structure Group where
  lostBanks : List Nat
  rebuild   : Option Nat
  degraded  : Bool
  dead      : Bool
  deriving DecidableEq, Repr, Inhabited

/-- The physical side of one core: its scratchpad's groups, stale marks, the parity rows that hold an error, by group and row,
the retired groups whose redirection is in force (R223, R229, R231, R232), and its active register bank (R410, R426). -/
structure CorePhys where
  groups   : List Group
  stale    : List (Nat × Nat)
  perrs    : List ((Nat × Nat) × ErrKind)
  moved    : List Nat
  bank     : Bool
  deriving DecidableEq, Repr, Inhabited

/-- An eviction after its swap (R409 to R416): where the old context goes, and whether it is quiescent. -/
structure Evict where
  save  : SaveRef
  quiet : Bool
  deriving DecidableEq, Repr, Inhabited

/-- One herd (R15): the context it runs, the context it spills, an eviction request that waits for its swaps, the eviction
after them, its TLB and its scratchpads. -/
structure Herd where
  act     : HerdCtx
  old     : Option HerdCtx
  evict   : Option SaveRef
  spill   : Option Evict
  tlb     : List TlbEntry
  phys    : List CorePhys
  retired : Bool
  mstate  : Nat
  hot     : Nat
  deriving DecidableEq, Repr, Inhabited

/-! ## Wells (spec/13_wells.md) -/

/-- A fill on its way (R330): whether its beats have begun, the bytes of the beats read, and the beats among them that were
uncorrectable (R347). -/
structure Fill where
  beats : Bool
  got   : List Byte
  bad   : List Nat
  deriving DecidableEq, Repr, Inhabited

/-- A weight latch (R329): the offset it was filled from, the format and flag recorded, the image it holds, the fill under
way, and its error record: tiles zeroed and blocks poisoned (R347). -/
structure Latch where
  off     : Option Nat
  fmt     : WellFmt
  tr      : Bool
  image   : List Byte
  fill    : Option Fill
  zeroed  : Nat
  poison  : Nat
  deriving DecidableEq, Repr, Inhabited

/-- A WA16 block (R289). -/
structure WBlock where
  a : List Int
  x : Int
  deriving DecidableEq, Repr, Inhabited

/-- The state of a well row that wmode and wpipe set (R341). -/
structure RowState where
  fmt   : WellFmt
  tr    : Bool
  dqb   : Bool
  mlb   : Bool
  rdb   : Bool
  fn    : ActFn
  alpha : List Nat
  beta  : List Nat
  deriving DecidableEq, Repr, Inhabited

/-- An exact fixed-point accumulator (R290). -/
structure EP128 where
  n  : Int
  ov : Bool
  os : Bool
  ix : Bool
  deriving DecidableEq, Repr, Inhabited

/-- A slot of an output cistern (R338): its record of kind, true for QL4 accumulators; its sums and accumulators; the
non-finite and taint flags; whether its outputs are undefined; and the sums that an error has met. -/
structure CSlot where
  ql4   : Option Bool
  sums  : List EP128
  accs  : List Nat
  nan   : Bool
  taint : Bool
  undef : Bool
  errs  : List (Nat × ErrKind)
  deriving DecidableEq, Repr, Inhabited

/-- A well of a rectangle: its two latches and which of them is active (R329). -/
structure WellState where
  latch0 : Latch
  latch1 : Latch
  active : Bool
  deriving DecidableEq, Repr, Inhabited

/-- The rectangle of a well node (R33, R332, R338, R341): its westmost die, first row and first column; wells row by row, row
states, the buffers of each column, the cistern slots of each row, multiplier faults to come (log 30), and whether its latches
are being filled again after a restore (R351). -/
structure Rect where
  lseq   : Nat
  node   : Nat
  die    : Nat
  row0   : Nat
  col0   : Nat
  wells  : List (List WellState)
  rows   : List RowState
  bufs   : List (List WBlock)
  slots  : List (List CSlot)
  faults : List (Nat × Nat × Nat × Int)
  refill : Bool
  deriving DecidableEq, Repr, Inhabited

/-! ## One die -/

/-- A bank of a well whose DRAM row is open (R330). -/
structure OpenRow where
  well : Nat
  bank : Nat
  row  : Nat
  deriving DecidableEq, Repr, Inhabited

/-- A free-page list (R244): its frames, the top one first. -/
structure FreeList where
  well   : Nat
  sz     : Nat
  frames : List Nat
  deriving DecidableEq, Repr, Inhabited

/-- A change of die-scratchpad ways in progress (R234); the core that waits for it, if a core asked. -/
structure DspChange where
  target : Nat
  asker  : Option (Nat × Nat)
  deriving DecidableEq, Repr, Inhabited

/-- A zone of a die: degrees at the last sample, and its state 0 to 3 (R438, R439). -/
structure Zone where
  temp  : Nat
  state : Nat
  deriving DecidableEq, Repr, Inhabited

/-- One die (R8, R10, R16, R17): by how many ck its cycle counter stands ahead of State.now (R20, R433; log 50); stops are the
zones that entered emergency and are still to be stopped (R443), openRows are its wells' open DRAM rows, and refresh the banks
in refresh with the ck at which it ends (R330, R331); waysSet is what xdsp was last set to, and ways what is carved off (R233). -/
structure Die where
  ahead   : Nat
  zones   : List Zone
  stops   : List Nat
  budgets : List Nat
  ways   : Nat
  waysSet : Nat
  change : Option DspChange
  free   : List FreeList
  tlb    : List TlbEntry
  walks  : List WalkEntry
  served : List Nat
  nextPick : Nat
  pumpsOut : List Nat
  wellsOut : List Nat
  openRows : List OpenRow
  refresh  : List (Nat × Nat × Nat)
  deriving DecidableEq, Repr, Inhabited

/-! ## Work (spec/02_describing_work.md, 03_launching.md, 04_placement.md) -/

/-- Kinds of a node (R39). -/
inductive NodeKind where
  | herd | well | copy
  deriving DecidableEq, Repr, Inhabited

/-- States of a node (R104). -/
inductive NodeState where
  | waiting | ready | reserving | running | triggered | retired | saved | removed
  deriving DecidableEq, Repr, Inhabited

/-- A launch header as it was read (R40). -/
structure Header where
  entry  : Word
  arg    : Word
  gang   : Nat
  fp     : Nat
  matrix : Bool
  acc    : Nat
  reloc  : Bool
  det    : Bool
  base   : Nat
  wdie   : Nat
  row0   : Nat
  col0   : Nat
  rows   : Nat
  cols   : Nat
  deriving DecidableEq, Repr, Inhabited

/-- A node of a launch: its descriptor as it was read, and how it stands (R39, R88 to R95, R103, R104). `herds` are those it
holds, or has claimed while Reserving, in gang-rank order; `back` is the state it goes on in when its saved context is
loaded. -/
structure Node where
  kind   : NodeKind
  die    : Nat
  preds  : Nat
  succs  : List Nat
  hdr    : Header
  src    : Word
  dst    : Word
  bytes  : Nat
  colour : BitVec 3
  nbar   : Word
  ntag   : Byte
  state  : NodeState
  back   : NodeState
  count  : Nat
  ntrig  : Bool
  gdone  : Bool
  level  : Nat
  aging  : Nat
  slot   : Nat
  first  : Bool
  herds  : List Nat
  rect   : Bool
  pump   : Option Nat
  saved  : Option SaveRef
  moving : List Nat
  turned : Option Nat
  copied : Nat
  lost   : List Nat
  stop   : EStatus
  deriving DecidableEq, Repr, Inhabited

/-- An accepted launch (R86). -/
structure Launch where
  lseq   : Nat
  qid    : Nat
  pasid  : BitVec 20
  record : Word
  image  : Word
  gbar   : Word
  gtag   : Byte
  nodes  : List Node
  gtrig  : Bool
  tag    : BitVec 16
  irq    : Bool
  copy   : Bool
  abandoned : Bool
  deriving DecidableEq, Repr, Inhabited

/-- A WAIT packet that blocks its thread: the pointer to its object, the phase, and stop (R57, R58); where the object stood, and its
error code when an arrival brought the phase (R372). -/
structure QWait where
  bar   : Word
  phase : BitVec 16
  stop  : Bool
  loc   : Nat
  met   : Option Byte
  deriving DecidableEq, Repr, Inhabited

/-- A queue (R52, R54, R62). `held` is a launch that was read and waits for room (R86); `hold` the launch that holds back the
next packet (R60); ptag and pirq are those of a packet that waits, `seen` holds what has been read of the records that the packet at the
head names, by address, oldest first (R44), `unbound` says that its PASID was retired (R74), and `owed` that an update of the status record waits for the host's page (R48, R54), with the vectors to be signalled after it (R47). -/
structure Queue where
  qid    : Nat
  cls    : Nat
  level  : Nat
  strict : Bool
  n      : Nat
  vector : Nat
  pasid  : BitVec 20
  base   : Word
  srec   : Word
  head   : BitVec 32
  tail   : BitVec 32
  tag    : BitVec 16
  status : Nat
  detail : Nat
  done   : BitVec 32
  since  : Nat
  held   : Option Launch
  hold   : Option Nat
  wait   : Option QWait
  fence  : Bool
  ptag   : BitVec 16
  pirq   : Bool
  seen   : List (Nat × List Byte)
  unbound : Bool
  owed   : Option (List Nat)
  deriving DecidableEq, Repr, Inhabited

/-- States of a Tahr slot (R105). -/
inductive SlotState where
  | free | serving | holding | blocked | idle | unmapping
  deriving DecidableEq, Repr, Inhabited

/-- A Tahr slot (R65): its queue (4,096 stands for the management ring, R68), its state, the ck it was mapped and the ck it became idle. -/
structure Slot where
  qid   : Option Nat
  state : SlotState
  since : Nat
  idle  : Nat
  deriving DecidableEq, Repr, Inhabited

/-- A management command that completes later (R69): PREEMPT with its save area and how far it is laid out, DSP, or PASID
RETIRE with the number of queues it stopped (R74). -/
inductive Mgmt where
  | preempt (qid : Nat) (area : Nat) (first total : Nat)
  | dsp (die : Nat)
  | retire (pasid : BitVec 20) (stopped : Nat)
  deriving DecidableEq, Repr, Inhabited

/-- An ATS invalidation of a range, with the pages of host memory that the part had translated it to (R48). -/
structure AtsInval where
  pasid : BitVec 20
  va    : Nat
  len   : Nat
  pages : List Nat
  deriving DecidableEq, Repr, Inhabited

/-- The Tahr (R18, R49 to R82): its registers, queues, slots and launches, the command under way, MSI-X messages sent, the
patches applied, the one-time leaves left, the module allowance, the newest measurements of module power (R445), the notices still to be
posted, the tail registers of queues that do not exist, where they are not 0 (R4, R51), what the last reads of BAR0 and through BAR2 returned, the size of BAR2 as a power of two (R46), the ATS invalidations
whose completion is not yet sent and those completed (R48), and whether the last reset was a function-level one (R448). -/
structure Tahr where
  ready    : Bool
  fatal    : Bool
  patched  : Bool
  mqbase   : Word
  mqsize   : Nat
  mqtail   : BitVec 32
  mqhead   : BitVec 32
  mqsince  : Nat
  w2base   : Word
  bar0     : List Host.Cell
  queues   : List Queue
  slots    : List Slot
  launches : List Launch
  lseq     : Nat
  mgmt     : Option Mgmt
  msix     : List Nat
  patches  : List (Nat × List Byte)
  leaves   : Nat
  allow    : Nat
  power    : List Nat
  notices  : List (Nat × Nat × BitVec 16)
  tails    : List (Nat × BitVec 32)
  bar0Read : List Byte
  bar2Read : List Byte
  bar2Log  : Nat
  invals   : List AtsInval
  invalsDone : List AtsInval
  warm     : Bool
  deriving DecidableEq, Repr, Inhabited

/-! ## The part -/

/-- A bound PASID and its page-table root (R71, R235). -/
structure Root where
  pasid : BitVec 20
  root  : Nat
  deriving DecidableEq, Repr, Inhabited

/-- A page of host memory: a translation held from ATS, a request outstanding, or a refusal to be met (R48, R239). -/
structure HostPage where
  pasid : BitVec 20
  page  : Nat
  host  : Option Nat
  refused : Bool
  deriving DecidableEq, Repr, Inhabited

/-- Traffic sent through a peer port (R219, R384). -/
structure PeerMsg where
  port : Bool
  op   : RemoteOp
  deriving DecidableEq, Repr, Inhabited

/-- What a collective at scope 4 sends through a peer port: each participant's send bytes (R19, R381). -/
structure CollMsg where
  port  : Bool
  group : BitVec 8
  lseq  : Nat
  node  : Nat
  sends : List (List Byte)
  deriving DecidableEq, Repr, Inhabited

/-- An entry of the error log (R434), its body as three doublewords. -/
structure LogEntry where
  time : Nat
  die  : Nat
  kind : Nat
  qid  : Nat
  w1   : Word
  w2   : Word
  w3   : Word
  deriving DecidableEq, Repr, Inhabited

/-- What a health counter counts (R435). -/
inductive CounterKey where
  | unit (u : UnitId)
  | scales (herd : Nat)
  | cistern (die row : Nat)
  | lines (die : Nat)
  | beats (die well : Nat)
  | semSat (herd : Nat)
  deriving DecidableEq, Repr, Inhabited

/-- A health counter: uncorrectable and corrected events (R435). -/
structure Counter where
  key : CounterKey
  unc : Nat
  cor : Nat
  deriving DecidableEq, Repr, Inhabited

/-- The numbers of collectives that go with a saved herd context: its place, and for each core the counts of each group and the numbers
of the entries in its collective queue (R381; log 69). -/
structure CollSave where
  ref  : SaveRef
  cores : List (List Nat × List Nat)
  deriving DecidableEq, Repr, Inhabited

/-- What the part may do without any row of the opcode table saying when (log 5, log 17). -/
inductive Choice where
  /-- Writes back a dirty LLC line (R17). -/
  | writeBack (line : Nat)
  /-- Drops an entry of a herd TLB, a die TLB or a walk cache (R242). -/
  | dropHerdTlb (herd idx : Nat)
  | dropDieTlb (die idx : Nat)
  | dropWalk (die idx : Nat)
  /-- Drops the code a front end holds (R148). -/
  | dropCode (herd : Nat)
  /-- An error arises in a doubleword of a protected unit (R229). -/
  | upset (row : Nat) (kind : ErrKind) (dw : Nat)
  /-- An error arises in a row of a parity bank (R223, R229). -/
  | parityUpset (herd core group row : Nat) (kind : ErrKind)
  /-- The next scratchpad read of a core is reconstructed and fails its check (R229). -/
  | reconFail (herd core : Nat)
  /-- The next read of a scratchpad row by an engine is reconstructed and fails its check (R229). -/
  | reconMiss (row : Nat)
  /-- The front end fetches the next word of the shared stream, or of a stray's, before a core asks for it (R138, R139). -/
  | fetchAhead (herd : Nat) (stray : Option Nat)
  /-- A vector result that is not the oldest lands inside its window (R117). -/
  | landLater (herd core idx : Nat)
  /-- A pump performs the next segment of its entry (R264). -/
  | pumpSegment (herd core : Nat)
  /-- A die pump performs the next segment of its copy (R431). -/
  | copySegment (lseq node : Nat)
  /-- A queue's thread reads a doubleword of the records that the LAUNCH at its head names, before the rest (R44). -/
  | fieldRead (qid va : Nat)
  /-- An error stops the Tahr (R50). -/
  | tahrFails
  /-- The host writes its own memory. -/
  | hostWrite (addr : Nat) (data : List Byte)
  /-- The host reads a register or a table of BAR0 (R49). -/
  | regRead (off size : Nat)
  /-- The host chooses BAR2's size, 2^log bytes, through the Resizable BAR capability (R46). -/
  | barResize (log : Nat)
  /-- The reset of a die ended some ck before the others' (R20, R433). -/
  | dieAhead (die n : Nat)
  /-- The part sends the completion of its oldest ATS invalidation, once every access it translated before is made (R48). -/
  | invalSend
  /-- A fill reads its next beat (R328, R330). -/
  | fillBeat (die well : Nat) (latch : Bool)
  /-- A tile step or pass of a core's entry fails its residue check; `again` says that it was a replay of the same (R323). -/
  | residue (herd core : Nat) (again : Bool)
  /-- An error arises in a group of an accumulator tile (R300). -/
  | accUpset (herd group : Nat) (kind : ErrKind)
  /-- An error arises in a cistern sum (R348). -/
  | cisternUpset (lseq node row slot n : Nat) (kind : ErrKind)
  /-- A multiplier fault adds a value to output n of a well's next product (R339). -/
  | wellFault (lseq node row col n : Nat) (delta : Int)
  /-- QRESET stops the gang on the abutting part (R383). -/
  | peerReset (port : Bool)
  /-- An uncorrectable error in the buffers of a die pump, or in the front end or semaphore file of a herd (R435). -/
  | unitUpset (u : UnitId)
  deriving DecidableEq, Repr, Inhabited

/-- One move of the part. -/
inductive Move where
  | issue  (herd core : Nat)
  | event  (i : Instr)
  | choice (c : Choice)
  deriving DecidableEq, Repr, Inhabited

/-- A move to come, no earlier than a ck. -/
structure Turn where
  ck   : Nat
  move : Move
  deriving DecidableEq, Repr, Inhabited

/-- The whole part. `pins` are the frames last written through a page with wr = 1 (base and size), whose lines the LLC writes
through (R328; log 34); `misses` are scratchpad rows of which an engine's next reconstructed read fails its check (R229); `collSaves` are
the numbers that go with saved contexts (log 69). -/
structure State where
  mem    : Mem
  dirty  : List DirtyLine
  pins   : List (Nat × Nat)
  marks  : List ErrMark
  misses : List Nat
  herds  : List Herd
  dies   : List Die
  dieMap : List Nat
  roots  : List Root
  pages  : List HostPage
  ports  : List Bool
  sent   : List PeerMsg
  collSent : List CollMsg
  collSaves : List CollSave
  log    : List LogEntry
  logged : Nat
  counters : List Counter
  cur    : Nat × Nat
  agenda : List Turn
  now    : Nat
  fv     : Nat
  tahr   : Tahr
  rects  : List Rect
  powered : Bool
  deriving DecidableEq, Repr, Inhabited

/-! ## Reset -/

/-- The trap registers at node entry (R391, R392, R403). -/
def XRegs.entry : XRegs where
  priv := false
  ie := true
  pp := false
  pie := false
  intrap := false
  np := false
  ncode := 0
  xvec := Config.handlerAddr
  xepc := 0
  xcause := 0
  xtval := 0
  xscr0 := 0
  xscr1 := 0
  xfres := 0

/-- A core that holds no node: entry values, halted (log 3). -/
def Core.idle : Core where
  s := .replicate 32 0
  pend := 0
  landings := []
  v := .replicate 32 0
  vlands := []
  p := BitVec.allOnes 64 :: .replicate 7 0
  l := .replicate 8 0
  g := .replicate 16 .yes
  b := .replicate 16 0
  q := .replicate 16 0
  pc := 0
  front := .halted
  join := none
  block := none
  buf := []
  issueAt := 0
  cutN := none
  cutG := none
  loop := none
  cs := .replicate 4 []
  csOvf := 0
  aq := .replicate 4 []
  dq := .replicate 4 []
  ldstall := 0
  sq := []
  seq := 0
  eq := .replicate 4 []
  last := .replicate 4 .ok
  details := .replicate 4 0
  done := .replicate 4 0
  handles := 0
  wrapped := false
  colls := .replicate 256 0
  cancelRd := []
  x := .entry
  freeReq := none
  absent := []
  saved := none
  lost := 0
  recon := false
  faulted := none
  direct := none
  lapped := 0
  tokens := 0
  swapped := false

/-- A herd context that holds no node (log 3). -/
def HerdCtx.idle : HerdCtx where
  held := none
  cores := .replicate 8 .idle
  stream := 0
  stopped := false
  diverge := none
  mstall := 0
  code := []
  k := .replicate 256 0
  kov := false
  ksem := 0
  turn := ⟨0, false, []⟩
  acc := .replicate 4 (.replicate 16384 0)
  accErr := []
  lease := none
  lastRun := [7, 7, 7, 7]
  evicts := 0

/-- A sound parity group. -/
def Group.sound : Group where
  lostBanks := []
  rebuild := none
  degraded := false
  dead := false

/-- The banks of a core with nothing retired. -/
def CorePhys.sound : CorePhys where
  groups := .replicate 8 .sound
  stale := []
  perrs := []
  moved := []
  bank := false

/-- A herd with no node. -/
def Herd.idle : Herd where
  act := .idle
  old := none
  evict := none
  spill := none
  tlb := []
  phys := .replicate 8 .sound
  retired := false
  mstate := 0
  hot := 0

/-- A die after reset (R441; log 19). -/
def Die.idle : Die where
  ahead := 0
  zones := .replicate 16 ⟨0, 0⟩
  stops := []
  budgets := .replicate 16 15
  ways := 0
  waysSet := 0
  change := none
  free := []
  tlb := []
  walks := []
  served := .replicate 48 31
  nextPick := 0
  pumpsOut := []
  wellsOut := []
  openRows := []
  refresh := []

/-- The Tahr after reset (R50, R86, R445; log 12, log 13, log 19). -/
def Tahr.idle : Tahr where
  ready := false
  fatal := false
  patched := false
  mqbase := 0
  mqsize := 0
  mqtail := 0
  mqhead := 0
  mqsince := 0
  w2base := 0
  bar0 := []
  queues := []
  slots := .replicate 32 ⟨none, .free, 0, 0⟩
  launches := []
  lseq := 0
  mgmt := none
  msix := []
  patches := []
  leaves := 32768
  allow := 15
  power := []
  notices := []
  tails := []
  bar0Read := []
  bar2Read := []
  bar2Log := 28
  invals := []
  invalsDone := []
  warm := false

/-- The part right after power-on reset (R447). -/
def State.reset : State where
  mem := .unknown 0
  dirty := []
  pins := []
  marks := []
  misses := []
  herds := .replicate 128 .idle
  dies := .replicate 8 .idle
  dieMap := [0, 1, 2, 3, 4, 5, 6, 7]
  roots := []
  pages := []
  ports := [true, true]
  sent := []
  collSent := []
  collSaves := []
  log := []
  logged := 0
  counters := []
  cur := (0, 0)
  agenda := []
  now := 0
  fv := 0
  tahr := .idle
  rects := []
  powered := true

end Sys2Proof.Machine
end

