-- ==== Sys2Proof/Machine/Memory.lean ====
section
/-! DEFINITION. The bytes of the part, by location: one number for every byte after translation and rank remapping (R254).
Device DRAM stands at its physical address, then the die scratchpads, the core scratchpads and host memory. With the errors of lines that
the part's own reads find (19_program_embedding_bag.md R450; 16_retirement_and_health.md R435). -/

namespace Sys2Proof.Machine

/-! ## Locations -/

/-- The location of byte a of the die scratchpad of a physical die (R216). -/
def dspLoc (die a : Nat) : Nat := 2 ^ 41 + die * 2 ^ 28 + a

/-- The location of byte a of the scratchpad of a core (R216, R224). -/
def scratchLoc (herd core a : Nat) : Nat := 2 ^ 42 + (herd * 8 + core) * 2 ^ 20 + a

/-- The location of byte a of host memory (R239). -/
def hostLoc (a : Nat) : Nat := 2 ^ 60 + a

/-- Device DRAM (R237). -/
def isDram (l : Nat) : Bool := decide (l < 2 ^ 40)

def isDsp (l : Nat) : Bool := decide (2 ^ 41 ≤ l ∧ l < 2 ^ 42)

def isScratch (l : Nat) : Bool := decide (2 ^ 42 ≤ l ∧ l < 2 ^ 43)

def isHost (l : Nat) : Bool := decide (2 ^ 60 ≤ l)

/-! ## Cells in canonical form -/

/-- The byte a cell list holds at an address. -/
def cellAt : List Host.Cell → Nat → Option Byte
  | [], _ => none
  | (a, b) :: r, x => if a = x then some b else cellAt r x

/-- The list with the cells of n addresses from a up replaced by others. -/
def cellsPut (cs : List Host.Cell) (a n : Nat) (new : List Host.Cell) : List Host.Cell :=
  cs.filter (fun c => decide (c.1 < a)) ++ new ++ cs.filter fun c => decide (a + n ≤ c.1)

/-- Addresses strictly rise from a bound. -/
def cellsRise : Nat → List Host.Cell → Bool
  | _, [] => true
  | n, (a, _) :: r => decide (n ≤ a) && cellsRise (a + 1) r

/-- The undefined span that covers a location, if any. -/
def Mem.spanAt (m : Mem) (a : Nat) : Option Span := m.undef.find? fun u => decide (u.lo ≤ a ∧ a < u.hi)

/-- What an unlisted location reads as: a free byte inside an undefined span, else zero (log 1, log 2). -/
def Mem.unlisted (m : Mem) (a : Nat) : Byte :=
  match m.spanAt a with
  | some u => Config.freeByte u.seed a
  | none => 0

/-- The byte at a location. -/
def Mem.byte (m : Mem) (a : Nat) : Byte := (cellAt m.cells a).getD (m.unlisted a)

/-- The cells that hold bytes from a location up. Zero outside every undefined span is the unlisted value and is not
listed. -/
def Mem.listed (m : Mem) : Nat → List Byte → List Host.Cell
  | _, [] => []
  | a, v :: r => if v = 0 ∧ m.spanAt a = none then m.listed (a + 1) r else (a, v) :: m.listed (a + 1) r

/-- The canonical form: addresses rise, and a listed zero lies inside an undefined span. -/
def Mem.wf (m : Mem) : Bool :=
  cellsRise 0 m.cells && m.cells.all fun c => !decide (c.2 = 0) || (m.spanAt c.1).isSome

/-- n bytes from a location up. -/
def Mem.read (m : Mem) (a : Nat) : Nat → List Byte
  | 0 => []
  | n + 1 => m.byte a :: m.read (a + 1) n

/-- Write bytes from a location up. -/
def Mem.write (m : Mem) (a : Nat) (bs : List Byte) : Mem :=
  { m with cells := cellsPut m.cells a bs.length (m.listed a bs) }

/-- Leave the locations lo to hi - 1 undefined (R6). -/
def Mem.forget (m : Mem) (lo hi seed : Nat) : Mem where
  cells := m.cells.filter fun c => !decide (lo ≤ c.1 ∧ c.1 < hi)
  undef := if lo < hi then ⟨lo, hi, seed⟩ :: m.undef else m.undef

/-- Make the locations lo to hi - 1 read as zero. -/
def Mem.clear (m : Mem) (lo hi : Nat) : Mem where
  cells := m.cells.filter fun c => !decide (lo ≤ c.1 ∧ c.1 < hi)
  undef := m.undef.flatMap fun u =>
    (if u.lo < min u.hi lo then [{ u with hi := min u.hi lo }] else []) ++
    (if max u.lo hi < u.hi then [{ u with lo := max u.lo hi }] else [])

/-! ## Byte order (R1) -/

/-- The number that bytes hold, the least significant first. -/
def leNat : List Byte → Nat
  | [] => 0
  | b :: r => b.toNat + 256 * leNat r

/-- The n low bytes of a number, the least significant first. -/
def leBytes : Nat → Nat → List Byte
  | 0, _ => []
  | n + 1, x => BitVec.ofNat 8 x :: leBytes n (x / 256)

/-! ## Lines of the LLC -/

/-- The bytes the banks hold: of a dirty line, those before the writes that made it dirty (R17, R328). -/
def State.bankByte (s : State) (a : Nat) : Byte :=
  match s.dirty.find? fun d => d.line = a / 64 with
  | some d => d.bank.getD (a % 64) 0
  | none => s.mem.byte a

/-- Whether the LLC writes the line of a location through to DRAM (R328; log 34). -/
def State.writesThrough (s : State) (a : Nat) : Bool := s.pins.any fun p => decide (p.1 ≤ a ∧ a < p.1 + p.2)

/-- Lines that a die's LLC can hold while some ways are carved off: what is carved off no longer caches (R17). -/
def llcLines (ways : Nat) : Nat := (Config.llcBytes - ways * Config.wayBytes) / 64

/-- The physical die whose banks hold a line (R17). -/
def DirtyLine.die (d : DirtyLine) : Nat := d.line / 2 ^ 31

/-- The first n dirty lines of a physical die, and every line of the others: the rest are written back. -/
def keepLines (die : Nat) : Nat → List DirtyLine → List DirtyLine
  | _, [] => []
  | 0, d :: r => if d.die = die then keepLines die 0 r else d :: keepLines die 0 r
  | n + 1, d :: r => if d.die = die then d :: keepLines die n r else d :: keepLines die (n + 1) r

/-- Carved-off ways of a physical die. -/
def State.waysOf (s : State) (die : Nat) : Nat :=
  (((s.dieMap.findIdx? fun d => d == die).bind fun i => s.dies[i]?).map Die.ways).getD 0

/-- A die's LLC holds no more dirty lines than its uncarved ways have room for; the oldest go back to the banks (R17). -/
def State.trimLlc (s : State) (die : Nat) : State :=
  { s with dirty := keepLines die (llcLines (s.waysOf die)) s.dirty }

/-- Note that the lines from a location up, n bytes long, become dirty in the LLC; the banks keep what they hold. A line that
the LLC writes through does not become dirty. -/
def State.markDirty (s : State) (a n : Nat) : State :=
  if isDram a ∧ 0 < n ∧ s.writesThrough a = false then
    (List.range ((a + n - 1) / 64 - a / 64 + 1)).foldl (fun t i =>
      let line := a / 64 + i
      if t.dirty.any fun d => d.line = line then t
      else ({ t with dirty := ⟨line, t.mem.read (line * 64) 64⟩ :: t.dirty } : State).trimLlc (line / 2 ^ 31)) s
  else s

/-- A write that goes through the LLC and leaves its lines dirty (R17). -/
def State.writeLlc (s : State) (a : Nat) (bs : List Byte) : State :=
  let t := s.markDirty a bs.length
  { t with mem := t.mem.write a bs }

/-- n bytes at a location as a number. -/
def State.loadNat (s : State) (a n : Nat) : Nat := leNat (s.mem.read a n)

/-! ## Errors of lines (R435, R450) -/

/-- Count events of a unit; counters saturate at 2^32 - 1 (R435). -/
def State.bump (s : State) (k : CounterKey) (unc cor : Nat) : State :=
  { s with counters :=
      if s.counters.any fun c => c.key = k then
        s.counters.map fun c => if c.key = k then
          { c with unc := min (c.unc + unc) (2 ^ 32 - 1), cor := min (c.cor + cor) (2 ^ 32 - 1) } else c
      else ⟨k, unc, cor⟩ :: s.counters }

/-- The counter of the lines of a physical die (R435). -/
def lineKey (row : Nat) : CounterKey := .lines (if isDsp (row * 16) then (row * 16 - 2 ^ 41) / 2 ^ 28 else row * 16 / 2 ^ 37)

/-- The first location / 16 of the line of a location. -/
def lineOf (a : Nat) : Nat := a / 64 * 4

/-- A line with an error is read (R450): a single-bit error is corrected, a soft error of a clean line ends, another stays; each is
counted. -/
def State.lineSeen (s : State) (row : Nat) : State :=
  match s.marks.find? fun e => e.row = row with
  | none => s
  | some e => match e.kind with
    | .single => ({ s with marks := s.marks.erase e } : State).bump (lineKey row) 0 1
    | .soft => ({ s with marks := s.marks.erase e } : State).bump (lineKey row) 1 0
    | .double => s.bump (lineKey row) 1 0

/-- Whether the line of a location is uncorrectable (R450). -/
def State.lineBad (s : State) (a : Nat) : Bool := s.marks.any fun e => e.row == lineOf a && e.kind != .single

/-- n bytes of one line, as the part's own reads of tables and code take them: those of an uncorrectable line are free (R450; log 64). -/
def State.lineNat (s : State) (a n : Nat) : Nat :=
  if s.lineBad a then leNat ((List.range n).map fun i => Config.freeByte s.fv (a + i)) else s.loadNat a n

/-- Some lines have been read so: their errors are found, and the free values taken (R450). -/
def State.linesSeen (s : State) (locs : List Nat) : State :=
  let t := ((locs.map lineOf).eraseDups).foldl State.lineSeen s
  if locs.any s.lineBad then { t with fv := t.fv + 1 } else t

end Sys2Proof.Machine
end

