-- ==== Sys2Proof/Machine/Translate.lean ====
section
/-! DEFINITION. Translation of space 0: the tree of descriptors, the checks of a leaf, the TLBs and the walk caches
(spec/09_memory_spaces.md R235 to R243). -/

namespace Sys2Proof.Machine

/-! ## Fields -/

/-- Bits hi down to lo of a number. -/
def fieldOf (x hi lo : Nat) : Nat := x / 2 ^ lo % 2 ^ (hi + 1 - lo)

/-- Bits hi down to lo of a doubleword (R1). -/
def Word.fieldAt (x : Word) (hi lo : Nat) : Nat := fieldOf x.toNat hi lo

/-- One bit of a doubleword. -/
def wbit (x : Word) (i : Nat) : Bool := x.getLsbD i

/-- A descriptor of 16 bytes (R237). -/
structure PageDesc where
  dw0 : Word
  dw1 : Word
  deriving DecidableEq, Repr

namespace PD

/-- Valid. -/
def v (d : PageDesc) : Bool := wbit d.dw0 0
/-- Table. -/
def t (d : PageDesc) : Bool := wbit d.dw0 1
def sz (d : PageDesc) : Nat := Word.fieldAt d.dw0 5 2
def w (d : PageDesc) : Bool := wbit d.dw0 6
def u (d : PageDesc) : Bool := wbit d.dw0 7
def x (d : PageDesc) : Bool := wbit d.dw0 8
def cow (d : PageDesc) : Bool := wbit d.dw0 9
def wr (d : PageDesc) : Bool := wbit d.dw0 10
def h (d : PageDesc) : Bool := wbit d.dw0 11
/-- The frame's physical address. -/
def frame (d : PageDesc) : Nat := Word.fieldAt d.dw0 43 16 * 4096
def wellDie (d : PageDesc) : Nat := Word.fieldAt d.dw0 56 54
def wellRow (d : PageDesc) : Nat := Word.fieldAt d.dw0 53 49
def wellCol (d : PageDesc) : Nat := Word.fieldAt d.dw0 48 44
def well (d : PageDesc) : Nat := Word.fieldAt d.dw0 56 44
def count (d : PageDesc) : Nat := Word.fieldAt d.dw1 15 0
def alias_ (d : PageDesc) : Bool := wbit d.dw1 16
/-- The physical address of the home descriptor. -/
def home (d : PageDesc) : Nat := Word.fieldAt d.dw1 63 28 * 16
/-- Reserved bits that are set. -/
def reserved (d : PageDesc) : Bool :=
  Word.fieldAt d.dw0 15 12 != 0 || Word.fieldAt d.dw0 63 57 != 0 || Word.fieldAt d.dw1 27 17 != 0

end PD

/-- Page size of a size code; 12 to 15 are reserved (R236). -/
def pageSize : Nat → Option Nat
  | 0 => some (2 ^ 12) | 1 => some (2 ^ 14) | 2 => some (2 ^ 16) | 3 => some (2 ^ 18) | 4 => some (2 ^ 20)
  | 5 => some (2 ^ 21) | 6 => some (2 ^ 22) | 7 => some (2 ^ 24) | 8 => some (2 ^ 26) | 9 => some (2 ^ 28)
  | 10 => some (2 ^ 30) | 11 => some (2 ^ 32)
  | _ => none

/-- Whether a size code is a leaf of the level (R235). -/
def leafLevel (level sz : Nat) : Bool :=
  match level with
  | 0 => decide (sz ≤ 3)
  | 1 => decide (4 ≤ sz ∧ sz ≤ 8)
  | 2 => decide (9 ≤ sz ∧ sz ≤ 11)
  | _ => false

/-- The index of an address in a table of the level (R235). -/
def vaIndex (level va : Nat) : Nat := va / 2 ^ (12 + 8 * level) % (if level = 5 then 16 else 256)

/-- Physical die of a logical die (R8). -/
def State.physDie (s : State) (d : Nat) : Nat := s.dieMap.getD d d

/-- Logical die of a physical die (R8). -/
def State.logDie (s : State) (d : Nat) : Nat := s.dieMap.findIdx (· == d)

/-- The descriptor at a device physical address, as the LLC holds it (R242); one in an uncorrectable line is free (log 64). -/
def State.descAt (s : State) (pa : Nat) : PageDesc := ⟨.ofNat 64 (s.lineNat pa 8), .ofNat 64 (s.lineNat (pa + 8) 8)⟩

/-- A table descriptor has every other field zero (R237). -/
def tableMalformed (level : Nat) (d : PageDesc) : Bool :=
  decide (level = 0) || Word.fieldAt d.dw0 15 2 != 0 || Word.fieldAt d.dw0 63 44 != 0 || d.dw1 != 0

/-- Whether the page lies outside the well it names (R240). -/
def State.outsideWell (s : State) (d : PageDesc) (size : Nat) : Bool :=
  let lo := (s.physDie (PD.wellDie d) * 1024 + 32 * PD.wellRow d + PD.wellCol d) * 2 ^ 27
  decide (PD.frame d < lo ∨ lo + 2 ^ 27 < PD.frame d + size)

/-- A malformed leaf of the level (R238 kind 5). -/
def State.leafMalformed (s : State) (level : Nat) (d : PageDesc) : Bool :=
  PD.reserved d || !leafLevel level (PD.sz d) ||
  match pageSize (PD.sz d) with
  | none => true
  | some size =>
    (if PD.h d then PD.frame d != 0 else decide (PD.frame d % size ≠ 0 ∨ Config.dramBytes < PD.frame d + size)) ||
    (PD.cow d && !PD.alias_ d) || (PD.alias_ d && PD.count d != 0) || (!PD.alias_ d && PD.home d != 0) ||
    (PD.cow d && (decide (2 ^ 26 < size) || PD.h d)) || (PD.wr d && PD.h d) ||
    (!PD.wr d && PD.well d != 0) || (PD.wr d && s.outsideWell d size)

/-- How a walk ends: a leaf for a TLB, or a kind of R238; with the table descriptors that a walk cache keeps, and where the descriptors
stand that it read. -/
structure Walked where
  leaf : Except Nat TlbEntry
  seen : List WalkEntry
  locs : List Nat

/-- What one level of a walk says: go on in the table below, or the end; with the descriptors read. -/
inductive WalkStep where
  | down (table : Nat) (seen : Option WalkEntry) (locs : List Nat)
  | stop (r : Except Nat TlbEntry) (locs : List Nat)

/-- One level of a walk (R235, R238). A table descriptor that the walk cache holds is not read again (R242, R243). -/
def State.walkLevel (s : State) (cache : List WalkEntry) (pasid : BitVec 20) (va level table : Nat) : WalkStep :=
  let index := va / 2 ^ (12 + 8 * level)
  match cache.find? fun e => e.pasid = pasid ∧ e.level = level ∧ e.index = index with
  | some e => .down e.table none []
  | none =>
    let a := table + 16 * vaIndex level va
    let d := s.descAt a
    if !PD.v d then .stop (.error 0) [a]
    else if PD.t d then
      if tableMalformed level d then .stop (.error 5) [a]
      else .down (PD.frame d) (if 2 ≤ level then some ⟨pasid, level, index, PD.frame d⟩ else none) [a]
    else if s.leafMalformed level d then .stop (.error 5) [a]
    else
      let size := (pageSize (PD.sz d)).getD 4096
      .stop (.ok ⟨pasid, va / size * size, size, d.dw0,
        if PD.alias_ d then some (PD.count (s.descAt (PD.home d))) else none⟩) (if PD.alias_ d then [a, PD.home d] else [a])

/-- The walk from a table downward, through at most n levels (R235). -/
def State.walkFrom (s : State) (cache : List WalkEntry) (pasid : BitVec 20) (va : Nat) :
    Nat → Nat → List WalkEntry → List Nat → Walked
  | 0, _, seen, locs => ⟨.error 5, seen, locs⟩
  | n + 1, table, seen, locs =>
    match s.walkLevel cache pasid va n table with
    | .stop r l => ⟨r, seen, l ++ locs⟩
    | .down t e l => s.walkFrom cache pasid va n t (e.toList ++ seen) (l ++ locs)

/-- The walk of an address under a PASID; one with no bound root fails with kind 0 (R235). -/
def State.walk (s : State) (cache : List WalkEntry) (pasid : BitVec 20) (va : Nat) : Walked :=
  match s.roots.find? fun r => r.pasid = pasid with
  | none => ⟨.error 0, [], []⟩
  | some r => s.walkFrom cache pasid va 6 r.root [] []

/-- The entry of a TLB that maps an address (R242). -/
def tlbFind (tlb : List TlbEntry) (pasid : BitVec 20) (va : Nat) : Option TlbEntry :=
  tlb.find? fun e => e.pasid = pasid ∧ e.base ≤ va ∧ va < e.base + e.size

/-- Replace the die of an index. -/
def State.modDie (s : State) (d : Nat) (f : Die → Die) : State := { s with dies := s.dies.modify d f }

/-- Replace the herd of an index. -/
def State.modHerd (s : State) (h : Nat) (f : Herd → Herd) : State := { s with herds := s.herds.modify h f }

/-- A second-level TLB serves a miss: from its entries, else by a walk, whose leaf and table descriptors it keeps
(R242). The walk finds the errors of the lines that it reads (R450). -/
def State.serveMiss (s : State) (die : Nat) (pasid : BitVec 20) (va : Nat) : State × Except Nat TlbEntry :=
  match s.dies[die]? with
  | none => (s, .error 0)
  | some d =>
    match tlbFind d.tlb pasid va with
    | some e => (s, .ok e)
    | none =>
      let r := s.walk d.walks pasid va
      ((s.linesSeen r.locs).modDie die fun x => { x with
        tlb := (match r.leaf with
          | .ok e => (e :: x.tlb).take 32768
          | .error _ => x.tlb)
        walks := r.seen ++ x.walks }, r.leaf)

/-- The translation of an address for a herd: its TLB, else its die's (R242). -/
def State.lookup (s : State) (herd : Nat) (pasid : BitVec 20) (va : Nat) : State × Except Nat TlbEntry :=
  match (s.herds[herd]?).bind fun x => tlbFind x.tlb pasid va with
  | some e => (s, .ok e)
  | none =>
    match s.serveMiss (herd / 16) pasid va with
    | (t, .ok e) => (t.modHerd herd fun x => { x with tlb := (e :: x.tlb).take 2048 }, .ok e)
    | r => r

/-- What an access does. -/
structure Intent where
  user  : Bool
  write : Bool
  fetch : Bool
  deriving DecidableEq, Repr

/-- The checks at the leaf, in their order (R238). -/
def leafKind (e : TlbEntry) (i : Intent) : Option Nat :=
  if i.user && !wbit e.dw0 7 then some 2
  else if i.fetch && !wbit e.dw0 8 then some 3
  else if i.write && !wbit e.dw0 6 then some 1
  else if i.write && decide (1 < e.count.getD 0) then some 4
  else none

/-- How a translation ends: a location, a kind of R238, or a wait for the host (R48). -/
inductive Xlat where
  | loc  (l : Nat) (host : Bool)
  | kind (k : Nat)
  | wait
  deriving DecidableEq, Repr

/-- Whether a PASID is being retired: requests to the host for it are refused (R74). -/
def State.retiring (s : State) (pasid : BitVec 20) : Bool :=
  match s.tahr.mgmt with
  | some (.retire p _) => p == pasid
  | _ => false

/-- The host's translation of a page (R48, R239): held from ATS, refused once, refused for a PASID that is being retired (R74),
or asked for, with at most 512 requests outstanding. -/
def State.hostPage (s : State) (pasid : BitVec 20) (va : Nat) : State × Xlat :=
  match s.pages.find? fun p => p.pasid = pasid ∧ p.page = va / 4096 with
  | some p =>
    if p.refused then ({ s with pages := s.pages.erase p }, .kind 6)
    else match p.host with
      | some a => (s, .loc (hostLoc (a + va % 4096)) true)
      | none => (s, .wait)
  | none =>
    if s.retiring pasid then (s, .kind 6)
    else if (s.pages.filter fun p => p.host.isNone && !p.refused).length < 512 then
      ({ s with pages := ⟨pasid, va / 4096, none, false⟩ :: s.pages }, .wait)
    else (s, .wait)

/-- A write reaches a frame through a page with wr set or not: the LLC knows its lines by it from then on (R328; log 34). -/
def State.pin (s : State) (base size : Nat) (wr : Bool) : State :=
  if wr then
    if s.pins.contains (base, size) then s
    else { s with
      pins := (base, size) :: s.pins
      dirty := s.dirty.filter fun d => !decide (base ≤ d.line * 64 ∧ d.line * 64 < base + size) }
  else { s with pins := s.pins.filter fun p => !decide (p.1 < base + size ∧ base < p.1 + p.2) }

/-- The location of an address whose leaf is at hand (R236, R238, R239). -/
def State.throughLeaf (s : State) (pasid : BitVec 20) (va : Nat) (i : Intent) (r : Except Nat TlbEntry) : State × Xlat :=
  match r with
  | .error k => (s, .kind k)
  | .ok e =>
    match leafKind e i with
    | some k => (s, .kind k)
    | none =>
      if wbit e.dw0 11 then s.hostPage pasid va
      else
        let frame := Word.fieldAt e.dw0 43 16 * 4096
        (if i.write then s.pin frame e.size (wbit e.dw0 10) else s, .loc (frame + (va - e.base)) false)

/-- Translate an address for a herd's agents (R235). -/
def State.translate (s : State) (herd : Nat) (pasid : BitVec 20) (va : Nat) (i : Intent) : State × Xlat :=
  let r := s.lookup herd pasid va
  r.1.throughLeaf pasid va i r.2

/-- Translate an address for firmware or a die pump, as a user access (R235). -/
def State.fwTranslate (s : State) (pasid : BitVec 20) (va : Nat) (write : Bool) : State × Xlat :=
  let r := s.walk [] pasid va
  (s.linesSeen r.locs).throughLeaf pasid va ⟨true, write, false⟩ r.leaf

/-! ## Invalidation (R243) -/

/-- Whether an entry is one that tlbinv or tlbinvall names. -/
def TlbEntry.named (pasid : Option (BitVec 20)) (va : Option Nat) (e : TlbEntry) : Bool :=
  (match pasid with
    | some p => e.pasid == p
    | none => true) &&
  (match va with
    | some a => decide (e.base ≤ a ∧ a < e.base + e.size)
    | none => true)

/-- Drop what a tlbinv names from every herd and die TLB; a tlbinvall drops walk-cache entries as well (R243). -/
def State.dropTlb (s : State) (pasid : Option (BitVec 20)) (va : Option Nat) : State :=
  { s with
    herds := s.herds.map fun h => { h with tlb := h.tlb.filter fun e => !e.named pasid va }
    dies := s.dies.map fun d => { d with
      tlb := d.tlb.filter fun e => !e.named pasid va
      walks := if va.isNone then [] else d.walks } }

end Sys2Proof.Machine
end

