-- ==== Sys2Proof/Machine/Ops.lean ====
section
/-! DEFINITION. The named operations that the meanings share: the core that executes, its registers and scoreboard, the front
end, traps and the return from them, buffer records, and the checks of an access. -/

namespace Sys2Proof.Machine

/-- What a step answers. -/
abbrev Out := Host.Outcome State Fault Refusal

/-! ## The core that executes -/

/-- A herd's running context. -/
def State.ctx? (s : State) (h : Nat) : Option HerdCtx := (s.herds[h]?).map Herd.act

/-- A core of a herd's running context. -/
def State.core? (s : State) (h c : Nat) : Option Core := (s.ctx? h).bind fun x => x.cores[c]?

/-- Replace a herd's running context. -/
def State.modCtx (s : State) (h : Nat) (f : HerdCtx → HerdCtx) : State := s.modHerd h fun x => { x with act := f x.act }

/-- Replace a core of a herd's running context. -/
def State.modCore (s : State) (h c : Nat) (f : Core → Core) : State :=
  s.modCtx h fun x => { x with cores := x.cores.modify c f }

/-- Replace the executing core. -/
def State.putMy (s : State) (x : Core) : State := s.modCore s.cur.1 s.cur.2 fun _ => x

/-- The executing core's herd context. -/
def State.myCtx (s : State) : HerdCtx := (s.ctx? s.cur.1).getD .idle

/-- The PASID that a herd's accesses are translated under (R235). -/
def State.pasidOf (s : State) (h : Nat) : BitVec 20 :=
  match (s.ctx? h).bind HerdCtx.held with
  | some n => n.pasid
  | none => 0

/-- Act on the executing core; a core that does not exist is a fault of the model. -/
def State.onMy (s : State) (k : Core → Out) : Out :=
  match s.core? s.cur.1 s.cur.2 with
  | some c => k c
  | none => .fault .noSuchUnit

/-- Act on a named core. -/
def State.onCore (s : State) (h c : Nat) (k : Core → Out) : Out :=
  match s.core? h c with
  | some x => k x
  | none => .fault .noSuchUnit

/-! ## Registers and the scoreboard -/

/-- A scalar register; s0 reads as zero (R154). -/
def Core.gs (c : Core) (r : BitVec 5) : Word := if r = 0 then 0 else c.s.getD r.toNat 0

/-- Mark a register of the bank present (R407). -/
def Core.present (c : Core) (r : BankReg) : Core := { c with absent := c.absent.filter (· != r) }

/-- Write a scalar register; a write to s0 is discarded (R154). -/
def Core.ps (c : Core) (r : BitVec 5) (v : Word) : Core :=
  if r = 0 then c else { c with s := c.s.set r.toNat v, absent := c.absent.filter (· != BankReg.s r) }

/-- Whether a register of the bank waits to be fetched (R407). -/
def Core.isAbsent (c : Core) (r : BankReg) : Bool := c.absent.contains r

/-- Whether a scalar register is pending (R156). -/
def Core.isPend (c : Core) (r : BitVec 5) : Bool := r != 0 && c.pend.getLsbD r.toNat

/-- Whether a word that reads and writes these scalar registers may issue (R156, R407). -/
def Core.free (c : Core) (reads writes : List (BitVec 5)) : Bool :=
  reads.all (fun r => !c.isPend r && !c.isAbsent (.s r)) && writes.all (fun r => !c.isPend r)

/-- Set or clear a pending bit (R156). -/
def Core.setPend (c : Core) (r : BitVec 5) (on : Bool) : Core :=
  if r = 0 then c
  else { c with
    pend := if on then c.pend ||| (1#32 <<< r.toNat) else c.pend &&& ~~~(1#32 <<< r.toNat)
    absent := c.absent.filter (· != BankReg.s r) }

/-- A result that takes more than 1 ck: the register is pending until it lands (R156). -/
def Core.post (c : Core) (r : BitVec 5) (v : Word) : Core :=
  if r = 0 then c else { c.setPend r true with landings := c.landings ++ [⟨r, v⟩] }

/-- A predicate register; p0 is all ones (R112). -/
def Core.gp (c : Core) (n : BitVec 3) : Word := if n = 0 then .allOnes 64 else c.p.getD n.toNat 0

/-- A loop register (R168). -/
def Core.gl (c : Core) (n : BitVec 3) : BitVec 32 := c.l.getD n.toNat 0

/-- A buffer record (R221). -/
def Core.gb (c : Core) (n : BitVec 4) : Image := c.b.getD n.toNat 0

/-- A stream register (R294). -/
def Core.gq (c : Core) (n : BitVec 4) : Image := c.q.getD n.toNat 0

/-- A vector register (R187). -/
def Core.gv (c : Core) (n : BitVec 5) : Slice := c.v.getD n.toNat 0

/-- Every register of the bank that a word reads is present (R407). -/
def Core.here (c : Core) (rs : List BankReg) : Bool := rs.all fun r => !c.isAbsent r

/-! ## Going on to the next word -/

/-- The address of the next body word of a loop nest, or the end of the nest (R211). -/
def nextIndices : List Nat → List Nat → Option (List Nat)
  | c :: cs, j :: js => if j + 1 < c then some ((j + 1) :: js) else (nextIndices cs js).map (0 :: ·)
  | _, _ => none

/-- Whether the loop state is the one whose body word stands at the pc (R212). -/
def Core.inLoop (c : Core) : Bool :=
  match c.loop with
  | some l => l.body[l.pos]? == some c.pc
  | none => false

/-- Unissued words in a core's buffer (R138). -/
def Core.drift (c : Core) : Nat := c.buf.length

/-- The core after it has issued the word at its pc: n bytes on, or on in its loop nest (R211). The word leaves the issue
buffer unless it is a body word (R138, R211). -/
def Core.advance (c : Core) (n : Nat) : Core :=
  match c.inLoop, c.loop with
  | true, some l =>
    if l.pos + 1 < l.body.length then
      { c with pc := l.body.getD (l.pos + 1) 0, loop := some { l with pos := l.pos + 1 }, seq := c.seq + 1 }
    else match nextIndices l.counts l.idx with
      | some idx => { c with pc := l.body.getD 0 0, loop := some { l with pos := 0, idx := idx }, seq := c.seq + 1 }
      | none => { c with pc := l.after, loop := none, seq := c.seq + 1 }
  | _, _ => { c with pc := c.pc + .ofNat 56 n, buf := c.buf.drop 1, seq := c.seq + 1 }

/-- The executing core goes on behind a word of n bytes, and the next word issues no earlier than gap + 1 ck on (R117). -/
def State.done (s : State) (c : Core) (n gap : Nat) : State :=
  s.putMy { c.advance n with issueAt := s.now + 1 + gap }

/-- The executing core goes on behind a scalar word. -/
def State.fin (s : State) (c : Core) : State := s.done c 4 0

/-- The executing core goes on at an address, as a branch of a stray or a word that the front end follows (R140). -/
def State.jump (s : State) (c : Core) (a : BitVec 56) : State :=
  s.putMy { c with pc := a, buf := c.buf.drop 1, seq := c.seq + 1, issueAt := s.now + 1 }

/-! ## The front end -/

/-- Ranks of the cores of a herd for which a property holds, lowest first. -/
def HerdCtx.ranks (x : HerdCtx) (f : Core → Bool) : List Nat :=
  (List.range x.cores.length).filter fun i => match x.cores[i]? with
    | some c => f c
    | none => false

def Core.isAttached (c : Core) : Bool := c.front == .attached
def Core.isLive (c : Core) : Bool := c.front != .halted

/-- One bit for each core for which a property holds. -/
def HerdCtx.mask (x : HerdCtx) (f : Core → Bool) : BitVec 8 :=
  (x.ranks f).foldl (fun m i => m ||| (1#8 <<< i)) 0

/-- The join release (R145): when every live core waits, those at the least address go on together. -/
def HerdCtx.joinRelease (x : HerdCtx) : HerdCtx :=
  let live := x.ranks Core.isLive
  if live.isEmpty then x
  else
    let at_ := live.map fun i => ((x.cores[i]?).bind Core.join)
    if at_.any Option.isNone then x
    else
      let least := (at_.filterMap id).foldl (fun m a => if a.toNat < m.toNat then a else m) (BitVec.allOnes 56)
      { x with
        stream := least + 4
        stopped := false
        diverge := none
        cores := x.cores.map fun c =>
          if c.front == .halted then c
          else if c.join = some least then
            { c with join := none, front := .attached, pc := least + 4, buf := [] }
          else { c with front := .stray } }

/-- The end of an iflush of the shared stream: every attached core has issued it, the herd's code is fetched anew and every buffer
is emptied, and they go on behind it (R148). -/
def HerdCtx.flushDone (x : HerdCtx) : HerdCtx :=
  let att := x.ranks Core.isAttached
  if att.isEmpty || !(att.all fun i => ((x.cores[i]?).map Core.block) == some (some .iflush)) then x
  else { x with
    code := []
    stopped := false
    stream := ((att.head?.bind fun i => (x.cores[i]?).map Core.pc).getD x.stream) + 4
    cores := x.cores.map fun c =>
      if c.block = some .iflush then { c with block := none, pc := c.pc + 4, buf := [], seq := c.seq + 1 }
      else { c with buf := [] } }

/-- What the front end does whenever a core starts waiting, halts or leaves the attached set (R145, R148). -/
def HerdCtx.settle (x : HerdCtx) : HerdCtx := x.flushDone.joinRelease

/-- The front end of a herd settles. -/
def State.settle (s : State) (h : Nat) : State := s.modCtx h HerdCtx.settle

/-- The core leaves the attached set and discards the unissued words of its buffer (R142). -/
def Core.detach (c : Core) : Core :=
  if c.front == .attached then { c with front := .stray, buf := [] } else c

/-! ## Traps -/

/-- Causes of a trap (R393). -/
inductive Cause where
  | illegal (g : Granule)
  | privilege (g : Granule)
  | misalignment (ptr : Word)
  | bounds (peer : Bool) (ptr : Word)
  | translation (kind : Nat) (va : Word)
  | reconstruction (detail : Nat) (v : Word)
  | undeclaredMatrix
  | semOverflow (k : BitVec 8)
  | joinMisuse
  | trap (code : BitVec 10)
  | ebreak
  | notice (code : BitVec 16)
  deriving DecidableEq, Repr

/-- The cause code (R393). -/
def Cause.code : Cause → Nat
  | .illegal _ => 0x01 | .privilege _ => 0x02 | .misalignment _ => 0x03 | .bounds _ _ => 0x04 | .translation _ _ => 0x05
  | .reconstruction _ _ => 0x06 | .undeclaredMatrix => 0x07 | .semOverflow _ => 0x08 | .joinMisuse => 0x09
  | .trap _ => 0x0A | .ebreak => 0x0B | .notice _ => 0x0C

/-- The cause detail (R393). -/
def Cause.detail : Cause → Nat
  | .bounds peer _ => if peer then 1 else 0
  | .translation k _ => k
  | .reconstruction d _ => d
  | _ => 0

/-- The value for xtval (R393). -/
def Cause.value : Cause → Word
  | .illegal g => g.zeroExtend 64
  | .privilege g => g.zeroExtend 64
  | .misalignment p => p
  | .bounds _ p => p
  | .translation _ v => v
  | .reconstruction _ v => v
  | .semOverflow k => k.zeroExtend 64
  | .trap c => c.zeroExtend 64
  | .notice c => c.zeroExtend 64
  | .undeclaredMatrix | .joinMisuse | .ebreak => 0

/-- trap and ebreak are taken behind the word, every other cause at it (R393). -/
def Cause.after : Cause → Nat
  | .trap _ | .ebreak => 4
  | _ => 0

def Cause.isNotice : Cause → Bool
  | .notice _ => true
  | _ => false

/-- xcause for a cause, held at an access-queue head or not (R392). -/
def Cause.word (t : Cause) (aq : Bool) : Word := .ofNat 64 (t.code + 256 * t.detail + 65536 * aq.toNat)

/-- The trap registers after trap entry (R394). -/
def XRegs.enter (x : XRegs) (t : Cause) (aq : Bool) (epc : BitVec 56) : XRegs :=
  { x with
    pp := x.priv
    pie := x.ie
    intrap := true
    priv := true
    ie := false
    np := if t.isNotice then false else x.np
    xepc := epc.zeroExtend 64
    xcause := t.word aq
    xtval := t.value }

/-- A double fault posts a report with end = 1 and code 0, and the core ends when it is accepted (R397). -/
def Core.doubleFault (c : Core) (t : Cause) (aq : Bool) (epc : BitVec 56) : Core :=
  { c with
    join := none
    block := some (.report 0 true (t.word aq) (epc.zeroExtend 64) t.value) }

/-- Trap entry of a core (R142, R394): the word it waited in is withdrawn, it detaches, the unissued words of its buffer are
discarded, and it goes on at xvec. -/
def Core.enterTrap (c : Core) (t : Cause) (aq : Bool) : Core :=
  let epc := (c.join.getD c.pc) + .ofNat 56 t.after
  if c.x.intrap && !t.isNotice then c.doubleFault t aq epc
  else { c.detach with
    x := c.x.enter t aq epc
    buf := []
    join := none
    block := none
    absent := c.absent.filter fun r => r != .x .xepc && r != .x .xcause && r != .x .xtval
    pc := c.x.xvec.truncate 56 }

/-- Trap entry of a core, and what its leaving means to the front end (R142, R394). -/
def State.enterTrap (s : State) (h c : Nat) (t : Cause) (aq : Bool) : State :=
  (s.modCore h c fun x => { x.enterTrap t aq with issueAt := s.now + 8 }).settle h

/-- The executing core takes the precise trap of its word (R393). -/
def State.trap (s : State) (t : Cause) : Out := .next (s.enterTrap s.cur.1 s.cur.2 t false)

/-- The first granule of a word, as xtval holds it (R393). -/
def firstGranule (i : Instr) : Granule := (encode i).headD 0

/-- The privilege trap of a supervisor word at user level (R130, R389). -/
def State.privileged (s : State) (i : Instr) (k : Core → Out) : Out :=
  s.onMy fun c => if c.x.priv then k c else s.trap (.privilege (firstGranule i))

/-- xret (R401): pc, privilege and ie come back, and the core goes on as a stray. The access-queue head that was trapped
for performs again (R259), and a word that took a reconstruction fault reads directly when the core returns to it (R229). -/
def Core.xret (c : Core) : Core :=
  { c.detach with
    pc := c.x.xepc.truncate 56
    buf := []
    x := { c.x with priv := c.x.pp, ie := c.x.pie, intrap := false }
    aq := c.aq.map fun q => q.map fun e => if e.reported then { e with held := none, reported := false } else e
    faulted := none
    direct := if c.faulted = some (c.x.xepc.truncate 56) then some (c.seq + 1) else c.direct
    seq := c.seq + 1 }

/-- Whether the next scratchpad read of a core is reconstructed and fails: not that of a word which reads directly (R229). -/
def Core.reconMiss (c : Core) : Bool := c.recon && c.direct != some c.seq

/-- The core after the reconstruction fault of its word (R229). -/
def Core.reconFault (c : Core) : Core := { c with recon := false, faulted := some c.pc }

/-! ## Buffer records (R221) -/

/-- A record, field by field. -/
structure Rec where
  base    : Word
  extent  : BitVec 32
  stride0 : BitVec 32
  stride1 : BitVec 32
  fmt     : BitVec 8
  bounds  : BitVec 4
  colour  : BitVec 3
  rsv     : Bool
  deriving DecidableEq, Repr

/-- The record of an image. -/
def recOf (i : Image) : Rec where
  base := i.extractLsb' 0 64
  extent := i.extractLsb' 64 32
  stride0 := i.extractLsb' 96 32
  stride1 := i.extractLsb' 128 32
  fmt := i.extractLsb' 160 8
  bounds := i.extractLsb' 168 4
  colour := i.extractLsb' 172 3
  rsv := i.extractLsb' 175 17 != 0 || i.extractLsb' 192 64 != 0

/-- The first line of R222. -/
def Rec.ok (r : Rec) : Bool := !r.rsv && r.fmt.extractLsb' 4 4 == 0 && decide (r.bounds.toNat ≤ 3)

/-- The element type that fmt names; code 0xF is none (R115, R221). -/
def Rec.elem (r : Rec) : Option ElemType := elemOfCode (r.fmt.toNat % 16)

/-- A record's byte strides. -/
def Rec.str0 (r : Rec) : Int := r.stride0.toInt
def Rec.str1 (r : Rec) : Int := r.stride1.toInt

/-- The tagged pointer at an offset: the address wraps within 56 bits (R222). -/
def ptrAt (base : Word) (o : Int) : Word :=
  (base.extractLsb' 56 8) ++ (BitVec.ofInt 56 (base.extractLsb' 0 56).toNat + BitVec.ofInt 56 o)

/-- Space, rank and address of a pointer (R216). -/
def pSpace (p : Word) : Nat := p.toNat / 2 ^ 61
def pRank (p : Word) : Nat := p.toNat / 2 ^ 56 % 32
def pAddr (p : Word) : Nat := p.toNat % 2 ^ 56

/-- The record and bounds checks (R222): a pointer, nothing where bounds mode zero discards the access, or a trap. -/
def Rec.check (r : Rec) (o : Int) (n : Nat) : Except Cause (Option Word) :=
  if !r.ok then .error (.bounds false 0)
  else
    let ext : Int := r.extent.toNat
    let p := ptrAt r.base o
    match r.bounds.toNat with
    | 0 => if o < 0 ∨ ext < o + n then .error (.bounds false p) else .ok (some p)
    | 1 => if o < 0 ∨ ext < o + n then .ok none else .ok (some p)
    | 2 =>
      if ext = 0 then .error (.bounds false p)
      else
        let w := o % ext
        let q := ptrAt r.base w
        if ext < w + n then .error (.bounds false q) else .ok (some q)
    | _ => .ok (some p)

/-! ## Spaces (R217) -/

/-- Retired groups of a core's scratchpad (R231). -/
def CorePhys.deadGroups (p : CorePhys) : List Nat :=
  p.groups.zipIdx.filterMap fun g => if g.1.dead then some g.2 else none

/-- The capacity that a core's sound groups leave (R231). -/
def CorePhys.capacity (p : CorePhys) : Nat := Config.scratchBytes - 2 ^ 17 * p.deadGroups.length

/-- A core's scratchpad capacity (R231). -/
def State.capacity (s : State) (h c : Nat) : Nat :=
  match (s.herds[h]?).bind fun x => x.phys[c]? with
  | some x => x.capacity
  | none => 0

/-- Bytes of the die scratchpad of a logical die that an access may reach (R233, R234). -/
def State.dspSize (s : State) (d : Nat) : Nat :=
  match s.dies[d]? with
  | some x => 2 ^ 25 * (match x.change with
    | some w => min x.ways w.target
    | none => x.ways)
  | none => 0

/-- Where an access reaches. -/
inductive Place where
  | loc  (l : Nat) (host : Bool)
  | peer (port : Bool) (addr : Nat)
  deriving DecidableEq, Repr

/-- The check of a space without translation: a place, or the address to translate (R217). -/
inductive Spaced where
  | place (p : Place)
  | virt  (va : Nat)
  | bad
  deriving DecidableEq, Repr

/-- The space check of an access of n bytes by a core (R217). -/
def State.space (s : State) (h c : Nat) (p : Word) (n : Nat) (load : Bool) : Spaced :=
  let a := pAddr p
  let r := pRank p
  match pSpace p with
  | 0 => .virt a
  | 1 => if s.capacity h c < a + n then .bad else .place (.loc (scratchLoc h c a) false)
  | 2 => if 7 < r ∨ s.capacity h r < a + n then .bad else .place (.loc (scratchLoc h r a) false)
  | 3 => if 7 < r ∨ s.dspSize r < a + n then .bad else .place (.loc (dspLoc (s.physDie r) a) false)
  | 4 => if 1 < r ∨ load then .bad else .place (.peer (r == 1) a)
  | _ => .bad

/-- How the checks of an access end. -/
inductive Reach where
  | at_   (ptr : Word) (p : Place)
  | none_ (ptr : Word)
  | fail  (t : Cause)
  | wait
  deriving DecidableEq, Repr

/-- What an access asks for. -/
structure Ask where
  n     : Nat
  align : Nat
  write : Bool
  load  : Bool
  deriving DecidableEq, Repr

/-- Whether the footprint of the context that a herd spills still covers the location (R414): the access waits. -/
def State.spillHolds (s : State) (l : Nat) : Bool :=
  isScratch l &&
  match s.herds[(l - 2 ^ 42) / 2 ^ 23]? with
  | some x => match x.old.bind HerdCtx.held with
    | some n => decide ((l - 2 ^ 42) % 2 ^ 20 < n.fp * 4096)
    | none => false
  | none => false

/-- The checks of an access at a pointer by a core: bounds of its space, alignment, then translation (R217, R248; log 21). -/
def State.reach (s : State) (h c : Nat) (user : Bool) (p : Word) (a : Ask) : State × Reach :=
  match s.space h c p a.n a.load with
  | .bad => (s, .fail (.bounds false p))
  | sp =>
    if pAddr p % a.align ≠ 0 then (s, .fail (.misalignment p))
    else match sp with
      | .place (.loc l x) => if s.spillHolds l then (s, .wait) else (s, .at_ p (.loc l x))
      | .place q => (s, .at_ p q)
      | .virt va =>
        match s.translate h (s.pasidOf h) va ⟨user, a.write, false⟩ with
        | (t, .loc l host) => (t, .at_ p (.loc l host))
        | (t, .kind k) => (t, .fail (.translation k (.ofNat 64 va)))
        | (t, .wait) => (t, .wait)
      | .bad => (s, .fail (.bounds false p))

/-- The checks of an access of a core through a record (R222, R217). -/
def State.through (s : State) (h c : Nat) (user : Bool) (r : Rec) (o : Int) (a : Ask) : State × Reach :=
  match r.check o a.n with
  | .error t => (s, .fail t)
  | .ok none => (s, if pAddr (ptrAt r.base o) % a.align ≠ 0 then .fail (.misalignment (ptrAt r.base o))
      else .none_ (ptrAt r.base o))
  | .ok (some p) => s.reach h c user p a

end Sys2Proof.Machine
end

