-- ==== Sys2Proof/Machine/Fetch.lean ====
section
/-! DEFINITION. Fetching a word and giving it to the cores of a shared stream (spec/06_herd_front_end.md R137 to R153,
05_formats_and_opcode_map.md R107). -/

namespace Sys2Proof.Machine

/-- How fetching a word ends: the instruction with its length in bytes, the trap it raises, or a wait for the host. -/
inductive FetchRes where
  | word (i : Instr) (n : Nat)
  | bad  (t : Cause)
  | wait

/-- The granule that the front end holds of an address (R148). -/
def heldGranule (code : List Fetched) (pasid : BitVec 20) (a : BitVec 56) : Option Granule :=
  (code.find? fun f => f.addr = a ∧ f.pasid = pasid).map Fetched.word

/-- A granule at an address whose location is at hand: the one held, else the one in memory; an uncorrectable line gives a free one
(R450; log 64). -/
def HerdCtx.granule (x : HerdCtx) (s : State) (pasid : BitVec 20) (a : BitVec 56) (l : Nat) : Granule :=
  (heldGranule x.code pasid a).getD (.ofNat 32 (s.lineNat l 4))

/-- The n granules from an address up. -/
def HerdCtx.granulesAt (x : HerdCtx) (s : State) (pasid : BitVec 20) : BitVec 56 → Nat → Nat → List Granule
  | _, _, 0 => []
  | a, l, n + 1 => x.granule s pasid a l :: x.granulesAt s pasid (a + 4) (l + 4) n

/-- Where the n granules from an address up are read that the front end does not hold. -/
def HerdCtx.granuleLocs (x : HerdCtx) (pasid : BitVec 20) (a : BitVec 56) (l n : Nat) : List Nat :=
  ((List.range n).filter fun i => (heldGranule x.code pasid (a + .ofNat 56 (4 * i))).isNone).map fun i => l + 4 * i

/-- Keep fetched granules until an iflush (R148). -/
def holdCode (code : List Fetched) (pasid : BitVec 20) : BitVec 56 → List Granule → List Fetched
  | _, [] => code
  | a, g :: r =>
    match heldGranule code pasid a with
    | some _ => holdCode code pasid (a + 4) r
    | none => ⟨pasid, a, g⟩ :: holdCode code pasid (a + 4) r

/-- The word whose granules stand at an address: a word must end in its 64-byte block (R107). -/
def wordOf (a : BitVec 56) (gs : List Granule) : FetchRes :=
  match gs with
  | [] => .wait
  | g :: _ =>
    match granules g with
    | none => .bad (.illegal g)
    | some n =>
      if 16 < a.toNat % 64 / 4 + n then .bad (.illegal g)
      else match decodeGranules (gs.take n) with
        | .ok i => .word i (4 * n)
        | .error _ => .bad (.illegal g)

/-- Fetch the word at an address for a core at a privilege level (R107, R235, R238); the fetch finds the errors of the line that it
reads (R450). -/
def State.fetchAt (s : State) (h : Nat) (user : Bool) (a : BitVec 56) : State × FetchRes :=
  let pasid := s.pasidOf h
  match s.translate h pasid a.toNat ⟨user, false, true⟩ with
  | (t, .kind k) => (t, .bad (.translation k (a.zeroExtend 64)))
  | (t, .wait) => (t, .wait)
  | (t, .loc l _) =>
    match t.ctx? h with
    | none => (t, .wait)
    | some x =>
      let n := match granules (x.granule t pasid a l) with
        | some n => if 16 < a.toNat % 64 / 4 + n then 1 else n
        | none => 1
      let gs := x.granulesAt t pasid a l n
      ((t.linesSeen (x.granuleLocs pasid a l n)).modCtx h fun y => { y with code := holdCode y.code pasid a gs }, wordOf a gs)

/-- The granules that the front end holds of a word of n granules, if it holds them all. -/
def heldWord (code : List Fetched) (pasid : BitVec 20) (a : BitVec 56) (n : Nat) : Option (List Granule) :=
  (List.range n).mapM fun i => heldGranule code pasid (a + .ofNat 56 (4 * i))

/-- The word at its pc that a core's issue buffer holds; body words of a loop nest are not in it (R138, R211). -/
def Core.bufHead (x : Core) : Option BufWord := if x.inLoop then none else x.buf.head?.filter fun w => w.addr == x.pc

/-- The next word of a core: a body word of the loop nest under way comes from its loop buffer (R211), another from the issue buffer
where it stands there (R138); else it is fetched. -/
def State.fetchNext (s : State) (h : Nat) (x : Core) : State × FetchRes :=
  match x.bufHead with
  | some w => (s, .word w.word w.len)
  | none =>
    match if x.inLoop then (s.ctx? h).bind fun y => heldWord y.code (s.pasidOf h) x.pc 3 else none with
    | some gs => (s, wordOf x.pc gs)
    | none => s.fetchAt h (!x.x.priv) x.pc

/-! ## The body of a vloop (R210) -/

/-- Whether an instruction is a vector word with the loop-body bit set. -/
def vhdrOf : Instr → Option VHdr
  | .vadd h _ _ _ | .vsub h _ _ _ | .vmul h _ _ _ | .vmulh h _ _ _ | .vmin h _ _ _ | .vmax h _ _ _ | .vabs h _ _
  | .vneg h _ _ | .vmac h _ _ _ | .vdot4 h _ _ _ | .vfma h _ _ _ | .vfms h _ _ _ | .vfnma h _ _ _ | .vdiv h _ _ _
  | .vsqrt h _ _ | .vrsqrt h _ _ | .vrcp h _ _ | .vexp2 h _ _ | .vlog2 h _ _ | .vtanh h _ _ | .vsigm h _ _
  | .vscale h _ _ _ | .vand h _ _ _ | .vor h _ _ _ | .vxor h _ _ _ | .vandn h _ _ _ | .vsll h _ _ _ | .vsrl h _ _ _
  | .vsra h _ _ _ | .vclz h _ _ | .vpopc h _ _ | .vmov h _ _ | .vsel h _ _ _ | .vcmp h _ _ _ _ | .pand h _ _ _
  | .por h _ _ _ | .pxor h _ _ _ | .pnot h _ _ | .pset h _ _ | .pget h _ _ | .pcnt h _ _ | .pfirst h _ _
  | .vcvt h _ _ _ | .vcvtsc h _ _ _ _ | .vpack h _ _ _ _ | .vunpack h _ _ _ _ | .vround h _ _ | .vql4 h _ _ _
  | .vrsum h _ _ | .vrmax h _ _ | .vrmin h _ _ | .vrdot h _ _ _ | .vscan h _ _ | .vargmax h _ _ | .vperm h _ _ _
  | .vrot h _ _ _ | .vshfl h _ _ _ | .vbcast h _ _ _ | .vzip h _ _ _ | .vunzip h _ _ _ | .vtrn h _ _ _
  | .vcompress h _ _ | .vexpand h _ _ | .vld h _ _ | .vst h _ _ | .vgath h _ _ _ | .vscat h _ _ _ | .vdq h _ _
  | .vaq h _ _ _ | .vloop h _ _ _ | .vcpush h _ _ | .vcpop h _ _ | .vcflush h _ => some h
  | _ => none

/-- How collecting a loop body ends: its addresses and the address behind it, no body, or a wait. -/
inductive BodyRes where
  | body (ws : List (BitVec 56)) (after : BitVec 56)
  | bad
  | fail (t : Cause)
  | wait

/-- Whether a granule begins a vector word with the loop-body bit set (R112, R118). -/
def isBodyGranule (g : Granule) : Bool := g.extractLsb' 30 2 == 1 && g.getLsbD 4

/-- Collect the next words of a loop body, skipping all-zero granules; fuel counts words and zero granules (R210). A body word that is
no legal instruction traps where it issues (R109, R212). -/
def State.bodyFrom (s : State) (h : Nat) (user : Bool) : Nat → Nat → BitVec 56 → List (BitVec 56) → State × BodyRes
  | _, 0, a, ws => (s, .body ws.reverse a)
  | 0, _ + 1, _, _ => (s, .bad)
  | fuel + 1, n + 1, a, ws =>
    match s.fetchAt h user a with
    | (t, .wait) => (t, .wait)
    | (t, .bad (.illegal g)) => if isBodyGranule g then t.bodyFrom h user fuel n (a + 12) (a :: ws) else (t, .bad)
    | (t, .bad c) => (t, .fail c)
    | (t, .word i len) =>
      if i = .add 0 0 0 then t.bodyFrom h user fuel (n + 1) (a + 4) ws
      else match vhdrOf i with
        | some v => if v.lb then t.bodyFrom h user fuel n (a + .ofNat 56 len) (a :: ws) else (t, .bad)
        | none => (t, .bad)

/-- The body of the vloop at an address (R210): its L words. The search ends by the vloop itself, which the granules of the whole
address space lead back to. -/
def State.loopBody (s : State) (h : Nat) (user : Bool) (a : BitVec 56) (words : Nat) : State × BodyRes :=
  s.bodyFrom h user (2 ^ 54) words (a + 12) []

/-! ## Multicast -/

/-- Where the shared stream goes behind a word, and whether the front end stops there (R140, R141, R145 to R150). -/
def streamAfter (i : Instr) (a after : BitVec 56) : BitVec 56 × Bool :=
  match i with
  | .j d => (a + 4 * d.signExtend 56, false)
  | .call d => (a + 4 * d.signExtend 56, false)
  | .beq _ _ _ | .bne _ _ _ | .blt _ _ _ | .bge _ _ _ | .bltu _ _ _ | .bgeu _ _ _ | .jr _ | .callr _ _ => (after, true)
  | .join | .detach | .iflush | .halt => (after, true)
  | _ => (after, false)

def isBranch : Instr → Bool
  | .beq _ _ _ | .bne _ _ _ | .blt _ _ _ | .bge _ _ _ | .bltu _ _ _ | .bgeu _ _ _ | .jr _ | .callr _ _ => true
  | _ => false

/-- The address behind a word; behind a vloop it is that behind the nest's body (R211). -/
def State.behind (s : State) (h : Nat) (user : Bool) (i : Instr) (a : BitVec 56) (n : Nat) : BitVec 56 :=
  match i with
  | .vloop _ l _ _ =>
    match (s.loopBody h user a (l.toNat + 1)).2 with
    | .body _ z => z
    | _ => a + .ofNat 56 n
  | _ => a + .ofNat 56 n

/-- A word as a buffer holds it. -/
def State.bufWord (s : State) (h : Nat) (user : Bool) (i : Instr) (a : BitVec 56) (n : Nat) : BufWord :=
  let z := streamAfter i a (s.behind h user i a n)
  ⟨a, i, n, z.1, z.2, ((s.ctx? h).map fun x => x.mask Core.isAttached).getD 0⟩

/-- Multicast a word of the shared stream into every attached core's buffer (R138). -/
def HerdCtx.multicast (x : HerdCtx) (w : BufWord) : HerdCtx :=
  { x with
    stream := w.next
    stopped := w.stop
    diverge := if isBranch w.word then some ⟨w.addr⟩ else x.diverge
    cores := x.cores.map fun c => if c.front = .attached then { c with buf := c.buf ++ [w] } else c }

/-- Whether every attached core's buffer has room for a word (R138). -/
def HerdCtx.room (x : HerdCtx) : Bool := x.cores.all fun c => c.front != .attached || decide (c.drift < 32)

/-- A word goes behind the others in one core's buffer (R138, R153). -/
def State.keepWord (s : State) (h c : Nat) (w : BufWord) : State := s.modCore h c fun x => { x with buf := x.buf ++ [w] }

/-- Where the words that a core's issue buffer still lacks begin: behind the last word of the buffer, else at the word that the core
comes to next (R138, R211). -/
def Core.nextFetch (x : Core) : BitVec 56 :=
  match x.buf.getLast? with
  | some w => w.next
  | none => match x.inLoop, x.loop with
    | true, some l => l.after
    | _, _ => x.pc

/-- Whether an attached core lacks words of the shared stream that have gone by: after a resumption, or an iflush of a stray (R148,
R153). -/
def HerdCtx.lags (y : HerdCtx) (x : Core) : Bool :=
  x.isAttached && x.join.isNone && x.block != some .branch && x.block != some .iflush &&
  ((x.buf.getLast?).map fun w => !w.stop).getD true && x.nextFetch != y.stream

/-- A core's words up to the shared stream's address are fetched into its buffer alone, following j and call (R148, R153). A word that is
none is left for the core that comes to it. Whether no page has to be waited for. -/
def State.refillFrom (s : State) (h c : Nat) (user : Bool) (stop : BitVec 56) : Nat → BitVec 56 → State × Bool
  | 0, _ => (s, true)
  | k + 1, a =>
    if a = stop then (s, true)
    else match s.fetchAt h user a with
      | (t, .word i n) =>
        let w := t.bufWord h user i a n
        if w.stop then (t.keepWord h c w, true) else (t.keepWord h c w).refillFrom h c user stop k w.next
      | (t, .bad _) => (t, true)
      | (t, .wait) => (t, false)

/-- Every attached core's drift is rebuilt before anything new is multicast (R148, R153): whether the front end may go on. -/
def State.refill (s : State) (h : Nat) : State × Bool :=
  match s.ctx? h with
  | none => (s, true)
  | some y => y.cores.zipIdx.foldl (fun t x =>
      if y.lags x.1 then
        let r := t.1.refillFrom h x.2 (!x.1.x.priv) y.stream (32 - x.1.drift) x.1.nextFetch
        (r.1, t.2 && r.2)
      else t) (s, true)

/-- Every attached core's drift is rebuilt; whether the front end may multicast: no page is waited for, and every buffer has room (R138,
R148, R153). -/
def State.castReady (s : State) (h : Nat) : State × Bool :=
  let r := s.refill h
  (r.1, r.2 && ((r.1.ctx? h).map HerdCtx.room).getD false)

/-- Bring the word at its pc to a core's buffer (R138, R139, R153). A word that stands there already, or in the loop buffer, is at
hand; an attached core that has come up with the shared stream needs the multicast, which waits for room and for the words that another
core lacks; every other core gets the word alone. Whether the core has it. -/
def State.deliver (s : State) (h c : Nat) (x : Core) (i : Instr) (n : Nat) : State × Bool :=
  if x.inLoop || x.bufHead.isSome then (s, true)
  else
    let w := s.bufWord h (!x.x.priv) i x.pc n
    match s.ctx? h with
    | none => (s, false)
    | some y =>
      if x.front = .attached ∧ x.pc = y.stream then
        if y.stopped || !y.room then (s, false)
        else match s.castReady h with
          | (t, true) => (t.modCtx h fun z => z.multicast w, true)
          | (t, false) => (t, false)
      else (s.modCore h c fun z => { z with buf := [w] }, true)

/-- Where the front end fetches next for a stray, if it may (R138, R139): behind the last word of its buffer, or at its pc. -/
def Core.fetchPoint (x : Core) : Option (BitVec 56) :=
  if x.front != .stray || x.block.isSome || x.join.isSome || x.swapped || !decide (x.drift < 32) then none
  else if ((x.buf.getLast?).map BufWord.stop).getD false then none else some x.nextFetch

/-- The front end fetches and decodes a word ahead (R138, R139): a word that is not to be had, or is none, is left for the core that
comes to it. -/
def State.fetchAhead (s : State) (h : Nat) (stray : Option Nat) : State :=
  match stray, s.ctx? h with
  | none, some y =>
    match y.cores.find? Core.isAttached with
    | some m =>
      if y.held.isNone || y.stopped || !y.room || m.swapped then s
      else match s.castReady h with
        | (t, false) => t
        | (t, true) => match t.fetchAt h (!m.x.priv) y.stream with
          | (u, .word i n) => u.modCtx h fun z => z.multicast (u.bufWord h (!m.x.priv) i y.stream n)
          | (u, _) => u
    | none => s
  | some c, some y =>
    match y.cores[c]? with
    | some x =>
      match (if y.held.isNone then none else x.fetchPoint) with
      | some a => match s.fetchAt h (!x.x.priv) a with
        | (t, .word i n) => t.keepWord h c (t.bufWord h (!x.x.priv) i a n)
        | (t, _) => t
      | none => s
    | none => s
  | _, none => s

/-- ck in which the shared stream stands still because a buffer is full are counted, up to 65,535 (R149). -/
def HerdCtx.stallFor (x : HerdCtx) (n : Nat) : HerdCtx := { x with mstall := .ofNat 16 (min 65535 (x.mstall.toNat + n)) }

/-- Whether a full buffer stops the shared stream (R138, R149). -/
def HerdCtx.full (x : HerdCtx) : Bool := !x.stopped && !x.room

/-! ## The boundary before a word (R395) -/

/-- xaqs' cause of a held head as a trap; its value is the held entry's pointer (R259, R260). -/
def AqEntry.trap (e : AqEntry) : Option Cause :=
  let p := ptrAt e.base e.off
  e.held.map fun k => match k with
    | .translation n => .translation n.toNat p
    | .bounds => .bounds false p
    | .misalignment => .misalignment p
    | .unrecoverable => .reconstruction 1 p

/-- The lowest queue whose head is held by a fault not yet trapped for (R259). -/
def Core.heldQueue (c : Core) : Option (Nat × Cause) :=
  (List.range 4).findSome? fun i =>
    match c.aq.getD i [] with
    | e :: _ => if e.reported then none else e.trap.map fun t => (i, t)
    | [] => none

/-- Whether the wait of a blocked core may be withdrawn at its boundary (R179, R364, R375, R402, R410). -/
def Block.withdrawn : Block → Bool
  | .tlbinv _ _ | .xdsp _ _ | .report _ _ _ _ _ => false
  | _ => true

/-- What a core takes at its boundary before its next word: a held access-queue fault, then a notice (R395). A held fault
waits while a handler runs (log 23). -/
def Core.boundary (c : Core) : Option (Cause × Option Nat) :=
  if c.front == .halted || c.swapped || !((c.block.map Block.withdrawn).getD true) then none
  else match (if c.x.intrap then none else c.heldQueue) with
    | some (q, t) => some (t, some q)
    | none => if c.x.ie && c.x.np then some (.notice c.x.ncode, none) else none

/-- Mark the head of an access queue as trapped for. -/
def Core.report (c : Core) (q : Nat) : Core :=
  { c with aq := c.aq.modify q fun l => match l with
    | e :: r => { e with reported := true } :: r
    | [] => [] }

/-- A core takes what waits at its boundary (R394, R395). -/
def State.takeBoundary (s : State) (h c : Nat) (t : Cause) (q : Option Nat) : State :=
  match q with
  | some n => (s.enterTrap h c t true).modCore h c fun x => x.report n
  | none => s.enterTrap h c t false

/-! ## Issuing at all -/

/-- Whether a core may issue at all: its herd holds a node, it has not halted, its last word's gap is over, no eviction request
stands, and its gang is restored (R94, R117, R410). -/
def State.mayIssue (s : State) (h : Nat) (x : Core) : Bool :=
  ((s.ctx? h).bind HerdCtx.held).isSome && x.isLive && decide (x.issueAt ≤ s.now) &&
  ((s.herds[h]?).bind Herd.evict).isNone && !x.swapped

/-- A vector word with the loop-body bit set is legal only as a body word of the loop under way (R118, R210). -/
def strayBody (x : Core) (i : Instr) : Bool := ((vhdrOf i).map VHdr.lb).getD false && !x.inLoop

end Sys2Proof.Machine
end

