-- ==== Sys2Proof/Machine/Landing.lean ====
section
/-! DEFINITION. Results on their way: vector results inside their landing windows (spec/05_formats_and_opcode_map.md R117) and
scalar results behind pending bits (spec/07_scalar_and_issue.md R156). -/

namespace Sys2Proof.Machine

/-- The data bank and the row that hold a scratchpad byte (R224), with the redirection of R232: the k-th lost slot of the
retired groups in force pairs with the k-th donor slot. -/
def CorePhys.position (x : CorePhys) (a : Nat) : Nat × Nat :=
  let bank := a / 16 % 32
  let band := a / 2 ^ 17
  let r := a / 2 ^ 9 % 256
  let m := x.moved.length
  let lost := x.moved.flatMap fun g => (List.range (8 - m)).map fun j => (g, j)
  let donors := (List.range m).flatMap fun i =>
    ((List.range 8).filter fun h => !x.moved.contains h).map fun h => (8 - m + i, h)
  match (lost.zip donors).find? fun p => p.1 == (bank / 4, band) with
  | some p => (4 * p.2.2 + bank % 4, 256 * p.2.1 + r)
  | none => (bank, 256 * band + r)

/-- The addresses that may stand in a row of a data bank: its own, and those redirected to it (R224, R232). -/
def CorePhys.addresses (x : CorePhys) (bank r : Nat) : List Nat :=
  ((bank, r / 256) :: x.moved.flatMap fun g => (List.range 8).map fun j => (4 * g + bank % 4, j)).filterMap fun p =>
    let a := 16 * p.1 + 512 * (r % 256) + 2 ^ 17 * p.2
    if x.position a = (bank, r) then some a else none

/-- The parity row of a written scratchpad row is stale until it is updated; a degraded group keeps no parity (R227,
R230). -/
def CorePhys.touch (x : CorePhys) (a : Nat) : CorePhys :=
  let p := x.position a
  let g := p.1 / 4
  if ((x.groups[g]?).map Group.degraded).getD true || x.stale.contains (g, p.2) then x
  else { x with stale := (g, p.2) :: x.stale }

/-- The physical side of the core whose scratchpad holds a location. -/
def State.physAt (s : State) (l : Nat) : Option CorePhys :=
  (s.herds[(l - 2 ^ 42) / 2 ^ 23]?).bind fun h => h.phys[(l - 2 ^ 42) / 2 ^ 20 % 8]?

/-- Note the stale marks of a write of n bytes from a location up (R227). -/
def State.touch (s : State) (l n : Nat) : State :=
  if isScratch l ∧ 0 < n then
    let x := l - 2 ^ 42
    let a := x % 2 ^ 20
    s.modHerd (x / 2 ^ 23) fun h => { h with phys := h.phys.modify (x / 2 ^ 20 % 8) fun p =>
      (List.range ((a + n - 1) / 16 - a / 16 + 1)).foldl (fun q i => q.touch ((a / 16 + i) * 16)) p }
  else s

/-- Whether a scratchpad byte lies in a retired group whose redirection is not yet in force: a write to it is discarded
(R231). -/
def State.inDeadGroup (s : State) (l : Nat) : Bool :=
  isScratch l &&
  match s.physAt l with
  | some p => ((p.groups[(p.position ((l - 2 ^ 42) % 2 ^ 20)).1 / 4]?).map Group.dead).getD false
  | none => false

/-- Bytes of the unit that an error lies in: a scratchpad row, else a line (R223, R450). -/
def ErrMark.bytes (e : ErrMark) : Nat := if isScratch (e.row * 16) then 16 else 64

/-- What a write of n bytes at a location makes of an error (R450): that of a unit wholly written goes with its old bytes, and an
uncorrectable one of a clean line that is written in part stays in the line, which is dirty now. -/
def ErrMark.written (l n : Nat) (e : ErrMark) : Option ErrMark :=
  let a := e.row * 16
  if l ≤ a ∧ a + e.bytes ≤ l + n then none
  else if e.kind = .soft ∧ l < a + e.bytes ∧ a < l + n then some { e with kind := .double }
  else some e

/-- Write bytes at a location: through the LLC for device DRAM, into banks for a scratchpad (R17, R227). -/
def State.putLoc (s : State) (l : Nat) (bs : List Byte) : State :=
  let t := (s.writeLlc l bs).touch l bs.length
  { t with marks := t.marks.filterMap (ErrMark.written l bs.length) }

/-- Bytes from a location up, cut at rows of 16 bytes. -/
def rowPieces (l : Nat) (bs : List Byte) : List (Nat × List Byte) :=
  (List.range ((l + bs.length + 15) / 16 - l / 16)).map fun i =>
    let a := max l (16 * (l / 16 + i))
    (a, (bs.drop (a - l)).take (16 * (l / 16 + i + 1) - a))

/-- Whether a location lies in the scratchpad of a core with a retired group. -/
def State.anyDead (s : State) (l : Nat) : Bool := isScratch l && ((s.physAt l).map fun p => p.groups.any Group.dead).getD false

/-- Write bytes at a location; those in a retired group are discarded (R231). -/
def State.writeLoc (s : State) (l : Nat) (bs : List Byte) : State :=
  if s.anyDead l then (rowPieces l bs).foldl (fun t p => if t.inDeadGroup p.1 then t else t.putLoc p.1 p.2) s
  else s.putLoc l bs

/-- An error of a unit that one access has written wholly, in whatever pieces, goes with its old bytes (R450). -/
def State.covered (s : State) (ls : List Nat) : State :=
  { s with marks := s.marks.filter fun e => !(List.range e.bytes).all fun i => ls.contains (e.row * 16 + i) }

/-- Write cells, each at its own location. -/
def State.writeCells (s : State) (cs : List Host.Cell) : State :=
  (cs.foldl (fun t c => t.writeLoc c.1 [c.2]) s).covered (cs.map (·.1))

/-! ## Vector results -/

/-- A lane slice with the masked bits replaced. A mask of no bits, or of all, leaves no trace of the other value. -/
def maskIn {n : Nat} (old mask val : BitVec n) : BitVec n :=
  if mask = 0 then old else if mask = .allOnes n then val else (old &&& ~~~mask) ||| (val &&& mask)

/-- A target takes its value in the register files. -/
def Core.land (c : Core) : VTarget → Core
  | .reg n m v => { c with v := c.v.modify n.toNat fun x => maskIn x m v }
  | .pred n m v => if n = 0 then c else { c with p := c.p.modify n.toNat fun x => maskIn x m v }
  | .mem _ => c

/-- The cells that a target writes. -/
def VTarget.cells : VTarget → List Host.Cell
  | .mem cs => cs
  | _ => []

/-- Whether two targets write one lane slice, one predicate, or one scratchpad byte (R117, R187). -/
def VTarget.meets : VTarget → VTarget → Bool
  | .reg a m _, .reg b n _ => a == b && m != 0 && n != 0
  | .pred a m _, .pred b n _ => a == b && m != 0 && n != 0
  | .mem xs, .mem ys => xs.any fun x => ys.any fun y => x.1 == y.1
  | _, _ => false

/-- Whether two results have a place in common, so that they land in issue order (R117). -/
def VLanding.meets (a b : VLanding) : Bool := a.targets.any fun t => b.targets.any t.meets

/-- Some vector results of a core land, in the order given, and the others stay. -/
def State.landSome (s : State) (h c : Nat) (due left : List VLanding) : State :=
  let ts := due.flatMap VLanding.targets
  (s.modCore h c fun y => { ts.foldl Core.land y with vlands := left }).writeCells (ts.flatMap VTarget.cells)

/-- The vector results that have to land before a ck, oldest first, and the others: those whose window has closed, and each earlier
one that has a place in common with one that lands (R117). -/
def splitDue (now : Nat) : List VLanding → List VLanding × List VLanding
  | [] => ([], [])
  | e :: r =>
    let x := splitDue now r
    if e.deadline < now || x.1.any e.meets then (e :: x.1, x.2) else (x.1, e :: x.2)

/-- Land what is due in one core. -/
def State.landCore (s : State) (h c : Nat) : State :=
  match s.core? h c with
  | none => s
  | some x =>
    let d := splitDue s.now x.vlands
    if d.1.isEmpty then s else s.landSome h c d.1 d.2

/-- Herds that hold a node. -/
def State.busyHerds (s : State) : List Nat :=
  s.herds.zipIdx.filterMap fun x => if x.1.act.held.isSome then some x.2 else none

/-- The ck of a herd that go by while a full buffer stops its shared stream are counted (R149). -/
def State.stallHerd (s : State) (h n : Nat) : State :=
  if ((s.ctx? h).map HerdCtx.full).getD false then s.modCtx h fun x => x.stallFor n else s

/-- Whether a result writes a vector register. -/
def VLanding.writesV (e : VLanding) (n : BitVec 5) : Bool := e.targets.any fun t => match t with
  | .reg k _ _ => k == n
  | _ => false

/-- Whether a vector word's result to a register is on its way (R258). -/
def Core.landsIn (c : Core) (n : BitVec 5) : Bool := c.vlands.any fun e => e.writesV n

/-- The next word of a core, where its issue buffer or its loop buffer holds it (R138, R211). -/
def State.nextHeld (s : State) (h : Nat) (x : Core) : Option Instr :=
  match x.bufHead with
  | some w => some w.word
  | none => match if x.inLoop then (s.ctx? h).bind fun y => (heldWord y.code (s.pasidOf h) x.pc 3).map (wordOf x.pc) else none with
    | some (.word i _) => some i
    | _ => none

/-- The ck before a ck in which the next word of a core, a vaq, waits for the landing of a vdq (R258). -/
def State.decoupled (s : State) (h : Nat) (x : Core) (now ck : Nat) : Nat :=
  match s.nextHeld h x, x.isLive && x.block.isNone && x.join.isNone && !x.swapped with
  | some (.vaq _ _ vi _), true =>
    let ends := (x.vlands.filter fun e => e.dq && e.writesV vi).map VLanding.deadline
    min ck (ends.foldl (fun m d => max m (d + 1)) 0) - max now x.issueAt
  | _, _ => 0

/-- ldstall counts some ck, saturating (R258, R260). -/
def Core.stallDq (n : Nat) (c : Core) : Core := { c with ldstall := .ofNat 32 (min (2 ^ 32 - 1) (c.ldstall.toNat + n)) }

/-- The ck of loss-of-decoupling stall of a herd's cores are counted (R258). -/
def State.stallCores (s : State) (h now ck : Nat) : State :=
  s.modCtx h fun y => { y with cores := y.cores.map fun x => x.stallDq (s.decoupled h x now ck) }

/-- Time goes on to a ck: the ck are counted for the herds that a full buffer stops and for the cores that wait for a vdq, and every
vector result whose window has closed lands (R117, R149, R258). -/
def State.advanceTo (s : State) (ck : Nat) : State :=
  s.busyHerds.foldl (fun t h =>
      (List.range 8).foldl (fun u c => u.landCore h c) ((t.stallHerd h (ck - s.now)).stallCores h s.now ck))
    { s with now := max s.now ck }

/-! ## The events -/

/-- VECTOR_RESULT_LANDING (R117): the oldest result of a core lands inside its window (log 9). -/
def execVectorResultLanding (herd core : Nat) (s : State) : Out :=
  s.onCore herd core fun c =>
    match c.vlands with
    | e :: r => .next (if e.opens ≤ s.now then s.landSome herd core [e] r else s)
    | [] => .next s

/-- A result that is not the oldest lands inside its window, if no earlier one has a place in common with it (R117). -/
def State.landLater (s : State) (h c i : Nat) : State :=
  match (s.core? h c).bind fun x => (x.vlands[i]?).map fun e => (x, e) with
  | some (x, e) =>
    if e.opens ≤ s.now ∧ (x.vlands.take i).all (fun y => !y.meets e) then s.landSome h c [e] (x.vlands.eraseIdx i) else s
  | none => s

/-- The first result on its way to a register, and the others. -/
def takeLanding (r : BitVec 5) : List Landing → Option (Landing × List Landing)
  | [] => none
  | e :: es => if e.reg = r then some (e, es) else (takeLanding r es).map fun x => (x.1, e :: x.2)

/-- SCALAR_RESULT_LANDING (R156): the result is written and the pending bit clears. A result of the old context lands in
the bank that is spilling (R411). -/
def Core.landScalar (c : Core) (r : BitVec 5) : Core :=
  match takeLanding r c.landings with
  | some (e, es) => ({ c with landings := es }.setPend r false).ps r e.val
  | none => c

def execScalarResultLanding (herd core : Nat) (reg : BitVec 5) (s : State) : Out :=
  s.onCore herd core fun _ =>
    .next (s.modHerd herd fun h =>
      match h.old with
      | some o =>
        if ((o.cores[core]?).map fun c => (takeLanding reg c.landings).isSome).getD false then
          { h with old := some { o with cores := o.cores.modify core (Core.landScalar · reg) } }
        else { h with act := { h.act with cores := h.act.cores.modify core (Core.landScalar · reg) } }
      | none => { h with act := { h.act with cores := h.act.cores.modify core (Core.landScalar · reg) } })

end Sys2Proof.Machine
end

