-- ==== Sys2Proof/Machine/Integer.lean ====
section
/-! DEFINITION. Integer functions, immediate forms, multiply and divide, tagged pointers, loop registers
(spec/07_scalar_and_issue.md R154 to R161, R164, R168). -/

namespace Sys2Proof.Machine

/-! ## Shared forms -/

/-- A scalar word whose result takes 1 ck: it waits while a register is pending or absent, else writes rd and goes on (R156,
R157). -/
def scalar1 (reads : List (BitVec 5)) (rd : BitVec 5) (f : Core → Word) (s : State) : Out :=
  s.onMy fun c => .next (if c.free reads [rd] then s.fin (c.ps rd (f c)) else s)

/-- A scalar word whose result takes longer: rd is pending until the result lands (R156, R157). -/
def scalarLate (reads : List (BitVec 5)) (rd : BitVec 5) (f : Core → Word) (s : State) : Out :=
  s.onMy fun c => .next (if c.free reads [rd] then s.fin (c.post rd (f c)) else s)

/-- A word with two sources. -/
def alu (rd rs1 rs2 : BitVec 5) (f : Word → Word → Word) : State → Out :=
  scalar1 [rs1, rs2] rd fun c => f (c.gs rs1) (c.gs rs2)

/-- A word with one source. -/
def alu1 (rd rs1 : BitVec 5) (f : Word → Word) : State → Out := scalar1 [rs1] rd fun c => f (c.gs rs1)

/-- A multiply or divide. -/
def muldiv (rd rs1 rs2 : BitVec 5) (f : Word → Word → Word) : State → Out :=
  scalarLate [rs1, rs2] rd fun c => f (c.gs rs1) (c.gs rs2)

/-! ## Functions -/

/-- 1 when the condition holds, else 0. -/
def boolWord (b : Bool) : Word := if b then 1 else 0

/-- The low n bits, sign-extended. -/
def sextFrom (n : Nat) (x : Word) : Word := (x.truncate n).signExtend 64

/-- The low n bits, zero-extended. -/
def zextFrom (n : Nat) (x : Word) : Word := (x.truncate n).zeroExtend 64

/-- A shift count: bits [5:0] (R158). -/
def shamt (x : Word) : Nat := x.toNat % 64

/-- Leading zero bits of the low n bits. -/
def leadingZeros (x : Nat) : Nat → Nat
  | 0 => 0
  | n + 1 => if x.testBit n then 0 else 1 + leadingZeros x n

/-- Trailing zero bits, up to n. -/
def trailingZeros (x : Nat) : Nat → Nat
  | 0 => 0
  | n + 1 => if x % 2 = 1 then 0 else 1 + trailingZeros (x / 2) n

/-- One bits of the low n bits. -/
def onesOf (x : Nat) : Nat → Nat
  | 0 => 0
  | n + 1 => x % 2 + onesOf (x / 2) n

/-- The quotient truncated toward zero, with the borderline cases of R161. -/
def divS (a b : Word) : Word := if b = 0 then .allOnes 64 else BitVec.ofInt 64 (a.toInt.tdiv b.toInt)

/-- The remainder of the truncated quotient (R161). -/
def remS (a b : Word) : Word := if b = 0 then a else BitVec.ofInt 64 (a.toInt.tmod b.toInt)

def divU (a b : Word) : Word := if b = 0 then .allOnes 64 else BitVec.ofNat 64 (a.toNat / b.toNat)

def remU (a b : Word) : Word := if b = 0 then a else BitVec.ofNat 64 (a.toNat % b.toNat)

/-- The tag and the address of a pointer (R216). -/
def pTag (p : Word) : BitVec 8 := p.extractLsb' 56 8
def pVa (p : Word) : BitVec 56 := p.extractLsb' 0 56

/-! ## Major 0x00 (R158) -/

/-- add: rs1 + rs2 (R158). -/
def execAdd (rd rs1 rs2 : BitVec 5) : State → Out :=
  alu rd rs1 rs2 fun a b => a + b

/-- sub: rs1 − rs2 (R158). -/
def execSub (rd rs1 rs2 : BitVec 5) : State → Out :=
  alu rd rs1 rs2 fun a b => a - b

/-- and (R158). -/
def execAnd (rd rs1 rs2 : BitVec 5) : State → Out :=
  alu rd rs1 rs2 fun a b => a &&& b

/-- or (R158). -/
def execOr (rd rs1 rs2 : BitVec 5) : State → Out :=
  alu rd rs1 rs2 fun a b => a ||| b

/-- xor (R158). -/
def execXor (rd rs1 rs2 : BitVec 5) : State → Out :=
  alu rd rs1 rs2 fun a b => a ^^^ b

/-- andn: rs1 and not rs2 (R158). -/
def execAndn (rd rs1 rs2 : BitVec 5) : State → Out :=
  alu rd rs1 rs2 fun a b => a &&& ~~~b

/-- sll (R158). -/
def execSll (rd rs1 rs2 : BitVec 5) : State → Out :=
  alu rd rs1 rs2 fun a b => a <<< shamt b

/-- srl (R158). -/
def execSrl (rd rs1 rs2 : BitVec 5) : State → Out :=
  alu rd rs1 rs2 fun a b => a >>> shamt b

/-- sra (R158). -/
def execSra (rd rs1 rs2 : BitVec 5) : State → Out :=
  alu rd rs1 rs2 fun a b => a.sshiftRight (shamt b)

/-- rol (R158). -/
def execRol (rd rs1 rs2 : BitVec 5) : State → Out :=
  alu rd rs1 rs2 fun a b => a.rotateLeft (shamt b)

/-- ror (R158). -/
def execRor (rd rs1 rs2 : BitVec 5) : State → Out :=
  alu rd rs1 rs2 fun a b => a.rotateRight (shamt b)

/-- slt (R158). -/
def execSlt (rd rs1 rs2 : BitVec 5) : State → Out :=
  alu rd rs1 rs2 fun a b => boolWord (a.slt b)

/-- sltu (R158). -/
def execSltu (rd rs1 rs2 : BitVec 5) : State → Out :=
  alu rd rs1 rs2 fun a b => boolWord (a.ult b)

/-- seq (R158). -/
def execSeq (rd rs1 rs2 : BitVec 5) : State → Out :=
  alu rd rs1 rs2 fun a b => boolWord (a == b)

/-- sne (R158). -/
def execSne (rd rs1 rs2 : BitVec 5) : State → Out :=
  alu rd rs1 rs2 fun a b => boolWord (a != b)

/-- min: the lesser as s64 (R158). -/
def execMin (rd rs1 rs2 : BitVec 5) : State → Out :=
  alu rd rs1 rs2 fun a b => if a.slt b then a else b

/-- max: the greater as s64 (R158). -/
def execMax (rd rs1 rs2 : BitVec 5) : State → Out :=
  alu rd rs1 rs2 fun a b => if a.slt b then b else a

/-- minu (R158). -/
def execMinu (rd rs1 rs2 : BitVec 5) : State → Out :=
  alu rd rs1 rs2 fun a b => if a.ult b then a else b

/-- maxu (R158). -/
def execMaxu (rd rs1 rs2 : BitVec 5) : State → Out :=
  alu rd rs1 rs2 fun a b => if a.ult b then b else a

/-- clz (R158). -/
def execClz (rd rs1 : BitVec 5) : State → Out :=
  alu1 rd rs1 fun a => .ofNat 64 (leadingZeros a.toNat 64)

/-- ctz (R158). -/
def execCtz (rd rs1 : BitVec 5) : State → Out :=
  alu1 rd rs1 fun a => .ofNat 64 (trailingZeros a.toNat 64)

/-- popc (R158). -/
def execPopc (rd rs1 : BitVec 5) : State → Out :=
  alu1 rd rs1 fun a => .ofNat 64 (onesOf a.toNat 64)

/-- sext.b (R158). -/
def execSextB (rd rs1 : BitVec 5) : State → Out :=
  alu1 rd rs1 fun a => sextFrom 8 a

/-- sext.h (R158). -/
def execSextH (rd rs1 : BitVec 5) : State → Out :=
  alu1 rd rs1 fun a => sextFrom 16 a

/-- sext.w (R158). -/
def execSextW (rd rs1 : BitVec 5) : State → Out :=
  alu1 rd rs1 fun a => sextFrom 32 a

/-- zext.b (R158). -/
def execZextB (rd rs1 : BitVec 5) : State → Out :=
  alu1 rd rs1 fun a => zextFrom 8 a

/-- zext.h (R158). -/
def execZextH (rd rs1 : BitVec 5) : State → Out :=
  alu1 rd rs1 fun a => zextFrom 16 a

/-- zext.w (R158). -/
def execZextW (rd rs1 : BitVec 5) : State → Out :=
  alu1 rd rs1 fun a => zextFrom 32 a

/-! ## Multiply and divide (R161) -/

/-- mul (R161). -/
def execMul (rd rs1 rs2 : BitVec 5) : State → Out :=
  muldiv rd rs1 rs2 fun a b => a * b

/-- mulh (R161). -/
def execMulh (rd rs1 rs2 : BitVec 5) : State → Out :=
  muldiv rd rs1 rs2 fun a b => BitVec.ofInt 64 (a.toInt * b.toInt / 2 ^ 64)

/-- mulhu (R161). -/
def execMulhu (rd rs1 rs2 : BitVec 5) : State → Out :=
  muldiv rd rs1 rs2 fun a b => BitVec.ofNat 64 (a.toNat * b.toNat / 2 ^ 64)

/-- mulhsu (R161). -/
def execMulhsu (rd rs1 rs2 : BitVec 5) : State → Out :=
  muldiv rd rs1 rs2 fun a b => BitVec.ofInt 64 (a.toInt * b.toNat / 2 ^ 64)

/-- div (R161). -/
def execDiv (rd rs1 rs2 : BitVec 5) : State → Out :=
  muldiv rd rs1 rs2 fun a b => divS a b

/-- divu (R161). -/
def execDivu (rd rs1 rs2 : BitVec 5) : State → Out :=
  muldiv rd rs1 rs2 fun a b => divU a b

/-- rem (R161). -/
def execRem (rd rs1 rs2 : BitVec 5) : State → Out :=
  muldiv rd rs1 rs2 fun a b => remS a b

/-- remu (R161). -/
def execRemu (rd rs1 rs2 : BitVec 5) : State → Out :=
  muldiv rd rs1 rs2 fun a b => remU a b

/-! ## Immediate forms (R159, R160) -/

/-- addi (R159). -/
def execAddi (rd rs1 : BitVec 5) (imm : BitVec 14) : State → Out :=
  alu1 rd rs1 fun a => a + imm.signExtend 64

/-- andi (R159). -/
def execAndi (rd rs1 : BitVec 5) (imm : BitVec 14) : State → Out :=
  alu1 rd rs1 fun a => a &&& imm.zeroExtend 64

/-- ori (R159). -/
def execOri (rd rs1 : BitVec 5) (imm : BitVec 14) : State → Out :=
  alu1 rd rs1 fun a => a ||| imm.zeroExtend 64

/-- xori (R159). -/
def execXori (rd rs1 : BitVec 5) (imm : BitVec 14) : State → Out :=
  alu1 rd rs1 fun a => a ^^^ imm.zeroExtend 64

/-- slli (R159). -/
def execSlli (rd rs1 : BitVec 5) (sh : BitVec 6) : State → Out :=
  alu1 rd rs1 fun a => a <<< sh.toNat

/-- srli (R159). -/
def execSrli (rd rs1 : BitVec 5) (sh : BitVec 6) : State → Out :=
  alu1 rd rs1 fun a => a >>> sh.toNat

/-- srai (R159). -/
def execSrai (rd rs1 : BitVec 5) (sh : BitVec 6) : State → Out :=
  alu1 rd rs1 fun a => a.sshiftRight sh.toNat

/-- slti (R159). -/
def execSlti (rd rs1 : BitVec 5) (imm : BitVec 14) : State → Out :=
  alu1 rd rs1 fun a => boolWord (a.slt (imm.signExtend 64))

/-- sltiu (R159). -/
def execSltiu (rd rs1 : BitVec 5) (imm : BitVec 14) : State → Out :=
  alu1 rd rs1 fun a => boolWord (a.ult (imm.signExtend 64))

/-- The immediate shifted left by 13, sign-extended (R160). -/
def upper (imm : BitVec 19) : Word := (imm ++ 0#13).signExtend 64

/-- lui (R160). -/
def execLui (rd : BitVec 5) (imm : BitVec 19) : State → Out := scalar1 [] rd fun _ => upper imm

/-- auipc (R160): a space-0 address, whose top byte is 0 (log 24). -/
def execAuipc (rd : BitVec 5) (imm : BitVec 19) : State → Out :=
  scalar1 [] rd fun c => (c.pc + (upper imm).truncate 56).zeroExtend 64

/-! ## Tagged pointers (R164) -/

/-- ptag: rs2[7:0] over the address of rs1 (R164). -/
def execPtag (rd rs1 rs2 : BitVec 5) : State → Out :=
  alu rd rs1 rs2 fun a b => (b.truncate 8 : BitVec 8) ++ pVa a

/-- padd: within 56 bits, the tag kept (R164). -/
def execPadd (rd rs1 rs2 : BitVec 5) : State → Out :=
  alu rd rs1 rs2 fun a b => pTag a ++ (pVa a + pVa b)

/-- psub: the 56-bit difference, sign-extended (R164). -/
def execPsub (rd rs1 rs2 : BitVec 5) : State → Out :=
  alu rd rs1 rs2 fun a b => (pVa a - pVa b).signExtend 64

/-- pspace (R164). -/
def execPspace (rd rs1 : BitVec 5) : State → Out :=
  alu1 rd rs1 fun a => .ofNat 64 (pSpace a)

/-- prank (R164). -/
def execPrank (rd rs1 : BitVec 5) : State → Out :=
  alu1 rd rs1 fun a => .ofNat 64 (pRank a)

/-- paddr (R164). -/
def execPaddr (rd rs1 : BitVec 5) : State → Out :=
  alu1 rd rs1 fun a => (pVa a).zeroExtend 64

/-! ## Loop registers -/

/-- lset (R168): the low 32 bits of rs1 plus the immediate. -/
def execLset (n : BitVec 3) (rs1 : BitVec 5) (imm : BitVec 14) (s : State) : Out :=
  s.onMy fun c => .next (if c.free [rs1] [] then
    s.fin { c.present (.l n) with l := c.l.set n.toNat ((c.gs rs1 + imm.signExtend 64).truncate 32) } else s)

end Sys2Proof.Machine
end

