-- ==== Sys2Proof/Machine/Queues.lean ====
section
/-! DEFINITION. Engine queues: headers, the steps of an entry, statuses and qstat (spec/07_scalar_and_issue.md R169 to R184). -/

namespace Sys2Proof.Machine

/-- The header of an engine word (R119). -/
def ehdrOf : Instr → Option EHdr
  | .pcopy h _ | .pgath h _ | .pscat h _ | .pfill h _ | .pring h _ | .ppage h _ _ _ _ | .mmul h _ _ _ _ | .msl h _ _ _ _ _
  | .mkat h _ _ _ _ _ | .mst h _ _ _ _ _ | .mld h _ _ _ | .mzero h _ | .mrel h | .wload h _ _ _ _ | .wswap h _ _
  | .wfeed h _ _ _ _ _ | .wdrain h _ _ _ _ _ _ | .wmode h _ _ _ | .wpipe h _ _ _ _ _ _ | .wchk h _ _ _
  | .cred h _ _ _ _ _ _ _ | .cbcast h _ _ _ _ _ _ | .cgath h _ _ _ _ _ _ | .cscat h _ _ _ _ _ _ | .csync h _ _ => some h
  | _ => none

/-- The header of an entry's word. -/
def Entry.hdr (e : Entry) : EHdr := (ehdrOf e.word).getD ⟨none, 0, 0, 0, 0, 0, none⟩

/-- Steps of an entry at its queue's head (R171). Completing is part of the step that completes it. -/
inductive EStep where
  | guardHeld | semWaiting | ready | discarded | running
  deriving DecidableEq, Repr

/-- The step of an entry (R171, R175). -/
def Entry.step (e : Entry) : EStep :=
  if e.run.isSome then .running
  else if e.outcome.isNone then .guardHeld
  else if e.hdr.wcnt ≠ 0 ∧ e.granted = false then .semWaiting
  else if e.outcome = some false ∨ e.cancel then .discarded
  else .ready

/-- The queue of an engine. -/
def Core.queue (c : Core) (g : Engine) : List Entry := c.eq.getD (engineCode g) []

/-- Replace the queue of an engine. -/
def Core.setQueue (c : Core) (g : Engine) (q : List Entry) : Core := { c with eq := c.eq.set (engineCode g) q }

/-- The head of an engine's queue. -/
def Core.head (c : Core) (g : Engine) : Option Entry := (c.queue g).head?

/-- Replace the head of an engine's queue. -/
def Core.setHead (c : Core) (g : Engine) (e : Entry) : Core := c.setQueue g (e :: (c.queue g).drop 1)

/-- A head that begins to wait for its semaphore units takes its age (R177). -/
def noteHead (now : Nat) : List Entry → List Entry
  | e :: r => (if e.step = .semWaiting ∧ e.age = none then { e with age := some now } else e) :: r
  | [] => []

/-- The heads of a core's queues take their ages. -/
def Core.noteHeads (c : Core) (now : Nat) : Core := { c with eq := c.eq.map (noteHead now) }

/-- What a herd's semaphores have met in a ck (R179). -/
def HerdCtx.turnAt (x : HerdCtx) (now : Nat) : SemTurn := if x.turn.ck = now then x.turn else ⟨now, false, []⟩

/-- The ck in which a waiter that comes now begins to wait: one that comes behind the grants of a ck begins in the next (R177,
R179). -/
def State.waitCk (s : State) (h : Nat) : Nat :=
  s.now + (((s.ctx? h).map fun x => (x.turnAt s.now).granted).getD false).toNat

/-- Whether an engine's signal may still come in this ck: signals come before any ksig and any grant (R179). -/
def HerdCtx.signalsOpen (x : HerdCtx) (now : Nat) : Bool := !(x.turnAt now).granted && (x.turnAt now).sigs.isEmpty

/-- Whether an entry of a herd may complete in this ck, as far as its signal goes (R179). -/
def State.mayEnd (s : State) (h : Nat) (e : Entry) : Bool :=
  e.hdr.scnt == 0 || ((s.ctx? h).map fun x => x.signalsOpen s.now).getD true

/-- Whether every herd still takes signals in this ck, in its running and its spilling context (R179). -/
def State.allOpen (s : State) : Bool :=
  s.herds.all fun x => x.act.signalsOpen s.now && (x.old.map fun o => o.signalsOpen s.now).getD true

/-- The status code (R181). -/
def EStatus.code : EStatus → Nat
  | .ok => 0x00 | .eccZeroed => 0x01 | .scalePoison => 0x02 | .checksumMismatch => 0x03 | .katMismatch => 0x04
  | .replayLost => 0x05 | .cancelled => 0x06 | .staleBarrier => 0x07 | .translation => 0x08 | .peerDown => 0x09
  | .queueReset => 0x0A | .thermalAbort => 0x0B

/-- The order of R182, the highest first in number. stale_barrier is decided last, at the arrival. -/
def EStatus.rank : EStatus → Nat
  | .ok => 0 | .eccZeroed => 1 | .scalePoison => 2 | .checksumMismatch => 3 | .katMismatch => 4 | .replayLost => 5
  | .cancelled => 6 | .translation => 7 | .peerDown => 8 | .queueReset => 9 | .thermalAbort => 10 | .staleBarrier => 11

/-- The status that an entry reports of two (R182). -/
def EStatus.worse (a b : EStatus) : EStatus := if a.rank < b.rank then b else a

/-! ## Guard slots (R173, R174) -/

/-- Opening a slot (R174). -/
def execGsetOpen (n : BitVec 4) (s : State) : Out :=
  s.onMy fun c => .next (s.fin { c.present (.g n) with g := c.g.set n.toNat .opened })

/-- An entry that is pending on the slot takes the outcome (R174). -/
def Entry.bind (e : Entry) (n : BitVec 4) (v : Bool) : Entry :=
  if e.pending = some n then { e with outcome := some v, pending := none } else e

/-- Resolving a slot binds every entry of the core that is pending on it, in any queue (R174). -/
def Core.resolve (c : Core) (n : BitVec 4) (v : Bool) : Core :=
  { c.present (.g n) with
    g := c.g.set n.toNat (if v then .yes else .no)
    eq := c.eq.map fun q => q.map fun e => e.bind n v }

/-- gset, ne (R174). -/
def execGsetNe (n : BitVec 4) (rs1 : BitVec 5) (s : State) : Out :=
  s.onMy fun c => .next (if c.free [rs1] [] then s.fin ((c.resolve n (c.gs rs1 != 0)).noteHeads (s.waitCk s.cur.1)) else s)

/-- gset, eq (R174). -/
def execGsetEq (n : BitVec 4) (rs1 : BitVec 5) (s : State) : Out :=
  s.onMy fun c => .next (if c.free [rs1] [] then s.fin ((c.resolve n (c.gs rs1 == 0)).noteHeads (s.waitCk s.cur.1)) else s)

/-! ## qstat -/

/-- The value that qstat reads (R184); a discarded head is Completing (R171). -/
def qstatWord (c : Core) (g : Engine) (lease : Bool) : Word :=
  let q := c.queue g
  let st := (q.head?).map Entry.step
  .ofNat 64 (q.length + 2 ^ 6 * (st == some .running || st == some .discarded).toNat + 2 ^ 7 * (st == some .guardHeld).toNat +
    2 ^ 8 * (st == some .semWaiting).toNat + 2 ^ 9 * (g == .matrix && lease).toNat +
    2 ^ 16 * (c.last.getD (engineCode g) .ok).code + 2 ^ 32 * (c.done.getD (engineCode g) 0).toNat)

/-- Whether a core holds the matrix lease (R305). -/
def HerdCtx.leases (x : HerdCtx) (c : Nat) : Bool := (x.lease.map Lease.core) == some c

/-- qstat (R184). -/
def execQstat (rd : BitVec 5) (eng : Engine) (s : State) : Out :=
  scalar1 [] rd (fun c => qstatWord c eng (s.myCtx.leases s.cur.2)) s

end Sys2Proof.Machine
end

