-- ==== Sys2Proof/Machine/Health.lean ====
section
/-! DEFINITION. Reads that meet errors, and what health counts (spec/09_memory_spaces.md R226 to R231,
16_retirement_and_health.md R434, R435, 19_program_embedding_bag.md R450). -/

namespace Sys2Proof.Machine

/-! ## Counters and the error log -/

/-- A health counter (R435). -/
def State.counter (s : State) (k : CounterKey) : Counter := (s.counters.find? fun c => c.key = k).getD ⟨k, 0, 0⟩

/-- The cycle counter of a die (R20, R433). -/
def State.dieClock (s : State) (die : Nat) : Nat := s.now + ((s.dies[die]?).map Die.ahead).getD 0

/-- Firmware records an entry, stamped with the count of its die (R20); the newest 4,096 are kept and every one is counted (R434). -/
def State.record (s : State) (die kind qid : Nat) (w1 w2 w3 : Word) : State :=
  { s with log := (⟨s.dieClock die, die, kind, qid, w1, w2, w3⟩ :: s.log).take 4096, logged := s.logged + 1 }

/-- A launch that has not retired (R86). -/
def State.launch? (s : State) (lseq : Nat) : Option Launch := s.tahr.launches.find? fun l => l.lseq == lseq

/-- The queue of the work that a herd runs; 0xFFF for none (R434). -/
def State.qidOf (s : State) (x : HerdCtx) : Nat :=
  match x.held with
  | some n => ((s.launch? n.lseq).map Launch.qid).getD 0xFFF
  | none => 0xFFF

/-! ## Protected reads -/

/-- The first locations / 16 of the protected units that n bytes at a location lie in: 16-byte rows of a scratchpad, 64-byte
lines elsewhere (R223, R233). -/
def unitsOf (l n : Nat) : List Nat :=
  if n = 0 then []
  else if isScratch l then (List.range ((l + n - 1) / 16 - l / 16 + 1)).map fun i => l / 16 + i
  else (List.range ((l + n - 1) / 64 - l / 64 + 1)).map fun i => (l / 64 + i) * 4

/-- The bank that holds rows of a data bank: the parity bank stands in for one that has retired (R230). -/
def CorePhys.holder (p : CorePhys) (h c bank : Nat) : UnitId :=
  if ((p.groups[bank / 4]?).map fun g => g.lostBanks.contains bank).getD false then .parityBank h c (bank / 4) else .dataBank h c bank

/-- The counter of a unit of memory (R435): the bank that holds a scratchpad row, else the die's lines. -/
def State.unitKey (s : State) (row : Nat) : CounterKey :=
  if isScratch (row * 16) then
    let x := row * 16 - 2 ^ 42
    .unit (((s.physAt (row * 16)).map fun p => p.holder (x / 2 ^ 23) (x / 2 ^ 20 % 8) (p.position (x % 2 ^ 20)).1).getD
      (.dataBank (x / 2 ^ 23) (x / 2 ^ 20 % 8) (row % 32)))
  else lineKey row

/-- Whether another data bank of the group holds an uncorrectable error in the row that holds a scratchpad row (R229). -/
def State.mateBad (s : State) (p : CorePhys) (row : Nat) : Bool :=
  let q := p.position ((row * 16 - 2 ^ 42) % 2 ^ 20)
  s.marks.any fun e =>
    let r := p.position ((e.row * 16 - 2 ^ 42) % 2 ^ 20)
    decide (isScratch (e.row * 16) ∧ e.row / 2 ^ 16 = row / 2 ^ 16 ∧ e.kind = .double ∧ r.1 ≠ q.1 ∧ r.1 / 4 = q.1 / 4 ∧
      r.2 = q.2)

/-- A parity row is read for a rebuild: a single-bit error is corrected, and each error is counted; whether it is good
(R229). -/
def State.parityRead (s : State) (h c g r : Nat) : State × Bool :=
  match ((s.herds[h]?).bind fun x => x.phys[c]?).bind fun p => p.perrs.find? fun e => e.1 == (g, r) with
  | none => (s, true)
  | some e =>
    if e.2 = .single then
      ((s.modHerd h fun x => { x with phys := x.phys.modify c fun p => { p with perrs := p.perrs.erase e } }).bump
        (.unit (.parityBank h c g)) 0 1, true)
    else (s.bump (.unit (.parityBank h c g)) 1 0, false)

/-- Whether a scratchpad row may be reconstructed: its group is not degraded, and the row not stale (R226, R227, R230). -/
def CorePhys.mayRecon (p : CorePhys) (a : Nat) : Bool :=
  let q := p.position a
  !((p.groups[q.1 / 4]?).map fun y => y.degraded || y.dead).getD true && !p.stale.contains (q.1 / 4, q.2)

/-- Whether the unit that a read meets may be reconstructed (R226). -/
def State.mayRecon (s : State) (row : Nat) : Bool :=
  isScratch (row * 16) && ((s.physAt (row * 16)).map fun p => p.mayRecon ((row * 16 - 2 ^ 42) % 2 ^ 20)).getD false

/-- The attempt to rebuild a row from the other four banks: it may be reconstructed, and each of the four is good (R229). -/
def State.rebuild (s : State) (row : Nat) : State × Bool :=
  let x := row * 16 - 2 ^ 42
  match s.physAt (row * 16) with
  | some p =>
    let q := p.position (x % 2 ^ 20)
    if s.mayRecon row && !s.mateBad p row then s.parityRead (x / 2 ^ 23) (x / 2 ^ 20 % 8) (q.1 / 4) q.2
    else (s, false)
  | none => (s, false)

/-- How the read of one unit ends. -/
inductive UnitRead where
  | good | bad
  deriving DecidableEq, Repr

/-- Read one protected unit: a single-bit error is corrected and counted; an uncorrectable scratchpad row is rebuilt where the
group allows it; a soft error of a clean line ends with this read (R229, R450). ld.nr rebuilds nothing (R250). -/
def State.readUnit (s : State) (nr : Bool) (row : Nat) : State × UnitRead :=
  if s.inDeadGroup (row * 16) then (s, .bad)
  else match s.marks.find? fun e => e.row = row with
    | none => (s, .good)
    | some e =>
      let clean := { s with marks := s.marks.erase e }
      match e.kind with
      | .single => (clean.bump (s.unitKey row) 0 1, .good)
      | .soft => (clean.bump (s.unitKey row) 1 0, .bad)
      | .double =>
        let x := if nr then (s, false) else s.rebuild row
        let t := x.1.bump (s.unitKey row) 1 0
        if x.2 then ({ t with marks := t.marks.erase e }, .good) else (t, .bad)

/-- Read every unit that an access touches: the units that are unrecoverable, lowest first. -/
def State.readUnits (s : State) (nr : Bool) : List Nat → State × List Nat
  | [] => (s, [])
  | r :: rs =>
    match s.readUnit nr r with
    | (t, .good) => t.readUnits nr rs
    | (t, .bad) =>
      let x := t.readUnits nr rs
      (x.1, r :: x.2)

/-- A reconstructed read of a row by an engine fails its check, where the row may be reconstructed: it is counted, and the engine
repeats it directly (R229; log 63). -/
def State.missRow (s : State) (row : Nat) : State :=
  if s.misses.contains row then
    let t := { s with misses := s.misses.erase row }
    if s.mayRecon row then t.bump (s.unitKey row) 1 0 else t
  else s

/-- Every unit that an engine's access touches is read: the units that are unrecoverable, lowest first (R229). -/
def State.engineUnits (s : State) (rows : List Nat) : State × List Nat := (rows.foldl State.missRow s).readUnits false rows

/-- n bytes as their home reads them for an atomic or an arrival, as a number: those of a unit in error are free (R229, R450;
log 64). -/
def State.homeRead (s : State) (l n : Nat) : State × Nat :=
  match s.readUnits false (unitsOf l n) with
  | (t, []) => (t, t.loadNat l n)
  | (t, _) => ({ t with fv := t.fv + 1 }, leNat ((List.range n).map fun i => Config.freeByte t.fv (l + i)))

/-- Bytes as an engine reads them: an unrecoverable unit is taken as zeros (R229, R269); with the count of such units. -/
def State.engineRead (s : State) (l n : Nat) : State × List Byte × Nat :=
  let x := s.engineUnits (unitsOf l n)
  let span := if isScratch l then 16 else 64
  (x.1, (List.range n).map (fun i =>
      if x.2.any fun r => decide (r * 16 ≤ l + i ∧ l + i < r * 16 + span) then 0 else x.1.mem.byte (l + i)), x.2.length)

end Sys2Proof.Machine
end

