-- ==== Sys2Proof/Machine/Access.lean ====
section
/-! DEFINITION. Scalar loads and stores, register images, the store queue (spec/10_memory_instructions.md R248 to R254). -/

namespace Sys2Proof.Machine

/-! ## A core's own earlier accesses -/

/-- Whether two ranges of locations overlap. -/
def overlap (a n b m : Nat) : Bool := decide (a < b + m ∧ b < a + n)

/-- The locations that a store-queue entry writes: first and count. -/
def SqOp.range : SqOp → Option (Nat × Nat)
  | .store l d => some (l, d.length)
  | .amo _ l n _ _ _ => some (l, n)
  | .remote _ _ _ => none

/-- Whether an entry of the store queue is an atomic. -/
def SqOp.isAmo : SqOp → Bool
  | .amo _ _ _ _ _ _ | .remote _ (.amo _ _ _ _ _) _ => true
  | _ => false

/-- Whether an entry overlaps n bytes at a location. -/
def SqEntry.hits (e : SqEntry) (l n : Nat) : Bool :=
  match e.op.range with
  | some (a, m) => overlap a m l n
  | none => false

/-- What a load meets in the store queue: nothing, the bytes of the youngest overlapping store, or a wait (R254). -/
inductive Forward where
  | clear
  | bytes (bs : List Byte)
  | wait
  deriving DecidableEq, Repr

/-- The youngest store of the queue that overlaps n bytes at a location (R254). -/
def youngest (sq : List SqEntry) (l n : Nat) : Option SqEntry := sq.reverse.find? fun e => e.hits l n

/-- The comparison of a load with the store queue (R254). -/
def forwardOf (sq : List SqEntry) (l n : Nat) : Forward :=
  match youngest sq l n with
  | none => .clear
  | some e =>
    match e.op with
    | .store a d => if a ≤ l ∧ l + n ≤ a + d.length then .bytes ((d.drop (l - a)).take n) else .wait
    | _ => .wait

/-- Whether a vector result that has not landed writes a location (R117, R193). -/
def Core.unlanded (c : Core) (l : Nat) : Bool :=
  c.vlands.any fun e => e.targets.any fun t => t.cells.any fun x => x.1 = l

/-- Bytes as a load of the core finds them in memory: a byte whose vector result is still on its way is free (R193). -/
def State.ownRead (s : State) (c : Core) (l n : Nat) : State × List Byte :=
  if (List.range n).any fun i => c.unlanded (l + i) then
    ({ s with fv := s.fv + 1 }, (List.range n).map fun i =>
      if c.unlanded (l + i) then Config.freeByte s.fv (l + i) else s.mem.byte (l + i))
  else (s, s.mem.read l n)

/-! ## Access-queue loads in the way of others -/

/-- Whether every earlier access-queue load of a core has performed. -/
def Core.aqDone (c : Core) : Bool := c.aq.all List.isEmpty

/-- An entry goes in behind those that are not later in program order. -/
def putInOrder (x : Nat × Nat × Nat) : List (Nat × Nat × Nat) → List (Nat × Nat × Nat)
  | [] => [x]
  | y :: r => if x.1 < y.1 then x :: y :: r else y :: putInOrder x r

/-- The entries of a core's access queues in program order, by queue and place. -/
def Core.aqOrder (c : Core) : List (Nat × Nat) :=
  ((c.aq.zipIdx.flatMap fun q => q.1.zipIdx.map fun e => (e.1.seq, q.2, e.2)).foldl (fun l x => putInOrder x l) []).map (·.2)

/-- The record of an access-queue entry, as captured at its push (R255). -/
def AqEntry.asRec (e : AqEntry) : Rec := ⟨e.base, e.extent, 0, 0, 0, e.bounds, 0, e.bad⟩

/-- The checks of an access-queue entry (R222, R217, R259). -/
def State.aqReach (s : State) (h c : Nat) (e : AqEntry) : State × Reach :=
  s.through h c e.user e.asRec e.off ⟨e.width, e.width, false, true⟩

/-- What the access-queue loads before a point in program order have still to read, but for those that a fault holds: each one's place
in program order, and first and count, or nothing where the host has not translated the entry yet (R254). -/
def State.aqPlaces (s : State) (h c seq : Nat) (x : Core) : State × List (Nat × Option (Nat × Nat)) :=
  (x.aq.flatten.filter fun e => decide (e.seq < seq) && e.held.isNone && e.data.isNone).foldl (fun y e =>
    match y.1.aqReach h c e with
    | (t, .at_ _ (.loc a _)) => (t, y.2 ++ [(e.seq, some (a, e.width))])
    | (t, .wait) => (t, y.2 ++ [(e.seq, none)])
    | (t, _) => (t, y.2)) (s, [])

/-- Whether some place from a point in program order on overlaps n bytes at a location, or may. -/
def placesMeet (ps : List (Nat × Option (Nat × Nat))) (first l n : Nat) : Bool :=
  ps.any fun p => decide (first ≤ p.1) && match p.2 with
    | some (a, m) => overlap a m l n
    | none => true

/-- Whether an access-queue load before a point in program order has to perform first (R254, R358). -/
def State.aqHolds (s : State) (h c seq l n : Nat) (x : Core) : State × Bool :=
  let r := s.aqPlaces h c seq x
  (r.1, placesMeet r.2 0 l n)

/-- Where a load begins to wait for access-queue loads: at the store of the queue whose bytes it takes, behind which an access-queue
load must not read a later write (R358); else at the start. -/
def loadFirst (sq : List SqEntry) (l n : Nat) : Nat := ((youngest sq l n).map SqEntry.seq).getD 0

/-- Whether a load has to wait for an access-queue load before it (R254, R358), given the earlier stores of its core's queue. -/
def State.loadHolds (s : State) (h c seq l n : Nat) (sq : List SqEntry) (x : Core) : State × Bool :=
  let r := s.aqPlaces h c seq x
  (r.1, placesMeet r.2 (loadFirst sq l n) l n)

/-! ## Loads -/

/-- How a scalar read ends. -/
inductive Got where
  | bytes (bs : List Byte)
  | trap  (t : Cause)
  | wait

/-- A load meets the store queue (R254), waits for the access-queue loads of its bytes before it (R358), and then meets memory. A
reconstructed read of a core's scratchpad that fails its check is reported once; the word then reads the bank directly (R226,
R229). -/
def State.scalarGet (s : State) (c : Core) (ptr : Word) (l n : Nat) (nr : Bool) : State × Got :=
  match forwardOf c.sq l n, s.loadHolds s.cur.1 s.cur.2 c.seq l n c.sq c with
  | .wait, _ => (s, .wait)
  | _, (t, true) => (t, .wait)
  | .bytes bs, (t, false) => (t, .bytes bs)
  | .clear, (t, false) =>
      if c.reconMiss && !nr && (unitsOf l n).any t.mayRecon then
        (t.modCore t.cur.1 t.cur.2 Core.reconFault, .trap (.reconstruction 0 ptr))
      else
        match t.readUnits nr (unitsOf l n) with
        | (u, []) => ((u.ownRead c l n).1, .bytes (u.ownRead c l n).2)
        | (u, _) => (u, .trap (.reconstruction 1 ptr))

/-- A read of n bytes through a record by the executing core, with every check (R222, R217, R248). -/
def State.loadRec (s : State) (c : Core) (b : BitVec 4) (o : Int) (n align : Nat) (nr : Bool) : State × Got :=
  match s.through s.cur.1 s.cur.2 (!c.x.priv) (recOf (c.gb b)) o ⟨n, align, false, true⟩ with
  | (t, .fail e) => (t, .trap e)
  | (t, .wait) => (t, .wait)
  | (t, .none_ _) => (t, .bytes (.replicate n 0))
  | (t, .at_ p (.peer _ _)) => (t, .trap (.bounds false p))
  | (t, .at_ p (.loc l _)) => t.scalarGet c p l n (nr && (pSpace p == 1 || pSpace p == 2))

/-- A scalar load (R248): s is pending until the value lands, and a load into s0 performs its access. -/
def load (rd : BitVec 5) (b : BitVec 4) (off : BitVec 15) (n : Nat) (nr : Bool) (f : Word → Word) (s : State) : Out :=
  s.onMy fun c =>
    if c.free [] [rd] && c.here [.b b] then
      match s.loadRec c b off.toInt n n nr with
      | (t, .trap e) => t.trap e
      | (t, .wait) => .next t
      | (t, .bytes bs) => .next (t.fin (c.post rd (f (.ofNat 64 (leNat bs)))))
    else .next s

/-- ld.b (R248). -/
def execLdB (rd : BitVec 5) (b : BitVec 4) (off : BitVec 15) : State → Out := load rd b off 1 false (sextFrom 8)
/-- ld.bu (R248). -/
def execLdBu (rd : BitVec 5) (b : BitVec 4) (off : BitVec 15) : State → Out := load rd b off 1 false (zextFrom 8)
/-- ld.h (R248). -/
def execLdH (rd : BitVec 5) (b : BitVec 4) (off : BitVec 15) : State → Out := load rd b off 2 false (sextFrom 16)
/-- ld.hu (R248). -/
def execLdHu (rd : BitVec 5) (b : BitVec 4) (off : BitVec 15) : State → Out := load rd b off 2 false (zextFrom 16)
/-- ld.w (R248). -/
def execLdW (rd : BitVec 5) (b : BitVec 4) (off : BitVec 15) : State → Out := load rd b off 4 false (sextFrom 32)
/-- ld.wu (R248). -/
def execLdWu (rd : BitVec 5) (b : BitVec 4) (off : BitVec 15) : State → Out := load rd b off 4 false (zextFrom 32)
/-- ld.d (R248). -/
def execLdD (rd : BitVec 5) (b : BitVec 4) (off : BitVec 15) : State → Out := load rd b off 8 false id
/-- ld.nr (R250): never reconstructed and never rebuilt. -/
def execLdNr (rd : BitVec 5) (b : BitVec 4) (off : BitVec 15) : State → Out := load rd b off 8 true id

/-! ## Stores -/

/-- How the checks of a store end. -/
inductive Put where
  | go (op : Option SqOp)
  | trap (t : Cause)
  | wait

/-- The checks of a store of bytes through a record (R222, R217, R219). -/
def State.storeRec (s : State) (c : Core) (b : BitVec 4) (o : Int) (bs : List Byte) (align : Nat) : State × Put :=
  match s.through s.cur.1 s.cur.2 (!c.x.priv) (recOf (c.gb b)) o ⟨bs.length, align, true, false⟩ with
  | (t, .fail e) => (t, .trap e)
  | (t, .wait) => (t, .wait)
  | (t, .none_ _) => (t, .go none)
  | (t, .at_ _ (.peer port a)) => (t, .go (some (.remote port (.store a bs) 0)))
  | (t, .at_ _ (.loc l _)) => (t, .go (some (.store l bs)))

/-- The store enters the store queue with the colour of its record (R221, R253). -/
def Core.enqueue (c : Core) (op : SqOp) (colour : BitVec 3) : Core := { c with sq := c.sq ++ [⟨op, colour, c.seq⟩] }

/-- A store of bytes: a full store queue holds it (R248, R253). -/
def store (reads : List (BitVec 5)) (regs : List BankReg) (b : BitVec 4) (off : BitVec 15) (align : Nat)
    (f : Core → List Byte) (s : State) : Out :=
  s.onMy fun c =>
    if c.free reads [] && c.here (.b b :: regs) && decide (c.sq.length < 64) then
      match s.storeRec c b off.toInt (f c) align with
      | (t, .trap e) => t.trap e
      | (t, .wait) => .next t
      | (t, .go none) => .next (t.fin c)
      | (t, .go (some op)) => .next (t.fin (c.enqueue op (recOf (c.gb b)).colour))
    else .next s

/-- A scalar store of n bytes (R248). -/
def storeReg (rs : BitVec 5) (b : BitVec 4) (off : BitVec 15) (n : Nat) : State → Out :=
  store [rs] [] b off n fun c => leBytes n (c.gs rs).toNat

/-- st.b (R248). -/
def execStB (rs : BitVec 5) (b : BitVec 4) (off : BitVec 15) : State → Out := storeReg rs b off 1
/-- st.h (R248). -/
def execStH (rs : BitVec 5) (b : BitVec 4) (off : BitVec 15) : State → Out := storeReg rs b off 2
/-- st.w (R248). -/
def execStW (rs : BitVec 5) (b : BitVec 4) (off : BitVec 15) : State → Out := storeReg rs b off 4
/-- st.d (R248). -/
def execStD (rs : BitVec 5) (b : BitVec 4) (off : BitVec 15) : State → Out := storeReg rs b off 8

/-! ## Register images (R251, R252) -/

/-- The ring fields head and tail of a stream register, bits [191:128], at zero (R294). -/
def zeroRing (q : Image) : Image := q &&& ~~~((BitVec.allOnes 64).zeroExtend 256 <<< 128)

/-- Stream registers that an entry of a queue names (R252). -/
def ringsOf : Instr → List (BitVec 4)
  | .pcopy _ p | .pgath _ p => if p.ring then [p.db] else []
  | .pring _ p => [p.sb]
  | .mmul _ _ a b _ | .msl _ _ a b _ _ | .mkat _ _ a b _ _ => [a, b]
  | .wfeed _ _ (.stream q _) _ _ p => q :: p.toList
  | .wfeed _ _ .buf _ _ p => p.toList
  | .wdrain _ _ q _ _ _ _ => [q]
  | _ => []

/-- Whether an entry of any engine queue of the core names a stream register as a ring (R252). -/
def Core.ringBusy (c : Core) (n : BitVec 4) : Bool := c.eq.any fun q => q.any fun e => (ringsOf e.word).contains n

/-- A load of a 32-byte image (R251). -/
def loadImage (b : BitVec 4) (off : BitVec 15) (ok : Core → Bool) (put : Core → Image → Core) (s : State) : Out :=
  s.onMy fun c =>
    if c.here [.b b] && ok c then
      match s.loadRec c b off.toInt 32 32 false with
      | (t, .trap e) => t.trap e
      | (t, .wait) => .next t
      | (t, .bytes bs) => .next (t.fin (put c (.ofNat 256 (leNat bs))))
    else .next s

/-- ldb (R251): the image is copied as it stands. -/
def execLdb (n b : BitVec 4) (off : BitVec 15) : State → Out :=
  loadImage b off (fun _ => true) fun c i => { c.present (.b n) with b := c.b.set n.toNat i }

/-- stb (R251). -/
def execStb (n b : BitVec 4) (off : BitVec 15) : State → Out :=
  store [] [.b n] b off 32 fun c => leBytes 32 (c.gb n).toNat

/-- ldq (R251, R252): head and tail become zero; the word waits for every entry that names the register. -/
def execLdq (n b : BitVec 4) (off : BitVec 15) : State → Out :=
  loadImage b off (fun c => !c.ringBusy n) fun c i => { c.present (.q n) with
    q := c.q.set n.toNat (zeroRing i), lapped := c.lapped &&& ~~~ .twoPow 16 n.toNat }

/-- stq (R251, R252). -/
def execStq (n b : BitVec 4) (off : BitVec 15) (s : State) : Out :=
  s.onMy fun c =>
    if c.ringBusy n then .next s else store [] [.q n] b off 32 (fun c => leBytes 32 (c.gq n).toNat) s

end Sys2Proof.Machine
end

