-- ==== Sys2Proof/Machine/Formats.lean ====
section
/-! DEFINITION. Number formats and the one rounding operator (spec/11_number_formats.md R275 to R282, R286 to R291). Exact
reals are fractions of naturals with a sign. -/

namespace Sys2Proof.Machine

/-- A NaN, an infinity, or an exact real (-1)^neg * num / den, den above 0; a zero keeps its sign. -/
inductive Num where
  | nan
  | inf (neg : Bool)
  | fin (neg : Bool) (num den : Nat)
  deriving DecidableEq, Repr, Inhabited

/-- A floating-point format (R275, R278): its width, mantissa width, exponent of the smallest normal, the magnitude code of
the largest finite value, and the magnitude codes of infinity and of the default NaN where it has them. -/
structure FFmt where
  bits : Nat
  man  : Nat
  emin : Int
  top  : Nat
  inf  : Option Nat
  nan  : Option Nat
  deriving DecidableEq, Repr, Inhabited

def F64 : FFmt := ⟨64, 52, -1022, 0x7FEFFFFFFFFFFFFF, some 0x7FF0000000000000, some 0x7FF8000000000000⟩
def F32 : FFmt := ⟨32, 23, -126, 0x7F7FFFFF, some 0x7F800000, some 0x7FC00000⟩
def BF16 : FFmt := ⟨16, 7, -126, 0x7F7F, some 0x7F80, some 0x7FC0⟩
def F16 : FFmt := ⟨16, 10, -14, 0x7BFF, some 0x7C00, some 0x7E00⟩
def E5M2 : FFmt := ⟨8, 2, -14, 0x7B, some 0x7C, some 0x7E⟩
def E4M3 : FFmt := ⟨8, 3, -6, 0x7E, none, some 0x7F⟩
def E3M2 : FFmt := ⟨6, 2, -2, 0x1F, none, none⟩
def E2M3 : FFmt := ⟨6, 3, 0, 0x1F, none, none⟩
def E2M1 : FFmt := ⟨4, 1, 0, 0x7, none, none⟩

/-- The floating-point format of an element type. -/
def fmtOf : ElemType → Option FFmt
  | .f16 => some F16 | .bf16 => some BF16 | .f32 => some F32 | .e4m3 => some E4M3 | .e5m2 => some E5M2
  | .e3m2 => some E3M2 | .e2m3 => some E2M3 | .e2m1 => some E2M1
  | _ => none

/-- 2 to an integer power as a fraction. -/
def pow2 (e : Int) : Nat × Nat := if 0 ≤ e then (2 ^ e.toNat, 1) else (1, 2 ^ (-e).toNat)

/-- (-1)^neg * n * 2^e. -/
def Num.dyadic (neg : Bool) (n : Nat) (e : Int) : Num := .fin neg (n * (pow2 e).1) (pow2 e).2

/-- Whether an encoding is negative. -/
def FFmt.negOf (f : FFmt) (x : Nat) : Bool := x.testBit (f.bits - 1)

/-- The magnitude code of an encoding. -/
def FFmt.magOf (f : FFmt) (x : Nat) : Nat := x % 2 ^ (f.bits - 1)

/-- Whether an encoding is a NaN (R275). -/
def FFmt.isNan (f : FFmt) (x : Nat) : Bool :=
  match f.inf, f.nan with
  | some i, _ => decide (i < f.magOf x)
  | none, some n => f.magOf x == n
  | none, none => false

/-- The value of an encoding (R276). -/
def FFmt.decode (f : FFmt) (x : Nat) : Num :=
  let g := f.magOf x
  if f.isNan x then .nan
  else if f.inf = some g then .inf (f.negOf x)
  else if g < 2 ^ f.man then .dyadic (f.negOf x) g (f.emin - f.man)
  else .dyadic (f.negOf x) (2 ^ f.man + g % 2 ^ f.man) (f.emin - f.man + (g / 2 ^ f.man - 1 : Nat))

/-- An encoding of a sign and a magnitude code. -/
def FFmt.code (f : FFmt) (neg : Bool) (g : Nat) : Nat := (if neg then 2 ^ (f.bits - 1) else 0) + g

/-- nan_of (R281): formats without a NaN give +0. -/
def FFmt.nanOf (f : FFmt) : Nat := f.nan.getD 0

/-- inf_of (R281). -/
def FFmt.infOf (f : FFmt) (neg sat : Bool) : Nat :=
  match f.inf, f.nan with
  | some i, _ => f.code neg (if sat then f.top else i)
  | none, some n => if sat then f.code neg f.top else n
  | none, none => f.code neg f.top

/-- overflow (R281). -/
def FFmt.overflow (f : FFmt) (neg : Bool) (rnd : Rnd) (sat : Bool) : Nat :=
  match f.inf, f.nan with
  | some i, _ =>
    if sat then f.code neg f.top
    else match rnd with
      | .rne => f.code neg i
      | .rtz => f.code neg f.top
      | .rdn => f.code neg (if neg then i else f.top)
      | .rup => f.code neg (if neg then f.top else i)
  | none, some n => if sat then f.code neg f.top else n
  | none, none => f.code neg f.top

/-- Round n / d to an integer, for a value of the given sign (R280). -/
def rint (rnd : Rnd) (neg : Bool) (n d : Nat) : Nat :=
  let q := n / d
  let r := n % d
  match rnd with
  | .rne => if d < 2 * r ∨ (2 * r = d ∧ q % 2 = 1) then q + 1 else q
  | .rtz => q
  | .rdn => if neg ∧ r ≠ 0 then q + 1 else q
  | .rup => if !neg ∧ r ≠ 0 then q + 1 else q

/-- floor(log2(n / d)) for n and d above 0. -/
def floorLog2 (n d : Nat) : Int :=
  let k : Int := (Nat.log2 n : Int) - Nat.log2 d
  if d * (pow2 k).1 ≤ n * (pow2 k).2 then k else k - 1

/-- round_to of R280: an encoding of the format. -/
def roundTo (f : FFmt) (rnd : Rnd) (sat : Bool) : Num → Nat
  | .nan => f.nanOf
  | .inf neg => f.infOf neg sat
  | .fin neg n d =>
    if n = 0 then f.code neg 0
    else
      let e := max (floorLog2 n d) f.emin
      let q := pow2 (e - f.man)
      let r := rint rnd neg (n * q.2) (d * q.1)
      let g := (e - f.emin).toNat * 2 ^ f.man + r
      if f.top < g then f.overflow neg rnd sat else f.code neg g

/-- round_rne of R280. -/
def roundRne (f : FFmt) (x : Num) : Nat := roundTo f .rne false x

/-! ## Exact arithmetic -/

def Num.isNan : Num → Bool
  | .nan => true
  | _ => false

def Num.isZero : Num → Bool
  | .fin _ 0 _ => true
  | _ => false

/-- The sign of a value. -/
def Num.neg? : Num → Bool
  | .nan => false
  | .inf n => n
  | .fin n _ _ => n

def Num.negate : Num → Num
  | .nan => .nan
  | .inf n => .inf (!n)
  | .fin n a b => .fin (!n) a b

def Num.ofInt (x : Int) : Num := .fin (decide (x < 0)) x.natAbs 1

/-- The signed numerator of a finite value. -/
def signed (neg : Bool) (n : Nat) : Int := if neg then -(n : Int) else n

/-- What two denominators are multiplied by to meet. -/
def meetDens (d e : Nat) : Nat × Nat := if e % d = 0 then (e / d, 1) else if d % e = 0 then (1, d / e) else (e, d)

/-- An exact sum; a zero sum of values that are not both negative zeros is +0, or -0 when rounding down (R198). -/
def Num.add (rnd : Rnd) : Num → Num → Num
  | .nan, _ => .nan
  | _, .nan => .nan
  | .inf a, .inf b => if a = b then .inf a else .nan
  | .inf a, _ => .inf a
  | _, .inf b => .inf b
  | .fin a n d, .fin b m e =>
    let k := meetDens d e
    let t := signed a n * k.1 + signed b m * k.2
    if t = 0 then .fin (if n = 0 ∧ m = 0 ∧ a = b then a else rnd == .rdn) 0 1
    else .fin (decide (t < 0)) t.natAbs (d * k.1)

/-- An exact product. -/
def Num.mul : Num → Num → Num
  | .nan, _ => .nan
  | _, .nan => .nan
  | .inf a, .inf b => .inf (a != b)
  | .inf a, .fin b m _ => if m = 0 then .nan else .inf (a != b)
  | .fin a n _, .inf b => if n = 0 then .nan else .inf (a != b)
  | .fin a n d, .fin b m e => .fin (a != b) (n * m) (d * e)

/-- An exact quotient. -/
def Num.div : Num → Num → Num
  | .nan, _ => .nan
  | _, .nan => .nan
  | .inf _, .inf _ => .nan
  | .inf a, .fin b _ _ => .inf (a != b)
  | .fin a _ _, .inf b => .fin (a != b) 0 1
  | .fin a n d, .fin b m e =>
    if m = 0 then (if n = 0 then .nan else .inf (a != b)) else .fin (a != b) (n * e) (d * m)

/-- Less than, of values that are no NaN. -/
def Num.lt : Num → Num → Bool
  | .nan, _ => false
  | _, .nan => false
  | .inf a, .inf b => a && !b
  | .inf a, .fin _ _ _ => a
  | .fin _ _ _, .inf b => !b
  | .fin a n d, .fin b m e => decide (signed a n * e < signed b m * d)

/-- Equality of values that are no NaN; both zeros are equal (R276). -/
def Num.eqv : Num → Num → Bool
  | .nan, _ => false
  | _, .nan => false
  | .inf a, .inf b => a == b
  | .inf _, .fin _ _ _ => false
  | .fin _ _ _, .inf _ => false
  | .fin a n d, .fin b m e => decide (signed a n * e = signed b m * d)

/-- A value rounded to an integer and clamped; a NaN gives 0 (R163, R202). -/
def Num.toIntClamp (rnd : Rnd) (lo hi : Int) : Num → Int
  | .nan => 0
  | .inf n => if n then lo else hi
  | .fin neg n d => max lo (min hi (signed neg (rint rnd neg n d)))

/-- An exact widening keeps a NaN's sign and payload and makes it quiet (R163). -/
def widenNan (f g : FFmt) (x : Nat) : Nat :=
  let top := g.inf.getD 0
  g.code (f.negOf x) (top + (x % 2 ^ f.man * 2 ^ (g.man - f.man) ||| 2 ^ (g.man - 1)))

/-- An exact conversion to a wider format (R163). -/
def widenExact (f g : FFmt) (x : Nat) : Nat := if f.isNan x then widenNan f g x else roundRne g (f.decode x)

/-! ## QL4 (R286) -/

/-- The level of a QL4 index. -/
def ql4Level (k : Nat) : Int :=
  [-127, -95, -72, -54, -39, -26, -14, 0, 11, 23, 35, 48, 63, 80, 101, 127].getD k 0

/-- The value of a QL4 element (R287). Level times s8 is an integer, whose zero is positive; the super-scale's sign multiplies it (log 78). -/
def ql4Value (k s8 : Nat) (s : Num) : Num :=
  (Num.ofInt (ql4Level k * s8)).mul s |>.div (.fin false 32385 1)

/-! ## EP128 (R290, R291) -/

def EP128.zero : EP128 := ⟨0, false, false, false⟩

/-- ep128_fit. -/
def EP128.fit (r : EP128) (t : Int) : EP128 :=
  if t > 2 ^ 127 - 1 ∨ t < -2 ^ 127 then
    { r with
      os := if r.ov then r.os else decide (t < 0)
      ov := true
      n := if t < 0 then -2 ^ 127 else 2 ^ 127 - 1 }
  else { r with n := t }

/-- ep128_from. -/
def EP128.from (y x : Int) : EP128 :=
  if 0 ≤ x + 96 then (EP128.mk 0 false false false).fit (y * 2 ^ (x + 96).toNat)
  else
    let d : Int := 2 ^ (-(x + 96)).toNat
    (EP128.mk 0 false false (decide (¬ y % d = 0))).fit (y / d)

/-- ep128_add. -/
def EP128.add (a b : EP128) : EP128 :=
  (EP128.mk 0 (a.ov || b.ov) (if a.ov then a.os else b.os) (a.ix || b.ix)).fit (a.n + b.n)

/-- ep128_round: the value to round, an infinity after an overflow. -/
def EP128.num (a : EP128) : Num :=
  if a.ov then .inf a.os else .dyadic (decide (a.n < 0)) a.n.natAbs (-96)

def EP128.round (a : EP128) (f : FFmt) (rnd : Rnd) : Nat := roundTo f rnd false a.num

/-- The 32-byte image (R290). -/
def EP128.image (a : EP128) : Nat :=
  (a.n % 2 ^ 128).toNat + 2 ^ 128 * (a.ov.toNat + 2 * a.os.toNat + 4 * a.ix.toNat)

/-- The accumulator of an image. -/
def EP128.ofImage (x : Nat) : EP128 :=
  let n : Nat := x % 2 ^ 128
  ⟨if n < 2 ^ 127 then (n : Int) else (n : Int) - 2 ^ 128, x.testBit 128, x.testBit 129, x.testBit 130⟩

end Sys2Proof.Machine
end

