-- ==== Sys2Proof/Machine/Atomics.lean ====
section
/-! DEFINITION. The atomics, and the performing of store-queue entries (spec/14_synchronisation.md R357, R366 to R370,
R384 to R386; spec/10_memory_instructions.md R253, R254). -/

namespace Sys2Proof.Machine

/-! ## The operation -/

/-- func5 of an atomic, and its inverse (R128). -/
def amoOfCode : Nat → Option AmoOp
  | 0 => some .add | 1 => some .and | 2 => some .or | 3 => some .xor | 4 => some .min | 5 => some .max | 6 => some .minu
  | 7 => some .maxu | 8 => some .swap | 9 => some .cas | 10 => some .fadd
  | _ => none

def amoCode : AmoOp → Nat
  | .add => 0 | .and => 1 | .or => 2 | .xor => 3 | .min => 4 | .max => 5 | .minu => 6 | .maxu => 7 | .swap => 8 | .cas => 9
  | .fadd => 10

/-- What an atomic of n bytes stores for the old value x and the operands; nothing for a cas that finds another value
(R367). -/
def amoResult (op : AmoOp) (n : Nat) (x v cmp : Word) : Option Word :=
  let lo (w : Word) : Word := zextFrom (8 * n) w
  let sg (w : Word) : Word := sextFrom (8 * n) w
  match op with
  | .add => some (lo (x + v))
  | .and => some (lo (x &&& v))
  | .or => some (lo (x ||| v))
  | .xor => some (lo (x ^^^ v))
  | .min => some (lo (if (sg x).slt (sg v) then x else v))
  | .max => some (lo (if (sg x).slt (sg v) then v else x))
  | .minu => some (if (lo x).ult (lo v) then lo x else lo v)
  | .maxu => some (if (lo x).ult (lo v) then lo v else lo x)
  | .swap => some (lo v)
  | .cas => if lo x = lo cmp then some (lo v) else none
  | .fadd => some (.ofNat 64 (roundRne F32 (Num.add .rne (F32.decode (lo x).toNat) (F32.decode (lo v).toNat))))

/-- What the result register receives (R367). -/
def amoOld (op : AmoOp) (n : Nat) (x : Word) : Word :=
  match op with
  | .fadd => zextFrom 32 x
  | _ => sextFrom (8 * n) x

/-- Operations that the host performs as AtomicOps (R368). -/
def AmoOp.hostable : AmoOp → Bool
  | .add | .swap | .cas => true
  | _ => false

/-- The atomic at its home, as one indivisible step; the old value (R367, R368). -/
def State.amoAt (s : State) (op : AmoOp) (l n : Nat) (v cmp : Word) : State × Word :=
  let r := s.homeRead l n
  let x : Word := .ofNat 64 r.2
  (match amoResult op n x v cmp with
    | some y => r.1.writeLoc l (leBytes n y.toNat)
    | none => r.1, amoOld op n x)

/-! ## Issue -/

/-- An atomic at record offset off10 × n (R366, R367): it is checked as a store, enters the store queue, and its register is
pending until the old value returns (R253). A port that is down refuses a remote one (R385). -/
def atomic (op : AmoOp) (rd : BitVec 5) (reads : List (BitVec 5)) (b : BitVec 4) (off : BitVec 10) (n : Nat)
    (v cmp : Core → Word) (s : State) : Out :=
  s.onMy fun c =>
    if c.free reads [rd] && c.here [.b b] && decide (c.sq.length < 64) then
      let r := recOf (c.gb b)
      match s.through s.cur.1 s.cur.2 (!c.x.priv) r (off.toNat * n : Nat) ⟨n, n, true, false⟩ with
      | (t, .fail e) => t.trap e
      | (t, .wait) => .next t
      | (t, .none_ _) => .next (t.fin (c.post rd 0))
      | (t, .at_ p (.peer port a)) =>
        if !(t.ports.getD port.toNat false) then t.trap (.bounds true p)
        else .next (t.fin ((c.setPend rd true).enqueue (.remote port (.amo (.ofNat 5 (amoCode op)) a n (v c) (cmp c)) rd) r.colour))
      | (t, .at_ p (.loc l host)) =>
        if host && !op.hostable then t.trap (.bounds false p)
        else match t.readUnits false (unitsOf l n) with
          | (u, []) =>
            let x := c.setPend rd true
            .next (u.fin (x.enqueue (.amo op l n (v c) (cmp c) rd) r.colour))
          | (u, _) => u.trap (.reconstruction 1 p)
    else .next s

/-- An atomic whose operand is its register. -/
def amo (op : AmoOp) (rd : BitVec 5) (b : BitVec 4) (off : BitVec 10) (n : Nat) : State → Out :=
  atomic op rd [rd] b off n (fun c => c.gs rd) fun _ => 0

/-- The register pair of a compare-and-swap, even and odd (R367). -/
def pairEven (p : BitVec 4) : BitVec 5 := p ++ 0#1
def pairOdd (p : BitVec 4) : BitVec 5 := p ++ 1#1

/-- A compare-and-swap (R367). -/
def amocas (p b : BitVec 4) (off : BitVec 10) (n : Nat) : State → Out :=
  atomic .cas (pairEven p) [pairEven p, pairOdd p] b off n (fun c => c.gs (pairOdd p)) fun c => c.gs (pairEven p)

/-- amoadd.w (R367). -/
def execAmoaddW (rd : BitVec 5) (b : BitVec 4) (off : BitVec 10) : State → Out := amo .add rd b off 4
/-- amoand.w (R367). -/
def execAmoandW (rd : BitVec 5) (b : BitVec 4) (off : BitVec 10) : State → Out := amo .and rd b off 4
/-- amoor.w (R367). -/
def execAmoorW (rd : BitVec 5) (b : BitVec 4) (off : BitVec 10) : State → Out := amo .or rd b off 4
/-- amoxor.w (R367). -/
def execAmoxorW (rd : BitVec 5) (b : BitVec 4) (off : BitVec 10) : State → Out := amo .xor rd b off 4
/-- amomin.w (R367). -/
def execAmominW (rd : BitVec 5) (b : BitVec 4) (off : BitVec 10) : State → Out := amo .min rd b off 4
/-- amomax.w (R367). -/
def execAmomaxW (rd : BitVec 5) (b : BitVec 4) (off : BitVec 10) : State → Out := amo .max rd b off 4
/-- amominu.w (R367). -/
def execAmominuW (rd : BitVec 5) (b : BitVec 4) (off : BitVec 10) : State → Out := amo .minu rd b off 4
/-- amomaxu.w (R367). -/
def execAmomaxuW (rd : BitVec 5) (b : BitVec 4) (off : BitVec 10) : State → Out := amo .maxu rd b off 4
/-- amoswap.w (R367). -/
def execAmoswapW (rd : BitVec 5) (b : BitVec 4) (off : BitVec 10) : State → Out := amo .swap rd b off 4
/-- amocas.w (R367). -/
def execAmocasW (pair b : BitVec 4) (off : BitVec 10) : State → Out := amocas pair b off 4
/-- amoadd.d (R367). -/
def execAmoaddD (rd : BitVec 5) (b : BitVec 4) (off : BitVec 10) : State → Out := amo .add rd b off 8
/-- amoand.d (R367). -/
def execAmoandD (rd : BitVec 5) (b : BitVec 4) (off : BitVec 10) : State → Out := amo .and rd b off 8
/-- amoor.d (R367). -/
def execAmoorD (rd : BitVec 5) (b : BitVec 4) (off : BitVec 10) : State → Out := amo .or rd b off 8
/-- amoxor.d (R367). -/
def execAmoxorD (rd : BitVec 5) (b : BitVec 4) (off : BitVec 10) : State → Out := amo .xor rd b off 8
/-- amomin.d (R367). -/
def execAmominD (rd : BitVec 5) (b : BitVec 4) (off : BitVec 10) : State → Out := amo .min rd b off 8
/-- amomax.d (R367). -/
def execAmomaxD (rd : BitVec 5) (b : BitVec 4) (off : BitVec 10) : State → Out := amo .max rd b off 8
/-- amominu.d (R367). -/
def execAmominuD (rd : BitVec 5) (b : BitVec 4) (off : BitVec 10) : State → Out := amo .minu rd b off 8
/-- amomaxu.d (R367). -/
def execAmomaxuD (rd : BitVec 5) (b : BitVec 4) (off : BitVec 10) : State → Out := amo .maxu rd b off 8
/-- amoswap.d (R367). -/
def execAmoswapD (rd : BitVec 5) (b : BitVec 4) (off : BitVec 10) : State → Out := amo .swap rd b off 8
/-- amocas.d (R367). -/
def execAmocasD (pair b : BitVec 4) (off : BitVec 10) : State → Out := amocas pair b off 8
/-- amofadd.f32 (R367). -/
def execAmofaddF32 (rd : BitVec 5) (b : BitVec 4) (off : BitVec 10) : State → Out := amo .fadd rd b off 4

/-! ## Performing store-queue entries -/

/-- Whether the entry idx of the store queue may perform, as far as the core's own stores and vector results go: no earlier entry that
overlaps it, or that goes to the same peer, is still there; no earlier vector result to its bytes is on its way. -/
def Core.mayPerform (x : Core) (idx : Nat) (e : SqEntry) : Bool :=
  match e.op.range with
  | some (l, n) =>
    (x.sq.take idx).all (fun y => !y.hits l n) &&
    x.vlands.all fun y => !decide (y.seq < e.seq) || y.targets.all fun t => t.cells.all fun w => !overlap w.1 1 l n
  | none => (x.sq.take idx).all fun y => match y.op, e.op with
    | .remote p _ _, .remote q _ _ => p != q
    | _, _ => true

/-- Whether the entry idx of the store queue may perform: the core's own accesses allow it, and R254 does, which translates the
access-queue loads before it. -/
def State.mayPerform (s : State) (h c : Nat) (x : Core) (idx : Nat) (e : SqEntry) : State × Bool :=
  if !x.mayPerform idx e then (s, false)
  else match e.op.range with
    | some (l, n) =>
      let r := s.aqHolds h c e.seq l n x
      (r.1, !r.2)
    | none => (s, true)

/-- The result of an atomic returns (R156, R367). -/
def State.amoReturn (s : State) (h c : Nat) (rd : BitVec 5) (v : Word) : State :=
  s.modCore h c fun x => if rd = 0 then x else { x with landings := x.landings ++ [⟨rd, v⟩] }

/-- A store or an atomic of a colour that a port has lost is reported by the core's next fence.c at system scope (R386). -/
def Core.lose (c : Core) (colour : BitVec 3) : Core := { c with lost := c.lost ||| (1#8 <<< colour.toNat) }

/-- The tagged pointer of an access to the abutting part (R216). -/
def peerPtr (port : Bool) (a : Nat) : Word := (4#3 ++ (0#4 ++ BitVec.ofBool port)) ++ BitVec.ofNat 56 a

/-- The value that an atomic of the abutting part returns: its memory is not the part's own, so it is free. -/
def peerOld (code : BitVec 5) (n k : Nat) : Word := amoOld ((amoOfCode code.toNat).getD .add) n (Config.peerWord k)

/-- Whether a core may take a trap at its boundary. -/
def Core.trappable (c : Core) : Bool := c.front != .halted && !c.swapped && (c.block.map Block.withdrawn).getD true

/-- A port goes down before an atomic reaches it: the atomic is not performed, and its core takes the trap of R385 at its next boundary,
or, where it can take none, reports the loss by its next fence; what its register receives is free (log 66). -/
def State.amoLost (s : State) (h c : Nat) (port : Bool) (a n : Nat) (code : BitVec 5) (rd : BitVec 5) (colour : BitVec 3) : State :=
  let t := ({ s with fv := s.fv + 1 } : State).amoReturn h c rd (peerOld code n s.fv)
  if ((t.core? h c).map Core.trappable).getD false then t.enterTrap h c (.bounds true (peerPtr port a)) false
  else t.modCore h c fun x => x.lose colour

/-- A store-queue entry performs (R357, R367, R384 to R386); a store that a port has lost is recorded and reported later. -/
def State.performSq (s : State) (h c : Nat) (e : SqEntry) : State :=
  match e.op with
  | .store l d => s.writeLoc l d
  | .amo op l n v cmp rd =>
    let r := s.amoAt op l n v cmp
    r.1.amoReturn h c rd r.2
  | .remote port op rd =>
    if s.ports.getD port.toNat false then
      let t := { s with sent := s.sent ++ [⟨port, op⟩] }
      match op with
      | .store _ _ => t
      | .amo code _ n _ _ => ({ t with fv := t.fv + 1 } : State).amoReturn h c rd (peerOld code n t.fv)
    else match op with
      | .store a _ => (s.modCore h c fun x => x.lose e.colour).record (h / 16) 3 (((s.ctx? h).map s.qidOf).getD 0xFFF) 0 (peerPtr port a) 0
      | .amo code a n _ _ => s.amoLost h c port a n code rd e.colour

/-- The running context and the spilling context of a herd exchange places. -/
def Herd.exchange (x : Herd) : Herd :=
  match x.old with
  | some o => { x with act := o, old := some x.act }
  | none => x

/-- Act on the spilling context of a herd as if it ran. -/
def State.inOld (s : State) (h : Nat) (f : State → State) : State :=
  (f (s.modHerd h Herd.exchange)).modHerd h Herd.exchange

/-- Act on a herd's running context, then on its spilling one. -/
def State.inBoth (s : State) (h : Nat) (f : State → State) : State :=
  let t := f s
  if ((t.herds[h]?).bind Herd.old).isSome then t.inOld h f else t

/-- The core of the spilling context. -/
def State.oldCore? (s : State) (h c : Nat) : Option Core := ((s.herds[h]?).bind Herd.old).bind fun x => x.cores[c]?

/-- Perform entry idx of a core's store queue, if it may. -/
def State.storePerform (s : State) (h c idx : Nat) : State :=
  match s.core? h c with
  | none => s
  | some x =>
    match x.sq[idx]? with
    | none => s
    | some e =>
      match s.mayPerform h c x idx e with
      | (t, true) => (t.modCore h c fun y => { y with sq := y.sq.eraseIdx idx }).performSq h c e
      | (t, false) => t

/-- STORE_PERFORM (R357): an entry performs and becomes visible, the old context's first (R412). -/
def execStorePerform (herd core idx : Nat) (s : State) : Out :=
  s.onCore herd core fun _ =>
    .next (if ((s.oldCore? herd core).map fun x => !x.sq.isEmpty).getD false then
      s.inOld herd fun t => t.storePerform herd core idx
    else s.storePerform herd core idx)

/-! ## Access queues -/

/-- How an access-queue entry's load ends. -/
inductive AqGot where
  | data (v : Lane)
  | hold (k : AqCause)
  | wait

/-- The cause by which an entry is held (R259, R260). -/
def aqCause : Cause → AqCause
  | .translation k _ => .translation (.ofNat 8 k)
  | .misalignment _ => .misalignment
  | .reconstruction _ _ => .unrecoverable
  | _ => .bounds

/-- The access queues of a core but for one. -/
def Core.otherQueues (c : Core) (e : AqEntry) : Core := { c with aq := c.aq.map fun q => if q.contains e then [] else q }

/-- The load of an access-queue entry (R254, R256, R257, R358): it compares with the earlier unperformed stores, and waits for the
vector results of earlier words and for the earlier loads of its bytes in the other queues. -/
def State.aqLoad (s : State) (h c : Nat) (x : Core) (e : AqEntry) : State × AqGot :=
  match s.aqReach h c e with
  | (t, .fail k) => (t, .hold (aqCause k))
  | (t, .wait) => (t, .wait)
  | (t, .none_ _) => (t, .data 0)
  | (t, .at_ _ (.peer _ _)) => (t, .hold .bounds)
  | (t, .at_ _ (.loc l _)) =>
    if x.vlands.any fun y => decide (y.seq < e.seq) && y.targets.any fun v => v.cells.any fun w => overlap w.1 1 l e.width
    then (t, .wait)
    else
      let sq := x.sq.filter fun y => decide (y.seq < e.seq)
      match forwardOf sq l e.width, t.loadHolds h c e.seq l e.width sq (x.otherQueues e) with
      | .wait, _ => (t, .wait)
      | _, (u, true) => (u, .wait)
      | .bytes bs, (u, false) => (u, .data (.ofNat 32 (leNat bs)))
      | .clear, (u, false) =>
        match u.readUnits false (unitsOf l e.width) with
        | (w, []) => (w, .data (.ofNat 32 (w.loadNat l e.width)))
        | (w, _) => (w, .hold .unrecoverable)

/-- The head of access queue n performs, if its data queue has room, no fault holds it and its core is not swapped (R256, R259,
R412). Data that was loaded at a swap enters the data queue in order (R412). -/
def State.aqPerform (s : State) (h c n : Nat) : State :=
  match s.core? h c with
  | none => s
  | some x =>
    match x.aq.getD n [], decide ((x.dq.getD n []).length < 64) with
    | e :: r, true =>
      let deliver (t : State) (v : Lane) : State := t.modCore h c fun y =>
        { y with aq := y.aq.set n r, dq := y.dq.modify n (· ++ [v]) }
      if e.held.isSome || x.swapped then s
      else match e.data with
        | some v => deliver s v
        | none =>
          match s.aqLoad h c x e with
          | (t, .data v) => deliver t v
          | (t, .hold k) => t.modCore h c fun y =>
            { y with aq := y.aq.set n ({ e with held := some k, reported := false } :: r) }
          | (t, .wait) => t
    | _, _ => s

/-- ACCESS_QUEUE_ENTRY_PERFORM (R256). -/
def execAccessQueueEntryPerform (herd core : Nat) (n : BitVec 2) (s : State) : Out :=
  s.onCore herd core fun _ => .next (s.aqPerform herd core n.toNat)

end Sys2Proof.Machine
end

