-- ==== Sys2Proof/Machine/Barrier.lean ====
section
/-! DEFINITION. Barrier objects and short barriers (spec/14_synchronisation.md R371 to R378). -/

namespace Sys2Proof.Machine

/-- A barrier object (R371). -/
structure Bar where
  dw0 : Word
  dw1 : Word
  deriving DecidableEq, Repr

def Bar.phase (b : Bar) : BitVec 16 := b.dw0.extractLsb' 0 16
def Bar.gen (b : Bar) : Byte := b.dw0.extractLsb' 16 8
def Bar.err (b : Bar) : Byte := b.dw0.extractLsb' 24 8
def Bar.pending (b : Bar) : BitVec 32 := b.dw0.extractLsb' 32 32
def Bar.reload (b : Bar) : BitVec 32 := b.dw1.extractLsb' 0 32
/-- Bytes mode. -/
def Bar.bytes (b : Bar) : Bool := b.dw1.getLsbD 32
def Bar.scope (b : Bar) : Nat := (b.dw1.extractLsb' 33 3).toNat

/-- A reserved bit set, or a scope that is none of 1 to 4 (R371). -/
def Bar.malformed (b : Bar) : Bool := b.dw1.extractLsb' 37 27 != 0 || !decide (1 ≤ b.scope ∧ b.scope ≤ 4)

/-- An object of 16 bytes. -/
def barOf (x : Nat) : Bar := ⟨.ofNat 64 x, .ofNat 64 (x / 2 ^ 64)⟩

/-- The object at a location. -/
def State.barAt (s : State) (l : Nat) : Bar := barOf (s.loadNat l 16)

/-- The object after an arrival that is not discarded (R372). -/
def Bar.arrive (b : Bar) (dec : Nat) (err : Byte) (det : Bool) : Bar :=
  let left := b.pending.toNat - dec
  let adv := b.pending ≠ 0 ∧ left = 0
  let pending : BitVec 32 := if b.pending = 0 then 0 else if left = 0 then b.reload else .ofNat 32 left
  { dw0 := pending ++ ((if err ≠ 0 ∧ b.err = 0 then err else b.err) ++ (b.gen ++ (if adv then b.phase + 1 else b.phase)))
    dw1 := if det then b.dw1 else b.dw1 ||| (1#64 <<< 36) }

/-- Whether an arrival is discarded (R372). -/
def Bar.discards (b : Bar) (tag : Option Byte) : Bool :=
  b.malformed || match tag with
  | some t => t != b.gen
  | none => false

/-- Whether a waiter for a phase is satisfied (R374). -/
def Bar.reached (b : Bar) (t : BitVec 16) : Bool := !(b.phase - t).msb

/-- What an arrival tells the cores that wait (R372, R378). -/
def State.tellCores (s : State) (f : Block → Block) : State :=
  { s with herds := s.herds.map fun x => { x with act := { x.act with cores := x.act.cores.map fun c =>
      { c with block := c.block.map f } } } }

/-- A waiter of the object at a location whose condition holds is woken (R372). -/
def Block.told (l : Nat) (b : Bar) : Block → Block
  | .bwait k p t m => .bwait k p t (m || (k == l && b.reached t))
  | x => x

/-- A WAIT on the object at a location in the part's own memory whose condition holds is woken (R58, R372). -/
def QWait.told (l : Nat) (b : Bar) (w : QWait) : QWait :=
  if w.loc = l ∧ isHost l = false ∧ b.reached w.phase then { w with met := w.met.orElse fun _ => some b.err } else w

/-- An arrival wakes every waiter whose condition now holds (R372). -/
def State.tellWaiters (s : State) (l : Nat) (b : Bar) : State :=
  let t := s.tellCores (Block.told l b)
  { t with tahr := { t.tahr with queues := t.tahr.queues.map fun q => { q with wait := q.wait.map (QWait.told l b) } } }

/-- An arrival at the object at a location, one indivisible update, with a decrement that the object's mode may decide; whether it
was accepted (R372, R373). -/
def State.arriveWith (s : State) (l : Nat) (dec : Bar → Nat) (err : Byte) (tag : Option Byte) (det : Bool) : State × Bool :=
  let r := s.homeRead l 16
  let b := barOf r.2
  if b.discards tag then (r.1, false)
  else
    let n := b.arrive (dec b) err det
    ((r.1.writeLoc l (leBytes 8 n.dw0.toNat ++ leBytes 8 n.dw1.toNat)).tellWaiters l n, true)

/-- An arrival at the object at a location (R372). -/
def State.arriveAt (s : State) (l dec : Nat) (err : Byte) (tag : Option Byte) (det : Bool) : State × Bool :=
  s.arriveWith l (fun _ => dec) err tag det

/-! ## Short barriers (R377) -/

def sbPending (w : Word) : BitVec 24 := w.extractLsb' 0 24
def sbReload (w : Word) : BitVec 24 := w.extractLsb' 24 24
def sbReserved (w : Word) : Bool := w.extractLsb' 48 15 != 0
def sbParity (w : Word) : Bool := w.getLsbD 63

/-- A short barrier after an arrival (R378). -/
def sbArrive (w : Word) (dec : Nat) : Word :=
  if sbPending w = 0 then w
  else
    let left := (sbPending w).toNat - dec
    let flip := left = 0
    BitVec.ofBool (if flip then !sbParity w else sbParity w) ++ (0#15 ++ (sbReload w ++
      (if flip then sbReload w else BitVec.ofNat 24 left)))

/-- A waiter of the short barrier at a location whose condition holds is woken (R378). -/
def Block.toldShort (l : Nat) (w : Word) : Block → Block
  | .pbwait k p b m => .pbwait k p b (m || (k == l && sbParity w == b))
  | x => x

/-- An arrival at the short barrier at a location (R378). -/
def State.arriveShort (s : State) (l dec : Nat) : State :=
  let w := sbArrive (.ofNat 64 (s.loadNat l 8)) dec
  (s.writeLoc l (leBytes 8 w.toNat)).tellCores (Block.toldShort l w)

/-! ## The checks of a barrier word -/

/-- How the checks of a word that addresses one object end. -/
inductive Obj where
  | at_  (l : Nat) (ptr : Word)
  | trap (t : Cause)
  | wait

/-- Whether a pointer of space 0 lies in a page of host memory: its leaf says so, whatever the host answers (R239, R375). -/
def State.onHost (s : State) (h : Nat) (p : Word) : Bool :=
  pSpace p == 0 && match (s.lookup h (s.pasidOf h) (pAddr p)).2 with
    | .ok e => wbit e.dw0 11
    | .error _ => false

/-- Whether a core's own earlier stores and vector results have reached n bytes at a location (R358). -/
def Core.ownDone (c : Core) (l n : Nat) : Bool :=
  c.sq.all (fun e => !e.hits l n) && (List.range n).all fun i => !c.unlanded (l + i)

/-- The checks of R375 in its table's order: record and space, alignment, the spaces allowed, a host page, translation. Bounds mode
zero gives no substitute. -/
def State.object (s : State) (h c : Nat) (user : Bool) (r : Rec) (o : Int) (n : Nat) (write : Bool) (spaces : List Nat) :
    State × Obj :=
  match r.check o n with
  | .error t => (s, .trap t)
  | .ok none => (s, .trap (.bounds false (ptrAt r.base o)))
  | .ok (some p) =>
    match s.space h c p n false with
    | .bad => (s, .trap (.bounds false p))
    | _ =>
      if pAddr p % n ≠ 0 then (s, .trap (.misalignment p))
      else if !spaces.contains (pSpace p) || s.onHost h p then (s, .trap (.bounds false p))
      else match s.reach h c user p ⟨n, n, write, false⟩ with
        | (t, .at_ _ (.loc l host)) => (t, if host then .trap (.bounds false p) else .at_ l p)
        | (t, .at_ _ (.peer _ _)) => (t, .trap (.bounds false p))
        | (t, .none_ _) => (t, .trap (.bounds false p))
        | (t, .fail e) => (t, .trap e)
        | (t, .wait) => (t, .wait)

end Sys2Proof.Machine
end

