-- ==== Sys2Proof/Machine/Sync.lean ====
section
/-! DEFINITION. Fences, spinning, barrier words and semaphores (spec/14_synchronisation.md R363, R364, R375, R378;
07_scalar_and_issue.md R176 to R180). -/

namespace Sys2Proof.Machine

/-! ## Waiting for earlier accesses -/

/-- Whether every earlier store, vector write and atomic write of a core whose colour is in a mask is visible (R359, R363). -/
def Core.drained (c : Core) (mask : BitVec 8) : Bool :=
  c.sq.all (fun e => !mask.getLsbD e.colour.toNat) &&
  c.vlands.all fun e => !mask.getLsbD e.colour.toNat || e.targets.all fun t => t.cells.isEmpty

/-- The mask that rd[47:40] gives a release: all colours when it is 0 (R361). -/
def releaseMask (v : Word) : BitVec 8 := if v.extractLsb' 40 8 = 0 then .allOnes 8 else v.extractLsb' 40 8

/-- fence.c (R363): it waits for every earlier load and atomic, and for the masked writes; at system scope a lost remote store
of a masked colour is then reported by a trap, once. -/
def execFenceC (mask : BitVec 8) (scope : Scope) (s : State) : Out :=
  s.onMy fun c =>
    if c.aqDone && c.sq.all (fun e => !e.op.isAmo) && c.drained mask then
      if scope = .system ∧ c.lost &&& mask ≠ 0 then
        (s.putMy { c with lost := c.lost &&& ~~~mask }).trap (.bounds true 0)
      else .next (s.fin c)
    else .next s

/-! ## Words that address one object -/

/-- A word that addresses an object of n bytes at offset rs2 of record b (R375, R378), behind the core's own writes to it (R358). An
object in error is the word's own fault (R229, R233). -/
def onObject (rd : BitVec 5) (b : BitVec 4) (rs2 : BitVec 5) (n : Nat) (write : Bool) (spaces : List Nat)
    (k : State → Core → Nat → Word → Out) (s : State) : Out :=
  s.onMy fun c =>
    if c.free [rd, rs2] [] && c.here [.b b] then
      match s.object s.cur.1 s.cur.2 (!c.x.priv) (recOf (c.gb b)) (c.gs rs2).toInt n write spaces with
      | (t, .trap e) => t.trap e
      | (t, .wait) => .next t
      | (t, .at_ l p) =>
        if !c.ownDone l n then .next t
        else match t.readUnits false (unitsOf l n) with
          | (u, []) => k u c l p
          | (u, _) => u.trap (.reconstruction 1 p)
    else .next s

/-- The core stops issuing and waits in its word. -/
def State.waitIn (s : State) (c : Core) (b : Block) : State := s.putMy { c with block := some b }

/-- A core that waited in a word goes on behind it. -/
def Core.wake (c : Core) (now : Nat) : Core := { { c with block := none }.advance 4 with issueAt := now + 1 }

/-- barr (R375): behind its release, one arrival. -/
def execBarr (rd : BitVec 5) (b : BitVec 4) (rs2 : BitVec 5) : State → Out :=
  onObject rd b rs2 16 true [0, 3] fun s c l p =>
    let v := c.gs rd
    if !c.drained (releaseMask v) then .next s
    else match s.arriveAt l (v.extractLsb' 0 32).toNat (v.extractLsb' 32 8) none true with
      | (t, true) => .next (t.fin c)
      | (t, false) => t.trap (.bounds false p)

/-- bwait (R375): until the object reaches the phase; an acquire, it waits for the earlier access-queue loads (R256, R361). -/
def execBwait (rd : BitVec 5) (b : BitVec 4) (rs2 : BitVec 5) : State → Out :=
  onObject rd b rs2 16 false [0, 3] fun s c l p =>
    let x := s.barAt l
    let t : BitVec 16 := (c.gs rd).truncate 16
    if x.malformed then s.trap (.bounds false p)
    else .next (if !c.aqDone then s else if x.reached t then s.fin c else s.waitIn c (.bwait l p t false))

/-- pbarr (R378). -/
def execPbarr (rd : BitVec 5) (b : BitVec 4) (rs2 : BitVec 5) : State → Out :=
  onObject rd b rs2 8 true [1, 2] fun s c l p =>
    let v := c.gs rd
    if !c.drained (releaseMask v) then .next s
    else if sbReserved (.ofNat 64 (s.loadNat l 8)) then s.trap (.bounds false p)
    else .next ((s.arriveShort l (v.extractLsb' 0 24).toNat).fin c)

/-- pbwait (R378): until the parity equals rd[0]; an acquire, it waits for the earlier access-queue loads (R256, R361). -/
def execPbwait (rd : BitVec 5) (b : BitVec 4) (rs2 : BitVec 5) : State → Out :=
  onObject rd b rs2 8 false [1, 2] fun s c l p =>
    let w : Word := .ofNat 64 (s.loadNat l 8)
    let want := (c.gs rd).getLsbD 0
    if sbReserved w then s.trap (.bounds false p)
    else .next (if !c.aqDone then s else if sbParity w = want then s.fin c else s.waitIn c (.pbwait l p want false))

/-- The load of a spinw: its own queued stores are forwarded (R254, R364). -/
def State.spinLoad (s : State) (c : Core) (ptr : Word) (l : Nat) : State × Got := s.scalarGet c ptr l 8 false

/-- spinw (R364): the core sleeps while the 8 bytes equal rd; an acquire, it waits for the earlier access-queue loads (R256,
R361). -/
def execSpinw (rd : BitVec 5) (b : BitVec 4) (rs2 : BitVec 5) (s : State) : Out :=
  s.onMy fun c =>
    if c.free [rd, rs2] [] && c.here [.b b] && c.aqDone then
      match s.through s.cur.1 s.cur.2 (!c.x.priv) (recOf (c.gb b)) (c.gs rs2).toInt ⟨8, 8, false, true⟩ with
      | (t, .fail e) => t.trap e
      | (t, .wait) => .next t
      | (t, .none_ _) => .next (if c.gs rd ≠ 0 then t.fin c else t)
      | (t, .at_ p (.peer _ _)) => t.trap (.bounds false p)
      | (t, .at_ p (.loc l _)) =>
        match t.spinLoad c p l with
        | (u, .trap e) => u.trap e
        | (u, .wait) => .next u
        | (u, .bytes bs) =>
          .next (if BitVec.ofNat 64 (leNat bs) ≠ c.gs rd then u.fin c else u.waitIn c (.spinw l p (c.gs rd)))
    else .next s

/-! ## Wakes -/

/-- A core that waits in a word looks at its object of n bytes again, unless an arrival has woken it: it goes on if its condition
holds, and an error of the object is the word's own fault (R229, R233, R374). -/
def State.look (s : State) (h c l n : Nat) (ptr : Word) (met : Bool) (holds : State → Bool) : State :=
  if met then s.modCore h c fun x => x.wake s.now
  else match s.readUnits false (unitsOf l n) with
    | (t, []) => if holds t then t.modCore h c fun x => x.wake t.now else t
    | (t, _) => t.enterTrap h c (.reconstruction 1 ptr) false

/-- BARRIER_WAITER_WAKE (R372, R374). -/
def execBarrierWaiterWake (herd core : Nat) (s : State) : Out :=
  s.onCore herd core fun c => .next (match c.block with
    | some (.bwait l p t m) => s.look herd core l 16 p m fun u => (u.barAt l).reached t
    | _ => s)

/-- SHORT_BARRIER_WAKE (R378). -/
def execShortBarrierWake (herd core : Nat) (s : State) : Out :=
  s.onCore herd core fun c => .next (match c.block with
    | some (.pbwait l p b m) => s.look herd core l 8 p m fun u => sbParity (.ofNat 64 (u.loadNat l 8)) == b
    | _ => s)

/-- SPINW_WAKE (R364): the core loads again. -/
def execSpinwWake (herd core : Nat) (s : State) : Out :=
  s.onCore herd core fun c =>
    match c.block with
    | some (.spinw l p v) =>
      match ({ s with cur := (herd, core) } : State).spinLoad c p l with
      | (t, .trap e) => t.trap e
      | (t, .wait) => .next t
      | (t, .bytes bs) => .next (if BitVec.ofNat 64 (leNat bs) ≠ v then t.modCore herd core fun x => x.wake t.now else t)
    | _ => .next s

/-- The word that a core waits in reaches its object anew after an invalidation (R243); where it cannot, it is executed again. -/
def State.retrace (s : State) (h c : Nat) : State :=
  let go (p : Word) (n : Nat) (load : Bool) (k : Nat → Block) : State :=
    if pSpace p ≠ 0 then s
    else match s.reach h c (!((s.core? h c).map fun x => x.x.priv).getD false) p ⟨n, n, false, load⟩ with
      | (t, .at_ _ (.loc l _)) => t.modCore h c fun x => { x with block := some (k l) }
      | (t, _) => t.modCore h c fun x => { x with block := none }
  match (s.core? h c).bind Core.block with
  | some (.bwait _ p t false) => go p 16 false fun l => .bwait l p t false
  | some (.spinw _ p v) => go p 8 true fun l => .spinw l p v
  | _ => s

/-- Every core that waits in a word reaches its object anew (R243). -/
def State.retraceAll (s : State) : State :=
  (List.range s.herds.length).foldl (fun t h => (List.range 8).foldl (fun u c => u.retrace h c) t) s

/-! ## Semaphores -/

/-- The count of a semaphore (R176). -/
def HerdCtx.sem (x : HerdCtx) (k : BitVec 8) : BitVec 16 := x.k.getD k.toNat 0

def HerdCtx.setSem (x : HerdCtx) (k : BitVec 8) (v : BitVec 16) : HerdCtx := { x with k := x.k.set k.toNat v }

/-- A waiter of a semaphore: a core in kwait, or the head of one of its queues; with its age, its place among waiters of one
ck, and its units (R177). -/
structure Waiter where
  core : Nat
  eng  : Option Engine
  age  : Nat
  n    : Nat
  deriving DecidableEq, Repr

/-- kwait comes first, then pump, matrix, well and collective (R177). -/
def Waiter.place (w : Waiter) : Nat :=
  8 * w.core + match w.eng with
    | none => 0
    | some g => 1 + engineCode g

/-- The waiters of a semaphore that one core has (R177). -/
def coreWaiters (k : BitVec 8) (i : Nat) (c : Core) : List Waiter :=
  (match c.block with
    | some (.kwait k' n age) => if k' = k then [⟨i, none, age, n⟩] else []
    | _ => []) ++
  ([Engine.pump, .matrix, .well, .coll].filterMap fun g =>
    (c.head g).bind fun e =>
      if e.step = .semWaiting ∧ e.hdr.wsem = k then some ⟨i, some g, e.age.getD 0, e.hdr.wcnt.toNat⟩ else none)

/-- The waiters of a semaphore (R177). -/
def HerdCtx.waiters (x : HerdCtx) (k : BitVec 8) : List Waiter :=
  (x.cores.zipIdx.map fun c => coreWaiters k c.2 c.1).flatten

/-- Whether a waiter comes before another (R177). -/
def Waiter.before (a b : Waiter) : Bool := decide (a.age < b.age ∨ (a.age = b.age ∧ a.place < b.place))

/-- The oldest waiter (R177). -/
def oldest : List Waiter → Option Waiter
  | [] => none
  | w :: r => match oldest r with
    | none => some w
    | some v => if v.before w then some v else some w

/-- The oldest waiter of a semaphore is granted its units, if the count allows it (R177). -/
def HerdCtx.grant (x : HerdCtx) (now : Nat) (k : BitVec 8) : HerdCtx :=
  match oldest (x.waiters k) with
  | none => x
  | some w =>
    if (x.sem k).toNat < w.n then x
    else { x.setSem k (x.sem k - .ofNat 16 w.n) with
      turn := { x.turnAt now with granted := true }
      cores := x.cores.modify w.core fun c => match w.eng with
        | none => c.wake now
        | some g => match c.head g with
          | some e => c.setHead g { e with granted := true }
          | none => c }

/-- SEMAPHORE_GRANT (R177). -/
def execSemaphoreGrant (herd : Nat) (k : BitVec 8) (s : State) : Out :=
  match s.ctx? herd with
  | none => .fault .noSuchUnit
  | some _ => .next (s.modCtx herd fun x => x.grant s.now k)

/-- Whether a core's ksig may still come in this ck: no grant has been made, and no core of its rank or higher has signalled the
semaphore (R179). -/
def HerdCtx.ksigOpen (x : HerdCtx) (now : Nat) (k : BitVec 8) (rank : Nat) : Bool :=
  !(x.turnAt now).granted && (x.turnAt now).sigs.all fun e => e.1 != k || decide (e.2 < rank)

/-- A ksig adds its units (R179). -/
def HerdCtx.ksig (x : HerdCtx) (now : Nat) (k : BitVec 8) (v rank : Nat) : HerdCtx :=
  { x.setSem k (.ofNat 16 v) with turn := { x.turnAt now with sigs := (x.turnAt now).sigs ++ [(k, rank)] } }

/-- ksig (R179): behind every earlier store; an overflow traps with the count unchanged. One that the order of its ck does not admit
any more issues in the next. -/
def execKsig (k : BitVec 8) (count : BitVec 4) (s : State) : Out :=
  s.onMy fun c =>
    if !c.drained (.allOnes 8) || !s.myCtx.ksigOpen s.now k s.cur.2 then .next s
    else
      let v := (s.myCtx.sem k).toNat + count.toNat
      if 65535 < v then s.trap (.semOverflow k)
      else .next ((s.fin c).modCtx s.cur.1 fun x => x.ksig s.now k v s.cur.2)

/-- kwait (R177, R179): the core joins the waiters, and goes on with its grant. Behind the grants of a ck it joins in the next; an
acquire, it waits for the earlier access-queue loads (R256, R361). -/
def execKwait (k : BitVec 8) (count : BitVec 4) (s : State) : Out :=
  s.onMy fun c =>
    .next (if (s.myCtx.turnAt s.now).granted || !c.aqDone then s else s.waitIn c (.kwait k count.toNat s.now))

end Sys2Proof.Machine
end

