-- ==== Sys2Proof/Machine/Ring.lean ====
section
/-! DEFINITION. Stream registers and their rings, scale words (spec/11_number_formats.md R283 to R285, R292 to R297). -/

namespace Sys2Proof.Machine

/-! ## Stream registers (R293, R294) -/

/-- How the elements of a stream are scaled. -/
inductive Scaling where
  | none | mx | ql4
  deriving DecidableEq, Repr

/-- A stream format: its element, how it is scaled, the data bytes of a group, and the element size of pumps (R293). -/
structure StreamFmt where
  elem  : ElemType
  scal  : Scaling
  group : Nat
  pumpE : Nat
  deriving DecidableEq, Repr

/-- The formats of R293; every other code is reserved. EP128 is held apart by its code. -/
def streamFmt : Nat → Option StreamFmt
  | 0x01 => some ⟨.s8, .none, 0, 1⟩ | 0x02 => some ⟨.s4, .none, 0, 1⟩ | 0x03 => some ⟨.f16, .none, 0, 2⟩
  | 0x04 => some ⟨.bf16, .none, 0, 2⟩ | 0x05 => some ⟨.f32, .none, 0, 4⟩ | 0x06 => some ⟨.e4m3, .none, 0, 1⟩
  | 0x07 => some ⟨.e5m2, .none, 0, 1⟩ | 0x08 => some ⟨.e3m2, .none, 0, 1⟩ | 0x09 => some ⟨.e2m3, .none, 0, 1⟩
  | 0x0A => some ⟨.e2m1, .none, 0, 1⟩ | 0x10 => some ⟨.e4m3, .mx, 256, 1⟩ | 0x11 => some ⟨.e5m2, .mx, 256, 1⟩
  | 0x12 => some ⟨.e3m2, .mx, 256, 1⟩ | 0x13 => some ⟨.e2m3, .mx, 256, 1⟩ | 0x14 => some ⟨.e2m1, .mx, 128, 1⟩
  | 0x15 => some ⟨.s8, .mx, 256, 1⟩ | 0x18 => some ⟨.s4, .ql4, 128, 1⟩ | 0x1D => some ⟨.f32, .none, 0, 32⟩
  | _ => none

/-- A stream register, field by field. -/
structure Stream where
  ring : Word
  size : Nat
  head : BitVec 32
  tail : BitVec 32
  code : Nat
  blk  : Nat
  sstr : Nat
  rsv  : Bool
  deriving DecidableEq, Repr

/-- The stream register of an image. -/
def streamOf (i : Image) : Stream where
  ring := i.extractLsb' 0 64
  size := (i.extractLsb' 64 32).toNat
  head := i.extractLsb' 128 32
  tail := i.extractLsb' 160 32
  code := (i.extractLsb' 192 6).toNat
  blk := (i.extractLsb' 200 8).toNat
  sstr := (i.extractLsb' 208 8).toNat
  rsv := i.extractLsb' 96 32 != 0 || i.extractLsb' 198 2 != 0 || i.extractLsb' 216 40 != 0

/-- Replace 32 bits of an image. -/
def putImage32 (i : Image) (p : Nat) (v : BitVec 32) : Image :=
  (i &&& ~~~((BitVec.allOnes 32).zeroExtend 256 <<< p)) ||| (v.zeroExtend 256 <<< p)

/-- Bytes that the ring holds. -/
def Stream.filled (q : Stream) : Nat := (q.tail - q.head).toNat

/-- The scaling of a stream. -/
def Stream.scal (q : Stream) : Scaling := ((streamFmt q.code).map StreamFmt.scal).getD .none

/-- block and sstride agree with fmt (R294). -/
def Stream.shaped (q : Stream) : Bool :=
  match q.scal with
  | .none => q.blk == 0 && q.sstr == 0
  | .mx => q.blk == 32 && decide (1 ≤ q.sstr ∧ q.sstr ≤ 32)
  | .ql4 => q.blk == 64 && decide (1 ≤ q.sstr ∧ q.sstr ≤ 32)

/-- The core whose scratchpad holds the ring, in its herd. -/
def Stream.core (q : Stream) (c : Nat) : Nat := if pSpace q.ring = 1 then c else pRank q.ring

/-- The checks of R296. -/
def State.streamOk (s : State) (h c : Nat) (q : Stream) : Bool :=
  !q.rsv && (streamFmt q.code).isSome && q.shaped && (pSpace q.ring == 1 || (pSpace q.ring == 2 && decide (pRank q.ring ≤ 7))) &&
    pAddr q.ring % 64 == 0 && decide (64 ≤ q.size ∧ q.size ≤ 2 ^ 20) && q.size == 2 ^ Nat.log2 q.size &&
    decide (pAddr q.ring + q.size ≤ s.capacity h (q.core c))

/-- The location of stream byte p (R294). -/
def Stream.loc (q : Stream) (h c p : Nat) : Nat := scratchLoc h (q.core c) (pAddr q.ring + p % q.size)

/-- n stream bytes from position p as an engine reads them: uncorrectable rows are zeros; with the rows lost (R269, R322). -/
def State.ringRead (s : State) (h c : Nat) (q : Stream) (p n : Nat) : State × List Byte × List Nat :=
  let locs := (List.range n).map fun i => q.loc h c (p + i)
  let r := s.engineUnits ((locs.map (· / 16)).eraseDups)
  (r.1, locs.map (fun l => if r.2.contains (l / 16) then 0 else r.1.mem.byte l), r.2)

/-- Write stream bytes from position p. -/
def State.ringWrite (s : State) (h c : Nat) (q : Stream) (p : Nat) (bs : List Byte) : State :=
  s.writeCells (bs.zipIdx.map fun b => (q.loc h c (p + b.2), b.1))

/-- Whether n stream bytes from position p lie in the footprint of a context that the herd still spills (R414): the access waits. The
footprint is the low end of each scratchpad. -/
def State.ringHeld (s : State) (h c : Nat) (q : Stream) (p n : Nat) : Bool :=
  decide (0 < n) && s.spillHolds (if q.size < p % q.size + n then q.loc h c 0 else q.loc h c p)

/-- Leave n locations undefined (R6). -/
def State.forgetLoc (s : State) (l n : Nat) : State :=
  if n = 0 then s else { s with mem := s.mem.forget l (l + n) s.fv, fv := s.fv + 1 }

/-- Leave n stream bytes from position p undefined, up to the ring's end and from its start (R272). -/
def State.ringForget (s : State) (h c : Nat) (q : Stream) (p n : Nat) : State :=
  let k := min n (q.size - p % q.size)
  (s.forgetLoc (q.loc h c p) k).forgetLoc (q.loc h c 0) (min (n - k) q.size)

/-- The locations of n stream bytes from position p, as ranges: first and count. -/
def Stream.spans (q : Stream) (h c p n : Nat) : List (Nat × Nat) :=
  let k := min n (q.size - p % q.size)
  [(q.loc h c p, k), (q.loc h c 0, min (n - k) q.size)]

/-- The locations that a stream register's producers have written since it was loaded, which its tail counts modulo 2^32 (R251, R294):
the whole ring, once they have written 2^32 bytes. -/
def Stream.produced (q : Stream) (lapped : Bool) (h c : Nat) : Nat × Nat :=
  (q.loc h c 0, if lapped then q.size else min q.tail.toNat q.size)

/-- What two ranges have in common. -/
def spanMeet (a b : Nat × Nat) : Nat × Nat := (max a.1 b.1, min (a.1 + a.2) (b.1 + b.2) - max a.1 b.1)

/-- Stream registers of a herd's cores but for one that have taken something in, each with its core and whether its producers have written
2^32 bytes. -/
def HerdCtx.otherStreams (x : HerdCtx) (c : Nat) (n : BitVec 4) : List (Nat × Bool × Stream) :=
  x.cores.zipIdx.flatMap fun y => y.1.q.zipIdx.filterMap fun i =>
    if (y.2 = c ∧ i.2 = n.toNat) ∨ ((streamOf i.1).tail = 0 ∧ !y.1.lapped.getLsbD i.2) then none
    else some (y.2, y.1.lapped.getLsbD i.2, streamOf i.1)

/-- Bytes that an entry has produced into a ring, and that the ring of another stream register has taken in as well, are undefined
(R297; log 67). -/
def State.ringClash (s : State) (h c : Nat) (n : BitVec 4) (q : Stream) (p k : Nat) : State :=
  let own := q.spans h c p k
  (((s.ctx? h).map fun x => x.otherStreams c n).getD []).foldl (fun t o =>
    own.foldl (fun u a => let m := spanMeet a (o.2.2.produced o.2.1 h o.1); u.forgetLoc m.1 m.2) t) s

/-- Advance the head of a core's stream register. -/
def Core.popRing (c : Core) (n : BitVec 4) (k : Nat) : Core :=
  { c with q := c.q.modify n.toNat fun i => putImage32 i 128 ((streamOf i).head + .ofNat 32 k) }

/-- Advance the tail of a core's stream register, and note that its count has gone past 2^32 (R294, R297). -/
def Core.pushRing (c : Core) (n : BitVec 4) (k : Nat) : Core :=
  { c with
    q := c.q.modify n.toNat fun i => putImage32 i 160 ((streamOf i).tail + .ofNat 32 k)
    lapped := if 2 ^ 32 ≤ (streamOf (c.q.getD n.toNat 0)).tail.toNat + k then c.lapped ||| .twoPow 16 n.toNat else c.lapped }

/-! ## Scale words (R283 to R285) -/

/-- The column of data bit i: the i-th integer from 3 up with at least two bits set (R284). -/
def eccColumn (i : Nat) : Nat :=
  (((List.range 72).filter fun x => decide (3 ≤ x) && x != 2 ^ Nat.log2 x)).getD i 0

/-- The parity of the one bits of a number of 64 bits. -/
def parity (x : Nat) : Bool := (List.range 64).foldl (fun p i => p != x.testBit i) false

/-- The seven Hamming bits of eight data bytes. -/
def eccHamming (d : Nat) : Nat :=
  (List.range 64).foldl (fun k i => if d.testBit i then Nat.xor k (eccColumn i) else k) 0

/-- The check byte (R284). -/
def eccCheck (d : Nat) : Nat := eccHamming d + 128 * (parity d != parity (eccHamming d)).toNat

/-- How a scale word reads. -/
inductive ScaleWord where
  | clean
  | fixed (d : Nat)
  | poisoned
  deriving DecidableEq, Repr

/-- Read a scale word of 16 bytes (R283 to R285): a set poison mark poisons whatever the check byte says. -/
def readScale (bs : List Byte) : ScaleWord :=
  let d := leNat (bs.take 8)
  let k := (bs.getD 8 0).toNat
  let s := Nat.xor (eccHamming d) (k % 128)
  let p := parity d != parity k
  if bs.getD 9 0 ≠ 0 then .poisoned
  else if s = 0 ∧ p = false then .clean
  else if p = false then .poisoned
  else if s = 0 ∨ s = 2 ^ Nat.log2 s then .fixed d
  else match (List.range 64).find? fun i => eccColumn i = s with
    | some i => .fixed (Nat.xor d (2 ^ i))
    | none => .poisoned

/-- The eight scale bytes of a word: nothing when it is poisoned. -/
def scaleData (bs : List Byte) : Option Nat :=
  match readScale bs with
  | .clean => some (leNat (bs.take 8))
  | .fixed d => some d
  | .poisoned => none

/-- Blocks whose scale lies in one word (R285). -/
def Scaling.blocks : Scaling → Nat
  | .none => 0 | .mx => 8 | .ql4 => 4

/-- Bytes of a stripe (R295). -/
def Stream.stripe (q : Stream) : Nat := q.sstr * (((streamFmt q.code).map StreamFmt.group).getD 0 + 16)

/-- The position in its stripe of the scale words. -/
def Stream.scaleAt (q : Stream) : Nat := q.sstr * ((streamFmt q.code).map StreamFmt.group).getD 0

/-- Positions of the scale words whose last byte lies among n stream bytes from position p; positions count modulo 2^32 (R295). -/
def Stream.scaleWords (q : Stream) (p n : Nat) : List Nat :=
  if q.stripe = 0 then []
  else (List.range n).filterMap fun i =>
    let e := (p + i) % 2 ^ 32
    let o := e % q.stripe
    if q.scaleAt + 15 ≤ o ∧ (o + 1 - q.scaleAt) % 16 = 0 then some (e - 15) else none

/-- A run of data bytes of one group of a stream: its position and length, its first byte's place in the group's data, and the
position of the group's scale word (R295). -/
structure Piece where
  pos   : Nat
  len   : Nat
  first : Nat
  scale : Nat
  deriving DecidableEq, Repr

/-- The next n data bytes of a scaled stream from position p on, group by group; positions count modulo 2^32 (R295). A group's data has
bytes, and a stripe has groups: fuel counts both. -/
def Stream.dataFrom (q : Stream) : Nat → Nat → Nat → List Piece
  | 0, _, _ => []
  | fuel + 1, p, n =>
    let d := ((streamFmt q.code).map StreamFmt.group).getD 0
    let o := p % q.stripe
    if n = 0 then []
    else if q.scaleAt ≤ o then q.dataFrom fuel (if 2 ^ 32 ≤ p - o + q.stripe then 0 else p - o + q.stripe) n
    else
      let k := min n (min (d - o % d) (2 ^ 32 - p))
      ⟨p, k, o % d, p - o + q.scaleAt + 16 * (o / d)⟩ :: q.dataFrom fuel ((p + k) % 2 ^ 32) (n - k)

/-- The data of a tile of t bytes at position p (R295, R302), which may stand inside a stripe (log 72). An unscaled tile is a plain run
of bytes. -/
def Stream.pieces (q : Stream) (p t : Nat) : List Piece :=
  if q.stripe = 0 then [⟨p, t, 0, 0⟩]
  else
    let n := t / q.stripe * q.scaleAt
    q.dataFrom (2 * n + 2) (p % 2 ^ 32) n

/-- Bytes that a piece is read as: its data, and its scale word. -/
def Stream.pieceBytes (q : Stream) (x : Piece) : Nat := x.len + if q.stripe = 0 then 0 else 16

/-- The pieces of a tile as an engine reads them, one after the other; with the rows lost (R269, R322). -/
def State.tileRead (s : State) (h c : Nat) (q : Stream) (ps : List Piece) : State × List Byte × List Nat :=
  ps.foldl (fun y x =>
    let a := y.1.ringRead h c q x.pos x.len
    let b := if q.stripe = 0 then (a.1, [], []) else a.1.ringRead h c q x.scale 16
    (b.1, y.2.1 ++ a.2.1 ++ b.2.1, y.2.2 ++ a.2.2 ++ b.2.2)) (s, [], [])

/-- The bytes of a tile, cut into its pieces: each with its data and its scale word. -/
def Stream.cut (q : Stream) : List Piece → List Byte → List (Piece × List Byte × List Byte)
  | [], _ => []
  | x :: r, bs => (x, bs.take x.len, (bs.drop x.len).take (q.pieceBytes x - x.len)) :: q.cut r (bs.drop (q.pieceBytes x))

/-- The scale words that a pump has carried into a ring: one corrected bit is corrected and counted, a poisoned word gets its
mark (R285). With the words poisoned. -/
def State.carryScales (s : State) (h c : Nat) (q : Stream) : List Nat → State × Nat
  | [] => (s, 0)
  | w :: r =>
    let bs := (List.range 16).map fun i => s.mem.byte (q.loc h c (w + i))
    match readScale bs with
    | .clean => s.carryScales h c q r
    | .fixed d =>
      ((s.ringWrite h c q w (leBytes 8 d ++ [.ofNat 8 (eccCheck d)])).bump (.scales h) 0 1).carryScales h c q r
    | .poisoned =>
      let x := ((s.ringWrite h c q (w + 9) [1]).bump (.scales h) 1 0).carryScales h c q r
      (x.1, x.2 + 1)

end Sys2Proof.Machine
end

