-- ==== Sys2Proof/Machine/Engine.lean ====
section
/-! DEFINITION. What engine words have in common: issue into a queue, and the completion actions of an entry
(spec/07_scalar_and_issue.md R170 to R185; spec/14_synchronisation.md R373, R376). -/

namespace Sys2Proof.Machine

/-! ## Issue (R170) -/

/-- What a word captures at issue beside its header (R420). -/
structure Capture where
  img1   : Image
  img2   : Image
  scal   : Word
  bounds : List Nat

/-- How the issue-time checks of a word end. -/
inductive Chk where
  | ok (x : Capture)
  | trap (t : Cause)
  | wait

/-- How the check of a completion barrier ends: the generation tag and the pointer that the entry captures. -/
inductive BarChk where
  | ok (gen : Byte) (ptr : Word)
  | trap (t : Cause)
  | wait

/-- The check of the completion barrier that a header names (R375, R376), behind the core's own writes to the object (R358). -/
def State.barCheck (s : State) (c : Core) (e : EHdr) : State × BarChk :=
  match e.bar with
  | none => (s, .ok 0 0)
  | some b =>
    match s.object s.cur.1 s.cur.2 (!c.x.priv) (recOf (c.gb b.b)) (16 * b.off.toNat : Nat) 16 true [0, 3] with
    | (t, .trap e) => (t, .trap e)
    | (t, .wait) => (t, .wait)
    | (t, .at_ l p) =>
      if !c.ownDone l 16 then (t, .wait)
      else match t.readUnits false (unitsOf l 16) with
        | (u, []) => (u, if (u.barAt l).malformed then .trap (.bounds false p) else .ok (u.barAt l).gen p)
        | (u, _) => (u, .trap (.reconstruction 1 p))

/-- Registers of the bank that a header reads. -/
def hdrBank (e : EHdr) : List BankReg :=
  (match e.guard with
    | some n => [.g n]
    | none => []) ++
  match e.bar with
    | some b => [.b b.b]
    | none => []

/-- The outcome that a new entry has: true without a guard, else its slot's, if it is resolved (R174). -/
def Core.outcome (c : Core) (e : EHdr) : Option Bool :=
  match e.guard with
  | none => some true
  | some n => match c.g.getD n.toNat .yes with
    | .opened => none
    | .yes => some true
    | .no => some false

/-- The group of a collective word (R379). -/
def collGroup : Instr → Option (BitVec 8)
  | .cred _ _ _ _ _ _ _ g | .cbcast _ _ _ _ _ _ g | .cgath _ _ _ _ _ _ g | .cscat _ _ _ _ _ _ g | .csync _ _ g => some g
  | _ => none

/-- The number of a collective word among those that the core has issued to its group (R381). -/
def Core.number (c : Core) (i : Instr) : Nat := ((collGroup i).map fun g => c.colls.getD g.toNat 0).getD 0

/-- The entry of a word that issues. -/
def Core.newEntry (c : Core) (i : Instr) (h : EHdr) (x : Capture) (gen : Byte) (bar : Word) : Entry where
  word := i
  seq := c.seq
  outcome := c.outcome h
  pending := if (c.outcome h).isNone then h.guard else none
  granted := false
  age := none
  cancel := false
  user := !c.x.priv
  gen := gen
  bar := bar
  handle := c.handles
  num := c.number i
  img1 := x.img1
  img2 := x.img2
  scal := x.scal
  bounds := x.bounds
  run := none

/-- An engine word issues (R170): it waits for its registers and for a free entry; its checks trap precisely; then the entry
enters the queue, and the core goes on as `post` says. -/
def engineWord (g : Engine) (i : Instr) (h : EHdr) (reads dests : List (BitVec 5)) (regs : List BankReg)
    (check : State → Core → State × Chk) (post : Core → Core) (s : State) : Out :=
  s.onMy fun c =>
    if !(c.free reads dests && c.here (hdrBank h ++ regs)) || decide (engineDepth g ≤ (c.queue g).length) then .next s
    else match check s c with
      | (t, .trap e) => t.trap e
      | (t, .wait) => .next t
      | (t, .ok x) =>
        match t.barCheck c h with
        | (u, .trap e) => u.trap e
        | (u, .wait) => .next u
        | (u, .ok gen bar) =>
          let q := c.queue g ++ [c.newEntry i h x gen bar]
          .next (u.done (((post c).setQueue g q).noteHeads (u.waitCk u.cur.1)) 24 0)

/-! ## Completion (R178, R181 to R183) -/

/-- The token register of a pump word (R121). -/
def tokenOf : Instr → Option (BitVec 5)
  | .pcopy _ p | .pgath _ p | .pscat _ p | .pfill _ p | .pring _ p => some p.tok
  | .ppage _ _ _ t _ => some t
  | _ => none

/-- A signal of n units: a count saturates at 65,535, and the first saturation is recorded (R178, R180). -/
def HerdCtx.signal (x : HerdCtx) (k : BitVec 8) (n : Nat) : HerdCtx :=
  let v := (x.sem k).toNat + n
  if v ≤ 65535 then x.setSem k (.ofNat 16 v)
  else { x.setSem k 65535 with kov := true, ksem := if x.kov then x.ksem else k }

/-- A signal to a herd's semaphore file; a saturation is counted (R180). -/
def State.signalSem (s : State) (h : Nat) (k : BitVec 8) (n : Nat) : State :=
  let full := match s.ctx? h with
    | some x => decide (65535 < (x.sem k).toNat + n)
    | none => false
  let t := s.modCtx h fun x => x.signal k n
  if full then t.bump (.semSat h) 0 1 else t

/-- The arrival of an entry at its completion barrier; whether it was accepted (R372, R373). A barrier that can no longer be
reached discards it (log 31). -/
def State.engineArrival (s : State) (h c : Nat) (e : Entry) (st : EStatus) (bytes : Nat) : State × Bool :=
  if e.hdr.bar.isNone then (s, true)
  else match s.reach h c e.user e.bar ⟨16, 16, true, false⟩ with
    | (t, .at_ _ (.loc l false)) =>
      t.arriveWith l (fun b => if b.bytes then bytes else 1) st.code (some e.gen) true
    | (t, _) => (t, false)

/-- The value that a token receives: the bytes written with status ok, else the negated code (R183, R271). -/
def tokenValue (st : EStatus) (written : Nat) : Word := if st = .ok then .ofNat 64 written else -(.ofNat 64 st.code)

/-- A token lands: no word has read it yet (R271). -/
def Core.landToken (c : Core) (r : BitVec 5) (v : Word) : Core :=
  let d := (c.setPend r false).ps r v
  if r = 0 then d else { d with tokens := d.tokens ||| (1#32 <<< r.toNat) }

/-- The core's side of a completion: its token, and its queue goes on. A detail saturates (R181). -/
def Core.complete (c : Core) (g : Engine) (e : Entry) (st : EStatus) (detail written now : Nat) : Core :=
  let d := match tokenOf e.word with
    | some r => c.landToken r (tokenValue st written)
    | none => c
  let k := engineCode g
  ({ d.setQueue g ((d.queue g).drop 1) with
    last := d.last.set k st
    details := d.details.set k (min detail (2 ^ 32 - 1))
    done := d.done.modify k (· + 1) }).noteHeads now

/-- The completion actions of the head of a queue (R178): its signal, its arrival with the bytes that the operation names, its
token, and the next entry becomes the head. A discarded arrival makes the status stale_barrier (R182). -/
def State.complete (s : State) (h c : Nat) (g : Engine) (e : Entry) (st : EStatus) (detail written bytes : Nat) : State :=
  let t := if e.hdr.scnt = 0 then s else s.signalSem h e.hdr.ssem e.hdr.scnt.toNat
  let a := t.engineArrival h c e st bytes
  let st' := if a.2 then st else .staleBarrier
  a.1.modCore h c fun x => x.complete g e st' (if a.2 then detail else 0) written (s.waitCk h)

/-! ## Running -/

/-- A run that starts. -/
def Run.fresh (unit now : Nat) : Run where
  unit := unit
  started := now
  pos := 0
  bytes := 0
  zeroed := []
  units := 0
  poisoned := 0
  rows := []
  status := .ok
  kept := []
  reads := []
  writes := []
  tries := 0
  stop := false

/-- Note units lost: a unit counts once. -/
def Run.lose (r : Run) (us : List Nat) : Run := { r with zeroed := r.zeroed ++ us.filter fun u => !r.zeroed.contains u }

/-- Units zeroed (R181). -/
def Run.lost (r : Run) : Nat := r.zeroed.length + r.units

/-- The status of a run: the worst of what it met (R182). -/
def Run.final (r : Run) : EStatus :=
  let a : EStatus := if r.rows.isEmpty then r.status else r.status.worse .checksumMismatch
  let b := if r.poisoned = 0 then a else a.worse .scalePoison
  if r.lost = 0 then b else b.worse .eccZeroed

/-- The detail that goes with a status (R181). -/
def Run.detail (r : Run) (written : Nat) : Nat :=
  match r.final with
  | .eccZeroed => r.lost
  | .scalePoison => r.poisoned
  | .checksumMismatch => r.rows.length
  | .ok | .cancelled | .translation | .peerDown | .thermalAbort => written
  | _ => 0

/-- Replace the run of the head of a queue. -/
def State.setRun (s : State) (h c : Nat) (g : Engine) (f : Run → Run) : State :=
  s.modCore h c fun x => match x.head g with
    | some e => x.setHead g { e with run := e.run.map f }
    | none => x

/-- The head of a queue starts to run. -/
def State.startRun (s : State) (h c : Nat) (g : Engine) (r : Run) : State :=
  s.modCore h c fun x => match x.head g with
    | some e => x.setHead g { e with run := some r }
    | none => x

/-- Whether the head of an engine's queue runs. -/
def Core.runs (c : Core) (g : Engine) : Bool := ((c.head g).bind Entry.run).isSome

/-- Whether the engine of a core is free for the running context: the old context's Running entry has completed (R412). -/
def State.engineFree (s : State) (h c : Nat) (g : Engine) : Bool := !((s.oldCore? h c).map fun x => x.runs g).getD false

/-- Whether the zone of a herd is in emergency (R438, R443). -/
def State.inEmergency (s : State) (h : Nat) : Bool :=
  match (s.dies[h / 16]?).bind fun d => d.zones[h % 16]? with
  | some z => z.state == 3
  | none => false

/-- Whether every store that the core made before an entry has performed (R270, R353; log 32). -/
def Core.storesDone (c : Core) (e : Entry) : Bool := c.sq.all fun x => !decide (x.seq < e.seq)

end Sys2Proof.Machine
end

