-- ==== Sys2Proof/Machine/Control.lean ====
section
/-! DEFINITION. Control transfer, the front end's words, halting and the trigger marks (spec/06_herd_front_end.md R140 to R150,
07_scalar_and_issue.md R165 to R167, 04_placement.md R96, R97, 16_retirement_and_health.md R427). -/

namespace Sys2Proof.Machine

/-! ## Branches -/

/-- A core that has resolved its branch: a stray goes on at the address; an attached core reports it and waits for the
resolution (R141). -/
def State.branchTo (s : State) (c : Core) (next : BitVec 56) : State :=
  if c.front = .attached then
    s.putMy { c with pc := next, buf := c.buf.drop 1, seq := c.seq + 1, issueAt := s.now + 1, block := some .branch }
  else s.jump c next

/-- A conditional branch (R165): granules are counted from the branch itself. -/
def branch (rs1 rs2 : BitVec 5) (disp : BitVec 14) (taken : Word → Word → Bool) (s : State) : Out :=
  s.onMy fun c => .next (if c.free [rs1, rs2] [] then
    s.branchTo c (if taken (c.gs rs1) (c.gs rs2) then c.pc + 4 * disp.signExtend 56 else c.pc + 4) else s)

/-- beq (R165). -/
def execBeq (rs1 rs2 : BitVec 5) (disp : BitVec 14) : State → Out := branch rs1 rs2 disp fun a b => a == b
/-- bne (R165). -/
def execBne (rs1 rs2 : BitVec 5) (disp : BitVec 14) : State → Out := branch rs1 rs2 disp fun a b => a != b
/-- blt (R165). -/
def execBlt (rs1 rs2 : BitVec 5) (disp : BitVec 14) : State → Out := branch rs1 rs2 disp fun a b => a.slt b
/-- bge (R165). -/
def execBge (rs1 rs2 : BitVec 5) (disp : BitVec 14) : State → Out := branch rs1 rs2 disp fun a b => !a.slt b
/-- bltu (R165). -/
def execBltu (rs1 rs2 : BitVec 5) (disp : BitVec 14) : State → Out := branch rs1 rs2 disp fun a b => a.ult b
/-- bgeu (R165). -/
def execBgeu (rs1 rs2 : BitVec 5) (disp : BitVec 14) : State → Out := branch rs1 rs2 disp fun a b => !a.ult b

/-- j (R166): the front end follows it without waiting (R140). -/
def execJ (disp : BitVec 24) (s : State) : Out := s.onMy fun c => .next (s.jump c (c.pc + 4 * disp.signExtend 56))

/-- call (R166): the return address goes into s31. -/
def execCall (disp : BitVec 24) (s : State) : Out :=
  s.onMy fun c => .next (if c.free [] [31] then
    s.jump (c.ps 31 ((c.pc + 4).zeroExtend 64)) (c.pc + 4 * disp.signExtend 56) else s)

/-- A register jump (R167): the tag is ignored, a misaligned target traps with rd unchanged, and rs1 is read before rd is
written. -/
def jumpReg (link : Option (BitVec 5)) (rs1 : BitVec 5) (s : State) : Out :=
  s.onMy fun c =>
    if c.free [rs1] link.toList then
      let t := pVa (c.gs rs1)
      if t.toNat % 4 ≠ 0 then s.trap (.misalignment (t.zeroExtend 64))
      else .next (s.branchTo (match link with
        | some rd => c.ps rd ((c.pc + 4).zeroExtend 64)
        | none => c) t)
    else .next s

/-- jr (R167). -/
def execJr (rs1 : BitVec 5) : State → Out := jumpReg none rs1

/-- callr (R167). -/
def execCallr (rd rs1 : BitVec 5) : State → Out := jumpReg (some rd) rs1

/-- The split of the attached cores at a resolved branch (R141): the group of the lowest attached core stays, every other
core leaves alone. -/
def HerdCtx.resolve (x : HerdCtx) : HerdCtx :=
  match (x.ranks Core.isAttached).head?.bind fun m => x.cores[m]? with
  | none => { x with diverge := none }
  | some m =>
    { x with
      diverge := none
      stopped := false
      stream := m.pc
      cores := x.cores.map fun c =>
        if c.front = .attached then
          { c with block := none, buf := [], front := if c.pc = m.pc then .attached else .stray }
        else c }

/-- Whether every attached core has reported (R141). -/
def HerdCtx.reported (x : HerdCtx) : Bool :=
  x.diverge.isSome && x.cores.all fun c => c.front != .attached || c.block == some .branch

/-- BRANCH_RESOLUTION (R141): once every attached core has reported its next address, the attached set splits. -/
def execBranchResolution (herd : Nat) (s : State) : Out :=
  match s.ctx? herd with
  | none => .fault .noSuchUnit
  | some x => .next (if x.reported then s.modCtx herd HerdCtx.resolve else s)

/-! ## The front end's words -/

/-- The attached set that a core's word sees (R144): an attached core's, the set that held when the word was given out, whatever
words behind it the others have issued. -/
def HerdCtx.attFor (x : HerdCtx) (me : Core) : BitVec 8 :=
  match me.isAttached, me.buf with
  | true, w :: _ => w.att
  | _, _ => x.mask Core.isAttached

/-- The value of herdid (R144). -/
def herdidWord (x : HerdCtx) (h c : Nat) (me : Core) : Word :=
  .ofNat 64 (c + 2 ^ 3 * h + 2 ^ 10 * (h / 16) + 2 ^ 16 * (x.held.map Held.grank).getD 0 +
    2 ^ 24 * (x.attFor me).toNat + 2 ^ 32 * me.isAttached.toNat)

/-- herdid (R144). -/
def execHerdid (rd : BitVec 5) (s : State) : Out :=
  scalar1 [] rd (fun c => herdidWord s.myCtx s.cur.1 s.cur.2 c) s

/-- join (R145, R146): a core waits at its address; at supervisor level the word traps. -/
def execJoin (s : State) : Out :=
  s.onMy fun c =>
    if c.x.priv then s.trap .joinMisuse
    else .next ((s.putMy { c with
      join := some c.pc, buf := c.buf.drop 1, seq := c.seq + 1, issueAt := s.now + 1 }).settle s.cur.1)

/-- detach (R147): the core goes on as a stray. -/
def execDetach (s : State) : Out := s.onMy fun c => .next ((s.fin c.detach).settle s.cur.1)

/-- iflush (R148): the code that the herd holds is fetched anew, once every attached core has issued it, and every buffer of the herd
is emptied. The word waits for the core's store queue, so that later fetches see what its own loads would (log 25). -/
def execIflush (s : State) : Out :=
  s.onMy fun c =>
    if !c.sq.isEmpty then .next s
    else if c.front = .attached then .next ((s.putMy { c with block := some .iflush }).settle s.cur.1)
    else .next ((s.fin c).modCtx s.cur.1 fun x => { x with code := [], cores := x.cores.map fun y => { y with buf := [] } })

/-! ## Ending a core and the trigger marks -/

/-- The core ends (R150, R427): it is marked for both triggers, and its access queues, data queues and conditional streams are
discarded. Its stores and engine entries go on. -/
def Core.halt (c : Core) : Core :=
  { c with
    front := .halted
    join := none
    block := none
    buf := []
    loop := none
    cutN := some (c.cutN.getD (c.seq + 1))
    cutG := some (c.cutG.getD (c.seq + 1))
    seq := c.seq + 1
    cs := .replicate 4 []
    aq := .replicate 4 []
    dq := .replicate 4 [] }

/-- A core of a herd ends. -/
def State.haltCore (s : State) (h c : Nat) : State := (s.modCore h c Core.halt).settle h

/-- halt (R427). -/
def execHalt (s : State) : Out := s.onMy fun _ => .next (s.haltCore s.cur.1 s.cur.2)

/-- trigger.n (R97): the first execution marks the core and records its cut point. -/
def execTriggerN (s : State) : Out := s.onMy fun c => .next (s.fin { c with cutN := some (c.cutN.getD c.seq) })

/-- trigger.g (R97): it implies trigger.n. -/
def execTriggerG (s : State) : Out :=
  s.onMy fun c => .next (s.fin { c with cutN := some (c.cutN.getD c.seq), cutG := some (c.cutG.getD c.seq) })

end Sys2Proof.Machine
end

