-- ==== Sys2Proof/Machine/Tahr.lean ====
section
/-! DEFINITION. The Tahr's own accesses, status records, slots and messages (spec/03_launching.md R47 to R68, R82;
spec/09_memory_spaces.md R235). -/

namespace Sys2Proof.Machine

/-! ## Statuses (R82) -/

/-- Queue and command statuses. -/
inductive QStatus where
  | ok | invalidField | unavailableRectangle | tailInvalid | spaceRetired | translation | queueBusy | noSuchQueue
  | pasidUnbound | signatureBad | barrierError | preempted | unplaceable | resources | dataError | pasidBound
  deriving DecidableEq, Repr

/-- The code of a status (R82). -/
def QStatus.code : QStatus → Nat
  | .ok => 0x00 | .invalidField => 0x01 | .unavailableRectangle => 0x02 | .tailInvalid => 0x03 | .spaceRetired => 0x04
  | .translation => 0x05 | .queueBusy => 0x06 | .noSuchQueue => 0x07 | .pasidUnbound => 0x08 | .signatureBad => 0x09
  | .barrierError => 0x0A | .preempted => 0x0B | .unplaceable => 0x0C | .resources => 0x0D | .dataError => 0x0E
  | .pasidBound => 0x0F

/-- The detail that names a field of the packet (R54). -/
def packetDetail (off : Nat) : Nat := off / 8 * 8

/-- The records that a LAUNCH names (R54). -/
inductive RecKind where
  | launch | node | header | succ | context
  deriving DecidableEq, Repr

/-- The detail that names a field of a record (R54). -/
def recordDetail (k : RecKind) (node off : Nat) : Nat :=
  0x80000000 + (match k with
    | .launch => 0 | .node => 1 | .header => 2 | .succ => 3 | .context => 4) * 2 ^ 22 + node % 2 ^ 11 * 2 ^ 11 +
    off / 8 * 8 % 2 ^ 11

/-- The detail that gives a value of the status (R54). -/
def valueDetail (v : Nat) : Nat := 0x40000000 + v % 2 ^ 30

/-! ## Firmware's reads and writes of space 0 (R235) -/

/-- How a read by firmware ends. -/
inductive FwRead where
  | bytes (bs : List Byte)
  | kind  (k : Nat)
  | error (off : Nat)
  | wait
  deriving DecidableEq, Repr

/-- The pieces of n bytes from an address up that lie in one 4 KiB page each. -/
def pagePieces (va n : Nat) : List (Nat × Nat) :=
  if n = 0 then []
  else (List.range ((va + n - 1) / 4096 - va / 4096 + 1)).map fun i =>
    let lo := max va ((va / 4096 + i) * 4096)
    (lo, min (va + n) ((va / 4096 + i + 1) * 4096) - lo)

/-- Where, among n bytes from a location up, the doubleword stands that holds the error of an uncorrectable line (R43, R82). If none of
it is among them, the first byte read of the line stands for it (log 51). -/
def State.errorAt (s : State) (l n r : Nat) : Nat :=
  let a := r * 16 + 8 * ((s.marks.find? fun e => e.row = r).map ErrMark.dw).getD 0
  if l < a + 8 ∧ a < l + n then max a l - l else max (r * 16) l - l

/-- Read n bytes at a location: of the first line that is uncorrectable, the error is reported (R43). -/
def State.fwReadAt (s : State) (l n : Nat) : State × FwRead :=
  match s.readUnits false (unitsOf l n) with
  | (t, []) => (t, .bytes (t.mem.read l n))
  | (t, r :: _) => (t, .error (s.errorAt l n r))

/-- Read the pieces of a range one after the other. -/
def State.fwReadPieces (s : State) (pasid : BitVec 20) (va : Nat) : List (Nat × Nat) → List Byte → State × FwRead
  | [], acc => (s, .bytes acc)
  | (a, n) :: r, acc =>
    match s.fwTranslate pasid a false with
    | (t, .kind k) => (t, .kind k)
    | (t, .wait) => (t, .wait)
    | (t, .loc l _) =>
      match t.fwReadAt l n with
      | (u, .bytes bs) => u.fwReadPieces pasid va r (acc ++ bs)
      | (u, .error o) => (u, .error (a - va + o))
      | (u, x) => (u, x)

/-- Read n bytes of space 0 for a queue's PASID. -/
def State.fwRead (s : State) (pasid : BitVec 20) (va n : Nat) : State × FwRead :=
  s.fwReadPieces pasid va (pagePieces va n) []

/-- The first failure or wait that a range of space 0 gives firmware, if any: a kind, or a wait. -/
def State.fwProbe (s : State) (pasid : BitVec 20) (write : Bool) : List (Nat × Nat) → State × Option (Option Nat)
  | [] => (s, none)
  | (a, _) :: r =>
    match s.fwTranslate pasid a write with
    | (t, .kind k) => (t, some (some k))
    | (t, .wait) => (t, some none)
    | (t, .loc _ _) => t.fwProbe pasid write r

/-- Write bytes of space 0 for a queue's PASID, piece by piece; a piece that translates to nothing is not written. -/
def State.fwWritePieces (s : State) (pasid : BitVec 20) : List (Nat × Nat) → List Byte → State
  | [], _ => s
  | (a, n) :: r, bs =>
    (match s.fwTranslate pasid a true with
      | (t, .loc l _) => t.writeLoc l (bs.take n)
      | (t, _) => t).fwWritePieces pasid r (bs.drop n)

def State.fwWrite (s : State) (pasid : BitVec 20) (va : Nat) (bs : List Byte) : State :=
  s.fwWritePieces pasid (pagePieces va bs.length) bs

/-- The little-endian number of n bytes at an offset of a record. -/
def fieldAt (bs : List Byte) (off n : Nat) : Nat := leNat ((bs.drop off).take n)

/-- A doubleword of a record. -/
def dwAt (bs : List Byte) (off : Nat) : Word := .ofNat 64 (fieldAt bs off 8)

/-! ## Queues, launches and nodes -/

def State.queue? (s : State) (qid : Nat) : Option Queue := s.tahr.queues.find? fun q => q.qid == qid

def State.modTahr (s : State) (f : Tahr → Tahr) : State := { s with tahr := f s.tahr }

def State.modQueue (s : State) (qid : Nat) (f : Queue → Queue) : State :=
  s.modTahr fun t => { t with queues := t.queues.map fun q => if q.qid = qid then f q else q }

def State.modLaunch (s : State) (lseq : Nat) (f : Launch → Launch) : State :=
  s.modTahr fun t => { t with launches := t.launches.map fun l => if l.lseq = lseq then f l else l }

def State.node? (s : State) (lseq node : Nat) : Option Node := (s.launch? lseq).bind fun l => l.nodes[node]?

def State.modNode (s : State) (lseq node : Nat) (f : Node → Node) : State :=
  s.modLaunch lseq fun l => { l with nodes := l.nodes.modify node f }

/-- Every node that stands in the part, with its launch and index. -/
def State.nodes (s : State) : List (Launch × Nat × Node) :=
  s.tahr.launches.flatMap fun l => l.nodes.zipIdx.map fun n => (l, n.2, n.1)

/-! ## Messages and status records -/

/-- MSI-X messages of some vectors (R47). -/
def State.send (s : State) (vs : List Nat) : State := s.modTahr fun t => { t with msix := t.msix ++ vs }

/-- A message of vector 0 (R47). -/
def State.signal0 (s : State) : State := s.send [0]

/-- The status record of a queue (R54). -/
def Queue.image (q : Queue) : List Byte :=
  leBytes 8 (q.head.toNat + q.tag.toNat * 2 ^ 32 + q.status * 2 ^ 48) ++ leBytes 8 (q.done.toNat + q.detail * 2 ^ 32)

/-! ## Slots (R64 to R68, R105) -/

/-- The class that a slot is reserved for; 4 for a free slot (R77). -/
def slotOwner (i : Nat) : Nat := if i < 2 then 0 else if i < 8 then 1 else if i < 16 then 2 else if i < 24 then 3 else 4

/-- Reserved slots of a class (R64). -/
def reserveOf (cls : Nat) : Nat :=
  match cls with
  | 0 => 2 | 1 => 6 | 2 => 8 | _ => 8

/-- Whether a queue needs a slot (R65): one without a slot whose launch has neither triggered nor retired needs one as well, and serves
in it without reading its next packet (R60, R105; log 76). -/
def Queue.needsSlot (q : Queue) : Bool := q.status == 0 && (q.head != q.tail || q.hold.isSome)

/-- The slot that a queue holds. -/
def State.slotOf (s : State) (qid : Nat) : Option Nat := s.tahr.slots.findIdx? fun x => x.qid == some qid

def State.modSlot (s : State) (i : Nat) (f : Slot → Slot) : State :=
  s.modTahr fun t => { t with slots := t.slots.modify i f }

/-- A slot becomes Free. -/
def State.freeSlot (s : State) (qid : Nat) : State :=
  match s.slotOf qid with
  | some i => s.modSlot i fun _ => ⟨none, .free, 0, 0⟩
  | none => s

/-- The state of a queue's slot. -/
def State.slotState (s : State) (qid : Nat) : Option SlotState :=
  (s.slotOf qid).bind fun i => (s.tahr.slots[i]?).map Slot.state

def State.setSlot (s : State) (qid : Nat) (st : SlotState) : State :=
  match s.slotOf qid with
  | some i => s.modSlot i fun x => { x with state := st }
  | none => s

/-- Serving turns to Idle when nothing is left to do, and Idle to Serving when something is (R105). -/
def State.settleSlot (s : State) (qid : Nat) : State :=
  match s.queue? qid, s.slotOf qid with
  | some q, some i => s.modSlot i fun x =>
    if x.state = .serving ∧ q.needsSlot = false then { x with state := .idle, idle := s.now }
    else if x.state = .idle ∧ q.needsSlot then { x with state := .serving }
    else x
  | _, _ => s

/-! ## Errors and updates of the status record (R47, R54, R55) -/

/-- A queue enters error: it stops reading packets, and its slot is freed (R55, R105). -/
def State.failQueue (s : State) (qid : Nat) (st : QStatus) (detail : Nat) : State :=
  (s.modQueue qid fun x =>
    { x with
      status := st.code, detail := detail, held := none, wait := none, fence := false, seen := []
      unbound := x.unbound && st != .spaceRetired }).freeSlot qid

/-- The vector that an error of a queue signals: its own, or vector 0 where MAPQ assigned none (R47, R55). -/
def Queue.errors (q : Queue) : List Nat := [q.vector]

/-- The vector that a completion of a queue signals, where MAPQ assigned one (R47, R56). -/
def Queue.completions (q : Queue) : List Nat := if q.vector = 0 then [] else [q.vector]

/-- Update the status record of a queue, one 16-byte write, and then signal vectors (R47, R54). While the host's page is
awaited the update is owed, and its messages with it (R48). A record that does not translate puts a running queue into error
with translation (R82), and the messages of an update that no host will see are not sent but for the error's own (log 48). -/
def State.tellStatus (s : State) (qid : Nat) (vs : List Nat) : State :=
  match s.queue? qid with
  | none => s
  | some q =>
    match s.fwTranslate q.pasid (q.srec.toNat % 2 ^ 56) true with
    | (t, .loc l _) =>
      ((t.writeLoc l q.image).modQueue qid fun x => { x with owed := none }).send (q.owed.getD [] ++ vs)
    | (t, .kind k) =>
      ((if q.status = 0 then t.failQueue qid .translation (valueDetail k) else t).modQueue qid fun x =>
        { x with owed := none }).send q.errors
    | (t, .wait) => t.modQueue qid fun x => { x with owed := some (q.owed.getD [] ++ vs) }

/-- A queue stops with a status: it enters error, writes its record and signals its vector (R55). -/
def State.stopQueue (s : State) (qid : Nat) (st : QStatus) (detail : Nat) : State :=
  (s.failQueue qid st detail).tellStatus qid (((s.queue? qid).map Queue.errors).getD [])

/-- A packet completes (R54, R56): its tag goes to the record, and its message follows the write. -/
def State.completePacket (s : State) (qid : Nat) (tag : BitVec 16) (irq : Bool) : State :=
  (s.modQueue qid fun x => { x with tag := tag }).tellStatus qid
    (if irq then ((s.queue? qid).map Queue.completions).getD [] else [])

/-- Whether a PREEMPT of a queue is under way: it reads no packet and its head stays (R75). -/
def State.preempting (s : State) (qid : Nat) : Bool :=
  match s.tahr.mgmt with
  | some (.preempt x _ _ _) => x == qid
  | _ => false

/-- The head passes a packet. -/
def State.passHead (s : State) (qid : Nat) : State :=
  s.modQueue qid fun q => { q with head := q.head + 1, held := none, wait := none, fence := false, seen := [] }

/-- A notice waits to be posted to every core of a herd that runs (R437). -/
def State.notify (s : State) (h : Nat) (cores : List Nat) (code : BitVec 16) : State :=
  s.modTahr fun t => { t with notices := t.notices ++ cores.map fun c => (h, c, code) }

end Sys2Proof.Machine
end

