-- ==== Sys2Proof/Machine/System.lean ====
section
/-! DEFINITION. System registers, traps and the return from them, wait, reports and notices (spec/15_interruption.md R389 to
R406; spec/06_herd_front_end.md R149; 07 R180; 08 R215; 09 R233, R245; 10 R260; 16 R433, R437, R440, R441). -/

namespace Sys2Proof.Machine

/-! ## Reading (R4, R390) -/

/-- Registers that user level may read (R390 and the rules it names). -/
def userReads : XReg → Bool
  | .xstat | .xctx | .xherd | .xkov | .xcond | .xaqs | .xdsp | .xtherm | .xtemp | .xcyc => true
  | .xvec | .xepc | .xcause | .xtval | .xscr0 | .xscr1 | .xrpt | .xaqa | .xfreq | .xfres => false

/-- A number placed at a bit. -/
def at_ (v lo : Nat) : Nat := v * 2 ^ lo

/-- xstat (R391). -/
def xstatWord (x : XRegs) : Word :=
  .ofNat 64 (x.priv.toNat + at_ x.ie.toNat 1 + at_ x.pp.toNat 2 + at_ x.pie.toNat 3 + at_ x.intrap.toNat 4 +
    at_ x.np.toNat 5 + at_ x.ncode.toNat 8)

/-- xherd (R149). The word that reads it stands in the buffer still, and counts in drift (log 77). -/
def xherdWord (x : HerdCtx) (c : Core) : Word :=
  .ofNat 64 ((x.mask Core.isAttached).toNat + at_ (x.mask fun y => y.front == .stray).toNat 8 +
    at_ (x.mask fun y => y.front == .halted).toNat 16 + at_ (x.mask fun y => y.join.isSome).toNat 24 +
    at_ (c.drift % 64) 32 + at_ x.mstall.toNat 40)

/-- xkov (R180). -/
def xkovWord (x : HerdCtx) : Word := .ofNat 64 (x.kov.toNat + at_ x.ksem.toNat 8)

/-- xcond (R215). -/
def xcondWord (c : Core) : Word :=
  .ofNat 64 ((c.cs.getD 0 []).length + at_ (c.cs.getD 1 []).length 9 + at_ (c.cs.getD 2 []).length 18 +
    at_ (c.cs.getD 3 []).length 27 + at_ c.csOvf.toNat 36)

/-- The access queue whose held head xaqs reports: the one trapped for, else the lowest (R259, R260). -/
def Core.reportedHead (c : Core) : Option (Nat × AqEntry) :=
  let held := (List.range 4).filterMap fun i => match c.aq.getD i [] with
    | e :: _ => if e.held.isSome then some (i, e) else none
    | [] => none
  match held.find? fun x => x.2.reported with
  | some x => some x
  | none => held.head?

/-- The cause and tkind fields (R260). -/
def AqCause.fields : AqCause → Nat × Nat
  | .translation k => (0, k.toNat)
  | .bounds => (1, 0)
  | .misalignment => (2, 0)
  | .unrecoverable => (3, 0)

/-- xaqs (R260). -/
def xaqsWord (c : Core) : Word :=
  match c.reportedHead with
  | some (q, e) =>
    let f := (e.held.map AqCause.fields).getD (0, 0)
    .ofNat 64 (1 + at_ q 1 + at_ f.1 3 + at_ f.2 6 + at_ c.ldstall.toNat 16)
  | none => .ofNat 64 (at_ c.ldstall.toNat 16)

/-- xaqa (R260). -/
def xaqaWord (c : Core) : Word := ((c.reportedHead).map fun x => ptrAt x.2.base x.2.off).getD 0

/-- xctx (R426). -/
def xctxWord (h : Herd) (core : Nat) : Word :=
  .ofNat 64 (((h.phys[core]?).map CorePhys.bank).getD false |>.toNat) |||
    .ofNat 64 (at_ (h.old.isSome.toNat) 1 + at_ (min h.act.evicts 255) 8)

/-- xtherm (R441). -/
def xthermWord (d : Die) : Word :=
  .ofNat 64 ((d.budgets.zipIdx.map fun b => at_ (b.1 % 16) (4 * b.2)).foldl (· + ·) 0)

/-- xtemp (R440). -/
def xtempWord (d : Die) (zone : Nat) : Word :=
  let z := d.zones.getD zone ⟨0, 0⟩
  .ofNat 64 (min z.temp 255 + at_ z.state 8 + at_ (min (d.zones.foldl (fun m x => max m x.temp) 0) 255) 16)

/-- The value of a system register (R390). -/
def State.xread (s : State) (c : Core) : XReg → Word
  | .xstat => xstatWord c.x
  | .xvec => c.x.xvec
  | .xepc => c.x.xepc
  | .xcause => c.x.xcause
  | .xtval => c.x.xtval
  | .xscr0 => c.x.xscr0
  | .xscr1 => c.x.xscr1
  | .xrpt => 0
  | .xctx => ((s.herds[s.cur.1]?).map fun h => xctxWord h s.cur.2).getD 0
  | .xherd => xherdWord s.myCtx c
  | .xkov => xkovWord s.myCtx
  | .xcond => xcondWord c
  | .xaqs => xaqsWord c
  | .xaqa => xaqaWord c
  | .xdsp => ((s.dies[s.cur.1 / 16]?).map fun d => BitVec.ofNat 64 (d.waysSet % 16 + at_ d.change.isSome.toNat 4)).getD 0
  | .xfreq => 0
  | .xfres => c.x.xfres
  | .xtherm => ((s.dies[s.cur.1 / 16]?).map xthermWord).getD 0
  | .xtemp => ((s.dies[s.cur.1 / 16]?).map fun d => xtempWord d (s.cur.1 % 16)).getD 0
  | .xcyc => .ofNat 64 (s.dieClock (s.cur.1 / 16))

/-- Whether a read waits: xcond for every vector result (R215), xfres for the operation under way (R245). -/
def Core.xwaits (c : Core) : XReg → Bool
  | .xcond => !c.vlands.isEmpty
  | .xfres => c.freeReq.isSome
  | _ => false

/-- xr (R399): at user level a register that its rule does not open traps (R390). -/
def execXr (rd : BitVec 5) (x : XReg) (s : State) : Out :=
  s.onMy fun c =>
    if !c.x.priv && !userReads x then s.trap (.privilege (firstGranule (.xr rd x)))
    else .next (if c.free [] [rd] && c.here [.x x] && !c.xwaits x then s.fin (c.ps rd (s.xread c x)) else s)

/-! ## Writing (R4, R399) -/

/-- A held head that is zero-filled (R259, R260): it delivers a zero entry once its data queue has room, and leaves. -/
def Core.zeroFill (c : Core) : Core :=
  match c.reportedHead with
  | none => c
  | some (q, e) =>
    if (c.dq.getD q []).length < 64 then
      { c with aq := c.aq.modify q (·.drop 1), dq := c.dq.modify q (· ++ [0]) }
    else { c with aq := c.aq.modify q fun l => { e with held := none, reported := false, data := some 0 } :: l.drop 1 }

/-- The operation that a write of xfreq names (R245). -/
def freeReqOf (v : Word) : FreeReq where
  sz := Word.fieldAt v 3 0
  die := Word.fieldAt v 6 4
  well := Word.fieldAt v 16 7
  any := wbit v 17
  push := wbit v 18
  frame := Word.fieldAt v 47 20

/-- The core after a write: v gives the RW and WO fields, clr the bits of the W1C fields to clear (R399). xrpt, xdsp and xfreq
start an operation; the first two stop issue until it ends. -/
def Core.xwrite (c : Core) (v clr : Word) : XReg → Core
  | .xstat => { c with x := { c.x with
      ie := wbit v 1, pp := wbit v 2, pie := wbit v 3, intrap := wbit v 4, np := c.x.np && !wbit clr 5 } }
  | .xvec => { c with x := { c.x with xvec := v &&& ~~~(63 : Word) } }
  | .xepc => { c with x := { c.x with xepc := v &&& ~~~(3 : Word) } }
  | .xscr0 => { c with x := { c.x with xscr0 := v } }
  | .xscr1 => { c with x := { c.x with xscr1 := v } }
  | .xrpt => { c with block := some (.report (v.truncate 16) (wbit v 16) c.x.xcause c.x.xepc c.x.xtval) }
  | .xcond => { c with csOvf := c.csOvf &&& ~~~clr.extractLsb' 36 4 }
  | .xaqs => if wbit v 9 then c.zeroFill else c
  | .xdsp => { c with block := some (.xdsp (Word.fieldAt v 3 0) false) }
  | .xfreq => { c with freeReq := some (freeReqOf v) }
  | .xcause | .xtval | .xctx | .xherd | .xkov | .xaqa | .xfres | .xtherm | .xtemp | .xcyc => c

/-- The herd's side of a write: clearing xkov.ov clears sem (R180). -/
def HerdCtx.xwrite (x : HerdCtx) (clr : Word) : XReg → HerdCtx
  | .xkov => if wbit clr 0 then { x with kov := false, ksem := 0 } else x
  | _ => x

/-- A write of a system register, a supervisor function (R130, R399). An operation of xfreq follows the last one's end. -/
def xregWrite (i : Instr) (rs : BitVec 5) (x : XReg) (f : Word → Word → Word × Word) (whole : Bool) (s : State) : Out :=
  s.privileged i fun c =>
    if c.free [rs] [] && (whole || c.here [.x x]) && !(x == .xfreq && c.freeReq.isSome) then
      let w := f (s.xread c x) (c.gs rs)
      .next ((s.fin ((c.present (.x x)).xwrite w.1 w.2 x)).modCtx s.cur.1 fun y => y.xwrite w.2 x)
    else .next s

/-- xw (R399). -/
def execXw (rs : BitVec 5) (x : XReg) : State → Out := xregWrite (.xw rs x) rs x (fun _ r => (r, r)) true

/-- xset (R399): W1C fields keep their bits. -/
def execXset (rs : BitVec 5) (x : XReg) : State → Out := xregWrite (.xset rs x) rs x (fun v r => (v ||| r, 0)) false

/-- xclr (R399). -/
def execXclr (rs : BitVec 5) (x : XReg) : State → Out := xregWrite (.xclr rs x) rs x (fun v r => (v &&& ~~~r, r)) false

/-- ZERO_FILL (R259): the zero entry of a zero-filled head is delivered once its data queue has room. -/
def Core.zeroDeliver (c : Core) : Core :=
  (List.range 4).foldl (fun x q => match x.aq.getD q [] with
    | e :: r => if e.held.isNone ∧ e.data = some 0 ∧ (x.dq.getD q []).length < 64 then
        { x with aq := x.aq.set q r, dq := x.dq.modify q (· ++ [0]) } else x
    | [] => x) c

def execZeroFill (herd core : Nat) (s : State) : Out :=
  s.onCore herd core fun _ => .next (s.modCore herd core Core.zeroDeliver)

/-! ## Traps and the return -/

/-- trap (R400). -/
def execTrap (code : BitVec 10) (s : State) : Out := s.onMy fun _ => s.trap (.trap code)

/-- ebreak (R400). -/
def execEbreak (s : State) : Out := s.onMy fun _ => s.trap .ebreak

/-- xret (R401). -/
def execXret (s : State) : Out :=
  s.privileged .xret fun c =>
    .next (if !c.here [.x .xepc] then s else (s.putMy { c.xret with issueAt := s.now + 1 }).settle s.cur.1)

/-- wait (R402): until np = 1, whatever ie holds. -/
def execWait (s : State) : Out := s.onMy fun c => .next (if c.x.np then s.fin c else s.waitIn c .notice)

/-- TRAP_ENTRY (R394, R395): what waits at the core's boundary is taken. -/
def execTrapEntry (herd core : Nat) (s : State) : Out :=
  s.onCore herd core fun c =>
    .next (match c.boundary with
      | some (t, q) => s.takeBoundary herd core t q
      | none => s)

/-! ## Notices and reports -/

/-- A notice reaches a core (R396, R402): a waiting wait completes. -/
def Core.post_notice (c : Core) (code : BitVec 16) (now : Nat) : Core :=
  let y := { c with x := { c.x with np := true, ncode := code } }
  if y.block = some .notice then y.wake now else y

/-- NOTICE_POST (R396, R437): firmware posts a notice that an event of R437 calls for; one to a core that is swapped waits. -/
def execNoticePost (herd core : Nat) (code : BitVec 16) (s : State) : Out :=
  s.onCore herd core fun c =>
    .next (if s.tahr.notices.contains (herd, core, code) && !c.swapped then
      (s.modTahr fun t => { t with notices := t.notices.erase (herd, core, code) }).modCore herd core
        fun c => if c.isLive then c.post_notice code s.now else c
    else s)

/-- The error-log entry of a report (R406, R434). -/
def State.logReport (s : State) (h c : Nat) (x : HerdCtx) (code : BitVec 16) (cause epc tval : Word) : State :=
  let n := x.held.getD default
  s.record (h / 16) 1 (s.qidOf x)
    (.ofNat 64 (code.toNat + at_ (cause.toNat % 2 ^ 17) 16 + at_ (8 * n.grank + c) 33 + at_ n.node 43)) epc tval

/-- The message of a report (R406). -/
def State.signalFor (s : State) (x : HerdCtx) : State :=
  match s.queue? (s.qidOf x) with
  | some q => s.send q.completions
  | none => s

/-- Firmware accepts the report of a core whose end bit is as given (R406); with end = 1 the core ends. -/
def State.acceptReport (s : State) (h c : Nat) (ends : Bool) : State :=
  match s.ctx? h, s.core? h c with
  | some x, some y =>
    match y.block with
    | some (.report code e cause epc tval) =>
      if e = ends then
        let t := ((s.logReport h c x code cause epc tval).signalFor x).modCore h c fun z => { z with block := none }
        if e then t.haltCore h c else t.modCore h c fun z => { z with issueAt := s.now + 1 }
      else s
    | _ => s
  | _, _ => s

/-- Whether the spilling context's core has a property. -/
def State.oldHas (s : State) (h c : Nat) (p : Core → Bool) : Bool := ((s.oldCore? h c).map p).getD false

/-- Act on the spilling context where its core has a property, else on the running one (R411). -/
def State.either (s : State) (h c : Nat) (p : Core → Bool) (f : State → State) : State :=
  if s.oldHas h c p then s.inOld h f else f s

def Core.reports (c : Core) (ends : Bool) : Bool :=
  match c.block with
  | some (.report _ e _ _ _) => e == ends
  | _ => false

/-- REPORT_POST (R406). -/
def execReportPost (herd core : Nat) (s : State) : Out :=
  s.onCore herd core fun _ =>
    .next (s.either herd core (Core.reports · false) fun t => t.acceptReport herd core false)

/-- REPORT_POST_END (R406). -/
def execReportPostEnd (herd core : Nat) (s : State) : Out :=
  s.onCore herd core fun _ =>
    .next (s.either herd core (Core.reports · true) fun t => t.acceptReport herd core true)

end Sys2Proof.Machine
end

