-- ==== Sys2Proof/Machine/Pumps.lean ====
section
/-! DEFINITION. Pump words and pump entries (spec/10_memory_instructions.md R262 to R274). -/

namespace Sys2Proof.Machine

/-! ## Nests (R263, R267) -/

/-- The product of counts. -/
def prod (cs : List Nat) : Nat := cs.foldl (· * ·) 1

/-- One side of a pump's job: elements through a record, indexed or not; a ring from a stream position; a fill value; or a
physical page. -/
inductive PSide where
  | via  (r : Rec) (off : Nat) (sels : List (BitVec 2)) (indexed : Bool)
  | ring (q : Stream) (pos : Nat)
  | fill (bs : List Byte)
  | page (pa : Nat)
  deriving Repr

/-- What a pump entry is to do: its element size, its counts innermost first, its sides, and its index list. -/
structure PJob where
  e      : Nat
  counts : List Nat
  src    : PSide
  dst    : PSide
  list   : Nat

/-- Elements of a nest. -/
def PJob.total (j : PJob) : Nat := prod j.counts

/-- Bytes of a nest, B of R263. -/
def PJob.bytes (j : PJob) : Nat := j.e * j.total

/-- Elements of an innermost row. -/
def PJob.row (j : PJob) : Nat := j.counts.headD 1

/-- sel_stride of R263. -/
def selStride (e : Nat) (counts : List Nat) (r : Rec) (sel : BitVec 2) (i : Nat) : Int :=
  match sel.toNat with
  | 0 => (e * prod (counts.take i) : Nat)
  | 1 => r.str0
  | 2 => r.str1
  | _ => 0

/-- j_i of element m in nest order. -/
def nestDigit (counts : List Nat) (m i : Nat) : Nat := m / prod (counts.take i) % counts.getD i 1

/-- The offset of element m on one side; idx is the index of its row on an indexed side (R263, R267). -/
def nestOffset (e : Nat) (counts : List Nat) (r : Rec) (off : Nat) (sels : List (BitVec 2)) (indexed : Bool) (m : Nat)
    (idx : Int) : Int :=
  if indexed then
    off + nestDigit counts m 0 * selStride e counts r (sels.getD 0 0) 0 + idx * selStride e counts r (sels.getD 1 0) 1
  else
    (sels.zipIdx.map fun x => (nestDigit counts m x.2 : Int) * selStride e counts r x.1 x.2).foldl (· + ·) off

/-- The counts that a word reads at issue (R263). -/
def pumpCounts (c : Core) (p : Pump) : List Nat :=
  p.dims.map fun d => match d.bound with
    | .count n => n.toNat
    | .loop l => (c.gl l).toNat

/-- Bytes of an element of a record: a 4-bit type has 1 (R263). -/
def recElem (r : Rec) : Nat := max 1 (((r.elem).map elemWidth).getD 8 / 8)

/-! ## Checks at issue (R265 to R268, R272) -/

/-- The strides that the selectors use. -/
def usedStrides (r : Rec) (sels : List (BitVec 2)) : List Int :=
  sels.filterMap fun s => match s.toNat with
    | 1 => some r.str0
    | 2 => some r.str1
    | _ => none

/-- The lowest offset of a nest, and the offset behind its highest element. -/
def nestRange (e : Nat) (counts : List Nat) (r : Rec) (off : Nat) (sels : List (BitVec 2)) : Int × Int :=
  (sels.zipIdx).foldl (fun x y =>
    let d := ((counts.getD y.2 1 : Int) - 1) * selStride e counts r y.1 y.2
    (x.1 + min 0 d, x.2 + max 0 d)) ((off : Int), (off : Int) + e)

/-- One byte of a nest passes R222 and R217. -/
def State.byteOk (s : State) (c : Nat) (r : Rec) (o : Int) (load : Bool) : Option Cause :=
  match r.check o 1 with
  | .error t => some t
  | .ok none => none
  | .ok (some p) =>
    match s.space s.cur.1 c p 1 load with
    | .bad => some (.bounds false p)
    | _ => none

/-- The checks of one side of a nest (R265): spaces, alignment, and with bounds mode trap or off the extremes. -/
def State.sideChk (s : State) (c : Nat) (e : Nat) (counts : List Nat) (src indexed : Bool) (r : Rec) (off : Nat)
    (sels : List (BitVec 2)) : Option Cause :=
  let p := ptrAt r.base off
  if !r.ok then some (.bounds false 0)
  else if 5 ≤ pSpace r.base ∨ (src ∧ pSpace r.base = 4) then some (.bounds false p)
  else if pAddr p % e ≠ 0 ∨ (usedStrides r sels).any (fun x => x % (e : Int) != 0) then some (.misalignment p)
  else if indexed ∨ prod counts = 0 ∨ r.bounds = 1 ∨ r.bounds = 2 then none
  else
    let x := nestRange e counts r off sels
    match s.byteOk c r x.1 src with
    | some t => some t
    | none => s.byteOk c r (x.2 - 1) src

/-- The checks of a ring side: R296, and B within its size; a ring destination uses no stride (R272). -/
def State.ringChk (s : State) (c : Nat) (q : Stream) (bytes : Nat) (sels : List (BitVec 2)) : Option Cause :=
  if !s.streamOk s.cur.1 c q || decide (q.size < bytes) || sels.any (· != 0) then some (.bounds false 0) else none

/-- The check of an index list (R267): n entries of four bytes in the core's own scratchpad. -/
def State.listChk (s : State) (c : Nat) (p : Word) (n : Nat) : Option Cause :=
  if pSpace p ≠ 1 then some (.bounds false p)
  else if pAddr p % 4 ≠ 0 then some (.misalignment p)
  else if s.capacity s.cur.1 c < pAddr p + 4 * n then some (.bounds false p)
  else none

/-- The first check that fails. -/
def firstOf (xs : List (Option Cause)) : Option Cause := xs.findSome? id

/-- The checks of pcopy, pgath and pscat. -/
def State.copyChk (s : State) (c : Core) (p : Pump) (gath scat : Bool) : Option Cause :=
  let k := s.cur.2
  let sr := recOf (c.gb p.sb)
  let dr := recOf (c.gb p.db)
  let cs := pumpCounts c p
  let e := recElem sr
  firstOf [
    if sr.ok && sr.elem.isNone then some (.bounds false 0) else none,
    s.sideChk k e cs true gath sr p.soff.toNat (p.dims.map Dim.ssel),
    if p.ring then s.ringChk k (streamOf (c.gq p.db)) (e * prod cs) (p.dims.map Dim.dsel)
      else s.sideChk k e cs false scat dr p.doff.toNat (p.dims.map Dim.dsel),
    if gath || scat then s.listChk k (c.gs p.tok) (prod (cs.drop 1)) else none]

/-- The checks of pfill. -/
def State.fillChk (s : State) (c : Core) (p : Pump) : Option Cause :=
  let dr := recOf (c.gb p.db)
  firstOf [
    if dr.ok && dr.elem.isNone then some (.bounds false 0) else none,
    s.sideChk s.cur.2 (recElem dr) (pumpCounts c p) false false dr p.doff.toNat (p.dims.map Dim.dsel)]

/-- The element size of a stream for pumps (R293). -/
def Stream.pumpE (q : Stream) : Nat := ((streamFmt q.code).map StreamFmt.pumpE).getD 1

/-- The checks of pring. -/
def State.pringChk (s : State) (c : Core) (p : Pump) : Option Cause :=
  let q := streamOf (c.gq p.sb)
  let cs := pumpCounts c p
  firstOf [
    s.ringChk s.cur.2 q (q.pumpE * prod cs) [],
    s.sideChk s.cur.2 q.pumpE cs false false (recOf (c.gb p.db)) p.doff.toNat (p.dims.map Dim.dsel)]

/-- Page sizes that ppage takes: codes 0 to 8 (R268). -/
def ppageSize (n : Nat) : Bool := (List.range 9).any fun k => pageSize k == some n

/-- The checks of ppage (R265, R268). -/
def ppageChk (i : Instr) (c : Core) (sb db : BitVec 4) : Option Cause :=
  let sr := recOf (c.gb sb)
  let dr := recOf (c.gb db)
  let n := sr.extent.toNat
  let ok (r : Rec) := r.ok && r.extent.toNat == n && r.base.toNat % 2 ^ 40 % n == 0
  if !c.x.priv then some (.privilege (firstGranule i))
  else if ok sr && ok dr && ppageSize n then none
  else some (.bounds false 0)

/-! ## The words (R266) -/

/-- Turn a check into what engineWord asks for. -/
def chkOf (s : State) (t : Option Cause) (x : Capture) : State × Chk :=
  (s, match t with
    | some e => .trap e
    | none => .ok x)

/-- Loop registers that a word names. -/
def pumpLoops (p : Pump) : List BankReg :=
  p.dims.filterMap fun d => match d.bound with
    | .loop l => some (.l l)
    | .count _ => none

/-- The core after a pump word: its handle, and its token pending (R271, R273). -/
def Core.pumped (tok hreg : BitVec 5) (c : Core) : Core :=
  { (c.ps hreg (c.handles.zeroExtend 64)).setPend tok true with
    handles := c.handles + 1
    wrapped := c.wrapped || c.handles == .allOnes 32 }

/-- A handle register, if one is named. -/
def hregs (h : BitVec 5) : List (BitVec 5) := if h = 0 then [] else [h]

/-- A pump word issues. -/
def pumpWord (i : Instr) (h : EHdr) (p : Pump) (operand : Bool) (regs : List BankReg) (check : State → Core → Option Cause)
    (img1 : Core → Image) (img2 : Core → Image) : State → Out :=
  engineWord .pump i h (if operand then [p.tok] else []) (p.tok :: hregs p.hreg) (regs ++ pumpLoops p)
    (fun s c => chkOf s (check s c) ⟨img1 c, img2 c, if operand then c.gs p.tok else 0, pumpCounts c p⟩)
    (Core.pumped p.tok p.hreg)

/-- The register of the destination. -/
def dstBank (p : Pump) : BankReg := if p.ring then .q p.db else .b p.db

def dstImage (p : Pump) (c : Core) : Image := if p.ring then c.gq p.db else c.gb p.db

/-- pcopy (R266). -/
def execPcopy (h : EHdr) (p : Pump) : State → Out :=
  pumpWord (.pcopy h p) h p false [.b p.sb, dstBank p] (fun s c => s.copyChk c p false false) (fun c => c.gb p.sb) (dstImage p)

/-- pgath (R267). -/
def execPgath (h : EHdr) (p : Pump) : State → Out :=
  pumpWord (.pgath h p) h p true [.b p.sb, dstBank p] (fun s c => s.copyChk c p true false) (fun c => c.gb p.sb) (dstImage p)

/-- pscat (R267). -/
def execPscat (h : EHdr) (p : Pump) : State → Out :=
  pumpWord (.pscat h p) h p true [.b p.sb, .b p.db] (fun s c => s.copyChk c p false true) (fun c => c.gb p.sb) (dstImage p)

/-- pfill (R266). -/
def execPfill (h : EHdr) (p : Pump) : State → Out :=
  pumpWord (.pfill h p) h p true [.b p.db] (fun s c => s.fillChk c p) (fun _ => 0) (dstImage p)

/-- pring (R272). -/
def execPring (h : EHdr) (p : Pump) : State → Out :=
  pumpWord (.pring h p) h p false [.q p.sb, .b p.db] (fun s c => s.pringChk c p) (fun c => c.gq p.sb) (dstImage p)

/-- ppage (R268). -/
def execPpage (h : EHdr) (sb db : BitVec 4) (tok hreg : BitVec 5) : State → Out :=
  engineWord .pump (.ppage h sb db tok hreg) h [] (tok :: hregs hreg) [.b sb, .b db]
    (fun s c => chkOf s (ppageChk (.ppage h sb db tok hreg) c sb db) ⟨c.gb sb, c.gb db, 0, []⟩) (Core.pumped tok hreg)

/-! ## The job of an entry -/

/-- The ring side of a destination or a source, from the stream's live tail or head. -/
def ringSide (c : Core) (n : BitVec 4) (i : Image) (producer : Bool) : PSide :=
  let q := streamOf (c.gq n)
  .ring (streamOf i) (if producer then q.tail.toNat else q.head.toNat)

/-- The destination side of a copying word. -/
def dstSide (c : Core) (p : Pump) (e : Entry) (indexed : Bool) : PSide :=
  if p.ring then ringSide c p.db e.img2 true else .via (recOf e.img2) p.doff.toNat (p.dims.map Dim.dsel) indexed

/-- What an entry is to do, from what it captured. -/
def pumpJob (c : Core) (e : Entry) : Option PJob :=
  let sr := recOf e.img1
  match e.word with
  | .pcopy _ p => some ⟨recElem sr, e.bounds, .via sr p.soff.toNat (p.dims.map Dim.ssel) false, dstSide c p e false, 0⟩
  | .pgath _ p => some ⟨recElem sr, e.bounds, .via sr p.soff.toNat (p.dims.map Dim.ssel) true, dstSide c p e false, pAddr e.scal⟩
  | .pscat _ p => some ⟨recElem sr, e.bounds, .via sr p.soff.toNat (p.dims.map Dim.ssel) false, dstSide c p e true, pAddr e.scal⟩
  | .pfill _ p =>
    let n := recElem (recOf e.img2)
    some ⟨n, e.bounds, .fill (leBytes n e.scal.toNat), dstSide c p e false, 0⟩
  | .pring _ p =>
    some ⟨(streamOf e.img1).pumpE, e.bounds, ringSide c p.sb e.img1 false, dstSide c p e false, 0⟩
  | .ppage _ _ _ _ _ =>
    some ⟨4096, [sr.extent.toNat / 4096], .page (sr.base.toNat % 2 ^ 40), .page ((recOf e.img2).base.toNat % 2 ^ 40), 0⟩
  | _ => none

/-! ## Performing elements (R264, R265) -/

/-- Where an element's bytes come from: one location up, or the locations of an element that crosses from one page to another. -/
inductive ESrc where
  | loc (l : Nat)
  | split (ls : List Nat)
  | ring (q : Stream) (p : Nat)
  | data (bs : List Byte)
  | removed
  deriving Repr

/-- Where an element's bytes go. -/
inductive EDst where
  | loc (l : Nat)
  | split (ls : List Nat)
  | ring (q : Stream) (p : Nat)
  | peer (port : Bool) (a : Nat)
  | removed
  deriving Repr

/-- An element whose sides are at hand. -/
structure Elem where
  src : ESrc
  dst : EDst
  deriving Repr

/-- How finding the places of elements ends. -/
inductive Found (α : Type) where
  | ok (x : α)
  | fail (st : EStatus)
  | wait

/-- Whether the index of element m lies in a footprint that is still spilled (R414). -/
def State.indexHeld (s : State) (h c : Nat) (j : PJob) (m : Nat) : Bool := s.spillHolds (scratchLoc h c (j.list + 4 * (m / j.row)))

/-- The index of the row of element m, as the pump reads it; with the rows lost (R267). -/
def State.readIndex (s : State) (h c : Nat) (j : PJob) (m : Nat) : State × Int × List Nat :=
  let l := scratchLoc h c (j.list + 4 * (m / j.row))
  let r := s.engineUnits (unitsOf l 4)
  (r.1, if r.2.isEmpty then (BitVec.ofNat 32 (r.1.loadNat l 4)).toInt else 0, r.2)

/-- The side's access of element m through its record: under R222 and R217 alone, for its alignment was checked at issue (R265). -/
def State.sideReach (s : State) (h c : Nat) (user : Bool) (j : PJob) (r : Rec) (off : Nat) (sels : List (BitVec 2))
    (indexed write : Bool) (m : Nat) (idx : Int) : State × Reach :=
  s.through h c user r (nestOffset j.e j.counts r off sels indexed m idx) ⟨j.e, 1, write, !write⟩

/-- Bytes of an element that starts at a pointer that lie in its first 4 KiB page, where it crosses into another one of space 0: a wrapped
element may (R222, R265). -/
def crossing (p : Word) (e : Nat) : Option Nat :=
  if pSpace p = 0 ∧ 4096 < pAddr p % 4096 + e then some (4096 - pAddr p % 4096) else none

/-- The locations of an element whose first k bytes lie at location l; the others' page is translated apart. -/
def State.crossed (s : State) (h c : Nat) (user : Bool) (p : Word) (l k e : Nat) (write : Bool) : State × Found (List Nat) :=
  match s.reach h c user (ptrAt p k) ⟨e - k, 1, write, !write⟩ with
  | (t, .at_ _ (.loc m _)) => (t, .ok ((List.range e).map fun i => if i < k then l + i else m + (i - k)))
  | (t, .wait) => (t, .wait)
  | (t, _) => (t, .fail .translation)

/-- The source of element m. -/
def State.findSrc (s : State) (h c : Nat) (user : Bool) (j : PJob) (m : Nat) (idx : Int) : State × Found ESrc :=
  match j.src with
  | .fill bs => (s, .ok (.data bs))
  | .ring q p => (s, if s.ringHeld h c q (p + j.e * m) j.e then .wait else .ok (.ring q (p + j.e * m)))
  | .page a => (s, .ok (.loc (a + j.e * m)))
  | .via r off sels x =>
    match s.sideReach h c user j r off sels x false m idx with
    | (t, .at_ p (.loc l _)) => match crossing p j.e with
      | none => (t, .ok (.loc l))
      | some k => match t.crossed h c user p l k j.e false with
        | (u, .ok ls) => (u, .ok (.split ls))
        | (u, .fail st) => (u, .fail st)
        | (u, .wait) => (u, .wait)
    | (t, .none_ _) => (t, .ok .removed)
    | (t, .wait) => (t, .wait)
    | (t, _) => (t, .fail .translation)

/-- The destination of element m; a peer port that is down fails it (R269). -/
def State.findDst (s : State) (h c : Nat) (user : Bool) (j : PJob) (m : Nat) (idx : Int) : State × Found EDst :=
  match j.dst with
  | .fill _ => (s, .ok .removed)
  | .ring q p => (s, if s.ringHeld h c q (p + j.e * m) j.e then .wait else .ok (.ring q (p + j.e * m)))
  | .page a => (s, .ok (.loc (a + j.e * m)))
  | .via r off sels x =>
    match s.sideReach h c user j r off sels x true m idx with
    | (t, .at_ p (.loc l _)) => match crossing p j.e with
      | none => (t, .ok (.loc l))
      | some k => match t.crossed h c user p l k j.e true with
        | (u, .ok ls) => (u, .ok (.split ls))
        | (u, .fail st) => (u, .fail st)
        | (u, .wait) => (u, .wait)
    | (t, .at_ _ (.peer port a)) => (t, if s.ports.getD port.toNat false then .ok (.peer port a) else .fail .peerDown)
    | (t, .none_ _) => (t, .ok .removed)
    | (t, .wait) => (t, .wait)
    | (t, .fail _) => (t, .fail .translation)

/-- Whether a side of the job is indexed. -/
def PJob.indexed (j : PJob) : Bool :=
  (match j.src with
    | .via _ _ _ x => x
    | _ => false) ||
  match j.dst with
    | .via _ _ _ x => x
    | _ => false

/-- Both sides of element m, and the rows of the index list that are lost. -/
def State.findElem (s : State) (h c : Nat) (user : Bool) (j : PJob) (m : Nat) : State × Found Elem × List Nat :=
  let i := if j.indexed then s.readIndex h c j m else (s, 0, [])
  if j.indexed && s.indexHeld h c j m then (s, .wait, [])
  else match i.1.findSrc h c user j m i.2.1 with
  | (t, .fail st) => (t, .fail st, i.2.2)
  | (t, .wait) => (t, .wait, i.2.2)
  | (t, .ok x) =>
    match t.findDst h c user j m i.2.1 with
    | (u, .fail st) => (u, .fail st, i.2.2)
    | (u, .wait) => (u, .wait, i.2.2)
    | (u, .ok y) => (u, .ok ⟨x, y⟩, i.2.2)

/-- Both sides of several elements. -/
def State.findElems (s : State) (h c : Nat) (user : Bool) (j : PJob) : List Nat → State × Found (List Elem) × List Nat
  | [] => (s, .ok [], [])
  | m :: r =>
    match s.findElem h c user j m with
    | (t, .fail st, z) => (t, .fail st, z)
    | (t, .wait, z) => (t, .wait, z)
    | (t, .ok x, z) =>
      match t.findElems h c user j r with
      | (u, .ok xs, y) => (u, .ok (x :: xs), z ++ y)
      | (u, .fail st, y) => (u, .fail st, z ++ y)
      | (u, .wait, y) => (u, .wait, z ++ y)

/-- The locations that an element reads. -/
def Elem.from (h c e : Nat) (x : Elem) : List Nat :=
  match x.src with
  | .loc l => (List.range e).map (l + ·)
  | .split ls => ls
  | .ring q p => (List.range e).map fun i => q.loc h c (p + i)
  | _ => []

/-- The locations that an element writes. -/
def Elem.to (h c e : Nat) (x : Elem) : List Nat :=
  match x.dst with
  | .loc l => (List.range e).map (l + ·)
  | .split ls => ls
  | .ring q p => (List.range e).map fun i => q.loc h c (p + i)
  | _ => []

/-- The protected unit of a location (R223, R233). -/
def unitOf (l : Nat) : Nat := if isScratch l then l / 16 else l / 64 * 4

/-- The bytes that an element carries; lost units are zeros (R269). -/
def State.elemBytes (s : State) (h c e : Nat) (lost : List Nat) (x : Elem) : List Byte :=
  match x.src with
  | .data bs => bs
  | .removed => .replicate e 0
  | _ => (x.from h c e).map fun l => if lost.contains (unitOf l) then 0 else s.mem.byte l

/-- An element's bytes arrive. -/
def State.putElem (s : State) (h c e : Nat) (lost : List Nat) (x : Elem) : State :=
  let bs := s.elemBytes h c e lost x
  match x.dst with
  | .loc l => s.writeLoc l bs
  | .split ls => s.writeCells (ls.zip bs)
  | .ring q p => s.ringWrite h c q p bs
  | .peer port a => { s with sent := s.sent ++ [⟨port, .store a bs⟩] }
  | .removed => s

/-- Whether an element counts as written: the zero mode removes it on neither side (R265). -/
def Elem.counts (x : Elem) : Bool :=
  match x.src, x.dst with
  | .removed, _ => false
  | _, .removed => false
  | _, _ => true

/-- The 4 KiB page of a side at element m, in its own addresses (R264). -/
def PSide.page4k (j : PJob) (m : Nat) (idx : Int) : PSide → Nat
  | .fill _ => 0
  | .ring q p => (pAddr q.ring + (p + j.e * m) % q.size) / 4096
  | .page a => (a + j.e * m) / 4096
  | .via r off sels x =>
    let o := nestOffset j.e j.counts r off sels x m idx
    pAddr (ptrAt r.base (if r.bounds = 2 then o % r.extent.toNat else o)) / 4096

/-- The elements of the segment that begins at element m: of its innermost row, up to a 4 KiB boundary of either side
(R264). -/
def State.segmentAt (s : State) (h c : Nat) (j : PJob) (m : Nat) : List Nat :=
  let idx := if j.indexed then (s.readIndex h c j m).2.1 else 0
  let key (k : Nat) := (j.src.page4k j k idx, j.dst.page4k j k idx)
  ((List.range (j.row - m % j.row)).map (m + ·)).takeWhile fun k => key k == key m

/-- Locations as ranges: first and count of each run. -/
def ranges : List Nat → List (Nat × Nat)
  | [] => []
  | l :: r => match ranges r with
    | (a, n) :: t => if a = l + 1 then (l, n + 1) :: t else (l, 1) :: (a, n) :: t
    | [] => [(l, 1)]

/-- How performing a segment ends: the state, and whether the entry can go on, has failed or waits. -/
inductive SegEnd where
  | go | failed (st : EStatus) | wait
  deriving DecidableEq, Repr

/-- The next segment of a running entry, in nest order (R264). -/
def State.doSegment (s : State) (h c : Nat) (user : Bool) (j : PJob) (r : Run) : State × Run × SegEnd :=
  let ms := s.segmentAt h c j r.pos
  match s.findElems h c user j ms with
  | (t, .wait, _) => (t, r, .wait)
  | (t, .fail st, z) => (t, r.lose z, .failed st)
  | (t, .ok xs, z) =>
    let from_ := xs.flatMap (Elem.from h c j.e)
    let u := t.engineUnits ((from_.map unitOf).eraseDups)
    ((xs.foldl (fun v x => v.putElem h c j.e u.2 x) u.1).covered (xs.flatMap (Elem.to h c j.e)),
      { r.lose (z ++ u.2) with
        pos := r.pos + ms.length
        bytes := r.bytes + j.e * (xs.filter Elem.counts).length
        reads := r.reads ++ ranges from_
        writes := r.writes ++ ranges (xs.flatMap (Elem.to h c j.e)) }, .go)

/-- Segments up to the end of the nest, at most n of them. -/
def State.doSegments (s : State) (h c : Nat) (user : Bool) (j : PJob) : Nat → Run → State × Run × SegEnd
  | 0, r => (s, r, .go)
  | n + 1, r =>
    if j.total ≤ r.pos then (s, r, .go)
    else match s.doSegment h c user j r with
      | (t, q, .go) => t.doSegments h c user j n q
      | x => x

/-- The destination bytes of elements from m on become undefined (R264, R269, R274). -/
def State.forgetDst (s : State) (h c : Nat) (user : Bool) (j : PJob) (m : Nat) : State :=
  ((List.range (j.total - m)).map (m + ·)).foldl (fun t k =>
    let i := if j.indexed then t.readIndex h c j k else (t, 0, [])
    match i.1.findDst h c user j k i.2.1 with
    | (u, .ok d) => (Elem.to h c j.e ⟨.removed, d⟩).foldl (fun v l => v.forgetLoc l 1) u
    | (u, _) => u) s

/-- Bytes that are both read and written leave every destination byte undefined (R263). -/
def State.overlapped (s : State) (r : Run) : State :=
  if r.reads.any fun a => r.writes.any fun b => overlap a.1 a.2 b.1 b.2 then
    r.writes.foldl (fun t x => t.forgetLoc x.1 x.2) s
  else s

/-! ## Completing a pump entry -/

/-- Statuses with which an entry has written every byte of its nest (R272). -/
def wrote (st : EStatus) : Bool := st == .ok || st == .eccZeroed || st == .scalePoison

/-- The ring that an entry produces into or takes from goes on by B (R272). -/
def Core.passRing (c : Core) (j : PJob) (i : Instr) : Core :=
  match i with
  | .pcopy _ p | .pgath _ p => if p.ring then c.pushRing p.db j.bytes else c
  | .pring _ p => c.popRing p.sb j.bytes
  | _ => c

/-- The scale words that a produced ring has taken in (R285). -/
def State.carried (s : State) (h c : Nat) (j : PJob) : State × Nat :=
  match j.dst with
  | .ring q p =>
    let x := s.carryScales h c q (q.scaleWords p j.bytes)
    (x.1, x.2 * q.scal.blocks)
  | _ => (s, 0)

/-- Stream registers that an entry produces into (R297). -/
def producesIn : Instr → List (BitVec 4)
  | .pcopy _ p | .pgath _ p => if p.ring then [p.db] else []
  | .wdrain _ _ q _ _ _ _ => [q]
  | _ => []

/-- Bytes of the entry's ring that another register's ring has taken in as well are undefined (R297). -/
def State.clashed (s : State) (h c : Nat) (j : PJob) (i : Instr) : State :=
  match j.dst, producesIn i with
  | .ring q p, n :: _ => s.ringClash h c n q p j.bytes
  | _, _ => s

/-- Whether the entry writes a ring. -/
def PJob.toRing (j : PJob) : Bool :=
  match j.dst with
  | .ring _ _ => true
  | _ => false

/-- A pump entry ends with what its run has met (R269, R272). -/
def State.finishPump (s : State) (h c : Nat) (e : Entry) (j : PJob) (r : Run) : State :=
  let t := s.overlapped r
  let x := if wrote r.status then (fun y => (y.1.clashed h c j e.word, y.2)) (t.carried h c j) else (t, 0)
  let q := { r with poisoned := r.poisoned + x.2 }
  let u := if wrote q.final then x.1.modCore h c fun y => y.passRing j e.word else x.1
  u.complete h c .pump e q.final (q.detail q.bytes) q.bytes j.bytes

/-- The Running pump entry of a core goes on to its end, unless it waits for the host. Where a segment fails, what follows in its
destination is undefined (R264, R269), and in a ring all of its bytes are (R272). -/
def State.endPump (s : State) (h c : Nat) (e : Entry) (r : Run) : State :=
  match (s.core? h c).bind fun x => pumpJob x e with
  | none => s
  | some j =>
    match s.doSegments h c e.user j j.total r with
    | (t, q, .go) => t.finishPump h c e j q
    | (t, q, .failed st) => (t.forgetDst h c e.user j (if j.toRing then 0 else q.pos)).finishPump h c e j { q with status := st }
    | (t, q, .wait) => t.setRun h c .pump fun _ => q

/-- The Running pump entry of a core performs its next segment. -/
def State.stepPump (s : State) (h c : Nat) : State :=
  match (s.core? h c).bind fun x => (x.head .pump).bind fun e => (e.run).bind fun r => (pumpJob x e).map fun j => (e, r, j) with
  | some (e, r, j) =>
    if j.total ≤ r.pos ∨ r.stop then s
    else match s.doSegment h c e.user j r with
      | (t, q, .go) => t.setRun h c .pump fun _ => q
      | (t, _, .wait) => t
      | (_, _, .failed _) => s
  | none => s

/-- A pump entry stops before its end: every destination byte that it could have written is undefined (R269, R274, R443). -/
def State.stopPump (s : State) (h c : Nat) (e : Entry) (r : Run) (st : EStatus) : State :=
  match (s.core? h c).bind fun x => pumpJob x e with
  | none => s
  | some j =>
    (s.forgetDst h c e.user j 0).complete h c .pump e (st.worse r.final) r.bytes r.bytes j.bytes

/-! ## Taking an entry (R172, R272, R297) -/

/-- Stream registers that an entry consumes from (R297). -/
def consumesFrom : Instr → List (BitVec 4)
  | .pring _ p => [p.sb]
  | .mmul _ _ a b _ | .msl _ _ a b _ _ | .mkat _ _ a b _ _ => [a, b]
  | .wfeed _ _ (.stream q _) _ _ p => q :: p.toList
  | .wfeed _ _ .buf _ _ p => p.toList
  | _ => []

/-- Whether two entries share a role on some stream register. -/
def sameRole (a b : Instr) : Bool :=
  (producesIn a).any (fun q => (producesIn b).contains q) || (consumesFrom a).any fun q => (consumesFrom b).contains q

/-- Whether no other head of the core holds, or comes first for, a role of the entry (R297). -/
def Core.roleFree (c : Core) (e : Entry) : Bool :=
  [Engine.pump, .matrix, .well, .coll].all fun g => match c.head g with
    | some x => x.seq == e.seq || !sameRole x.word e.word || !(x.run.isSome || (x.step == .ready && decide (x.seq < e.seq)))
    | none => true

/-- Whether the rings of a job have room, or hold enough (R272). -/
def PJob.ringsReady (c : Core) (j : PJob) (i : Instr) : Bool :=
  match i with
  | .pcopy _ p | .pgath _ p =>
    !p.ring || decide (j.bytes ≤ (streamOf (c.gq p.db)).size - (streamOf (c.gq p.db)).filled)
  | .pring _ p => decide (j.bytes ≤ (streamOf (c.gq p.sb)).filled)
  | _ => true

/-- Whether a core's pump head may start (R172, R270, R272, R297). -/
def State.pumpReady (s : State) (h i : Nat) : Bool :=
  match s.core? h i with
  | none => false
  | some c =>
    match c.head .pump with
    | none => false
    | some e =>
      e.step == .ready && !c.swapped && c.storesDone e && c.roleFree e && s.engineFree h i .pump && !s.inEmergency h &&
      match pumpJob c e with
      | some j => j.ringsReady c e.word
      | none => false

/-- Whether a core's windlass injects through pump 1 (R333). -/
def injects (c : Core) : Bool :=
  match c.head .well with
  | some e => match e.word with
    | .wfeed _ _ (.stream _ _) _ _ _ => e.run.isSome
    | _ => false
  | none => false

/-- Pumps of a herd that are busy, in the running and the spilling context. -/
def Herd.pumpsBusy (x : Herd) : List Nat :=
  let cs := x.act.cores ++ (x.old.map HerdCtx.cores).getD []
  (cs.filterMap fun c => ((c.head .pump).bind Entry.run).map Run.unit) ++ (if cs.any injects then [1] else [])

/-- The pump that chooses next: pump 0 first (R172). -/
def Herd.idlePump (x : Herd) : Option Nat := [0, 1].find? fun p => !x.pumpsBusy.contains p

/-- The first core after another, wrapping, that has a property (R172). -/
def nextAfter (last : Nat) (ok : Nat → Bool) : Option Nat := ((List.range 8).map fun i => (last + 1 + i) % 8).find? ok

/-- The core whose head a herd's next pump takes, and the pump (R172). -/
def State.pumpChoice (s : State) (h : Nat) : Option (Nat × Nat) :=
  (s.herds[h]?).bind fun x => x.idlePump.bind fun p =>
    (nextAfter (x.act.lastRun.getD p 7) (s.pumpReady h)).map fun i => (i, p)

/-- A pump takes the head of a core. -/
def State.startPump (s : State) (h c : Nat) : State :=
  match s.pumpChoice h with
  | some (i, p) =>
    if i = c then (s.startRun h c .pump (.fresh p s.now)).modCtx h fun x => { x with lastRun := x.lastRun.set p i } else s
  | none => s

/-! ## Cancelling (R274) -/

/-- The place of the entry with a handle in the pump queue. -/
def Core.byHandle (c : Core) (k : BitVec 32) : Option Nat := (c.queue .pump).findIdx? fun e => e.handle == k

/-- Bytes that the Running pump entry of a core is producing into a stream. -/
def Core.producing (c : Core) (n : BitVec 4) : Nat :=
  match c.head .pump with
  | some e => if e.run.isSome && (producesIn e.word).contains n then ((pumpJob c e).map PJob.bytes).getD 0 else 0
  | none => 0

/-- What an entry that has not run could have written becomes undefined (R274): its destination, or the free bytes of its ring but
for those that a Running entry produces (R272). -/
def State.forgetQueued (s : State) (h i : Nat) (c : Core) (e : Entry) (j : PJob) : State :=
  match j.dst, producesIn e.word with
  | .ring q p, n :: _ =>
    let k := c.producing n
    s.ringForget h i q (p + k) (q.size - (streamOf (c.gq n)).filled - k)
  | _, _ => s.forgetDst h i e.user j 0

/-- An entry that was not Running is cancelled: what it could have written is undefined. -/
def State.cancelQueued (s : State) (h i n : Nat) : State :=
  match (s.core? h i).bind fun c => ((c.queue .pump)[n]?).bind fun e => (pumpJob c e).map fun j => (c, e, j) with
  | some (c, e, j) =>
    (s.forgetQueued h i c e j).modCore h i fun c =>
      c.setQueue .pump ((c.queue .pump).modify n fun e => { e with cancel := true })
  | none => s

/-- pcancel (R274): a Running entry is asked to stop, and the answer lands with its acknowledgement. -/
def execPcancel (rd rs1 : BitVec 5) (s : State) : Out :=
  s.onMy fun c =>
    if !c.free [rs1] [rd] then .next s
    else
      let v := c.gs rs1
      let k : BitVec 32 := v.truncate 32
      if v.extractLsb' 32 32 ≠ 0 then .next (s.fin (c.post rd 2))
      else match c.byHandle k with
        | none => .next (s.fin (c.post rd (if c.wrapped || decide (k < c.handles) then 1 else 2)))
        | some n =>
          if ((c.queue .pump)[n]?.bind Entry.run).isSome then
            .next ((s.fin { c.setPend rd true with cancelRd := c.cancelRd ++ [(k, rd)] }).setRun s.cur.1 s.cur.2 .pump
              fun r => { r with stop := true })
          else .next ((s.fin (c.post rd 0)).cancelQueued s.cur.1 s.cur.2 n)

/-- The answers of pcancels for a handle land (R274). -/
def Core.answerCancel (c : Core) (k : BitVec 32) (v : Word) : Core :=
  (c.cancelRd.filter fun x => x.1 == k).foldl (fun y x => { y with landings := y.landings ++ [⟨x.2, v⟩] })
    { c with cancelRd := c.cancelRd.filter fun x => x.1 != k }

/-- The Running entry that was asked to stop stops (R274). -/
def State.ackCancel (s : State) (h c : Nat) : State :=
  match (s.core? h c).bind fun x => (x.head .pump).bind fun e => (e.run).map fun r => (e, r) with
  | some (e, r) =>
    if r.stop && s.mayEnd h e then (s.stopPump h c e r .cancelled).modCore h c fun x => x.answerCancel e.handle 0 else s
  | none => s

/-- Whether a core's Running pump entry is to stop. -/
def Core.stopping (c : Core) : Bool := (((c.head .pump).bind Entry.run).map Run.stop).getD false

/-- PUMP_CANCEL_ACK (R274), the old context's first (R411). -/
def execPumpCancelAck (herd core : Nat) (s : State) : Out :=
  s.onCore herd core fun _ => .next (s.either herd core Core.stopping fun t => t.ackCancel herd core)

end Sys2Proof.Machine
end

