-- ==== Sys2Proof/Machine/Vmath.lean ====
section
/-! DEFINITION. What the vector engine computes of one element (spec/08_vector_engine.md R191 to R205, R208). An element is
the number of its encoding. -/

namespace Sys2Proof.Machine

/-! ## Elements of a slice (R187) -/

/-- Elements of a slice. -/
def elemCount (w : Nat) : Nat := 2048 / w

/-- The elements of width w of a slice, element 0 first. -/
def elems (w : Nat) (x : Slice) : List Nat := (List.range (elemCount w)).map fun j => x.toNat / 2 ^ (w * j) % 2 ^ w

/-- The number that elements of width w make. -/
def packNat (w : Nat) : List Nat → Nat
  | [] => 0
  | e :: r => e % 2 ^ w + 2 ^ w * packNat w r

/-- A slice of elements. -/
def ofElems (w : Nat) (es : List Nat) : Slice := .ofNat 2048 (packNat w es)

/-- The lane of element j (R187). -/
def laneOf (w j : Nat) : Nat := w * j / 32

/-! ## Integers (R195) -/

/-- The value of an integer element. -/
def intOf (t : ElemType) (x : Nat) : Int :=
  let w := elemWidth t
  if isSigned t ∧ 2 ^ (w - 1) ≤ x % 2 ^ w then (x % 2 ^ w : Nat) - (2 ^ w : Nat) else (x % 2 ^ w : Nat)

/-- The type's range. -/
def intMin (t : ElemType) : Int := if isSigned t then -(2 ^ (elemWidth t - 1) : Nat) else 0
def intMax (t : ElemType) : Int :=
  if isSigned t then (2 ^ (elemWidth t - 1) : Nat) - 1 else (2 ^ elemWidth t : Nat) - 1

/-- The low bits of an integer result, or the clamped result with sat (R195). -/
def fit (t : ElemType) (sat : Bool) (x : Int) : Nat :=
  let y := if sat then max (intMin t) (min (intMax t) x) else x
  (y % (2 ^ elemWidth t : Nat)).toNat

/-! ## Floating values -/

/-- The format of a floating element type. -/
def ffmt (t : ElemType) : FFmt := (fmtOf t).getD F32

/-- The value of an element of any type. -/
def valueOf (t : ElemType) (x : Nat) : Num :=
  match fmtOf t with
  | some f => f.decode x
  | none => .ofInt (intOf t x)

/-- The order of vmin and vmax: -0 lies below +0 (R197). -/
def orderKey (f : FFmt) (x : Nat) : Int := if f.negOf x then -(f.magOf x : Int) - 1 else f.magOf x

/-- The integer square root, bit by bit. -/
def isqrtFrom (x : Nat) : Nat → Nat → Nat
  | 0, r => r
  | b + 1, r => isqrtFrom x b (if (r + 2 ^ b) * (r + 2 ^ b) ≤ x then r + 2 ^ b else r)

def isqrt (x : Nat) : Nat := isqrtFrom x (Nat.log2 x / 2 + 1) 0

/-- The square root of n / d, or a value that rounds as it does: between two neighbours of a grid finer than every format
(R198). -/
def sqrtOf (n d : Nat) : Num :=
  let x := n * d * 4 ^ 200
  let s := isqrt x
  if s * s = x then .fin false s (d * 2 ^ 200) else .fin false (2 * s + 1) (d * 2 ^ 201)

/-- Square root (R198). -/
def Num.sqrt : Num → Num
  | .nan => .nan
  | .inf neg => if neg then .nan else .inf false
  | .fin neg n d => if n = 0 then .fin neg 0 1 else if neg then .nan else sqrtOf n d

/-- Reciprocal square root (R198). -/
def Num.rsqrt : Num → Num
  | .nan => .nan
  | .inf neg => if neg then .nan else .fin false 0 1
  | .fin neg n d => if n = 0 then .inf neg else if neg then .nan else sqrtOf d n

/-- Reciprocal (R198). -/
def Num.rcp (x : Num) : Num := (Num.fin false 1 1).div x

/-- A times 2 to the power b: beyond 1,000 the result overflows or underflows alike (R198). -/
def Num.scale (x : Num) (b : Int) : Num :=
  let e := max (-1000) (min 1000 b)
  match x with
  | .fin neg n d => .fin neg (n * (pow2 e).1) (d * (pow2 e).2)
  | y => y

/-! ## Elementary functions, by enclosures in 640-bit fixed point (R198; log 10) -/

/-- One in fixed point. -/
def fxOne : Nat := 2 ^ 640

/-- More than the error of any sum below. -/
def fxSlack : Nat := 2 ^ 40

/-- Terms of atanh from t = z^(2k+1) on. -/
def atanhSum (z2 : Nat) : Nat → Nat → Nat → Nat
  | 0, _, _ => 0
  | f + 1, k, t => t / (2 * k + 1) + atanhSum z2 f (k + 1) (t * z2 / fxOne)

/-- atanh of z up to 1/3. -/
def fxAtanh (z : Nat) : Nat := atanhSum (z * z / fxOne) 220 0 z

/-- ln 2. -/
def fxLn2 : Nat := 2 * fxAtanh (fxOne / 3)

/-- Terms of exp from t = y^k / k! on. -/
def expSum (y : Nat) : Nat → Nat → Nat → Nat
  | 0, _, _ => 0
  | f + 1, k, t => t + expSum y f (k + 1) (t * y / fxOne / (k + 1))

/-- exp of y below 1. -/
def fxExp (y : Nat) : Nat := expSum y 130 0 fxOne

/-- Two fractions of one denominator that enclose a positive real. -/
structure Encl where
  lo  : Nat
  hi  : Nat
  den : Nat
  deriving DecidableEq, Repr

/-- The enclosure of a fixed-point value times 2^k. -/
def enclAt (x : Nat) (k : Int) : Encl :=
  ⟨(x - fxSlack) * (pow2 k).1, (x + fxSlack) * (pow2 k).1, fxOne * (pow2 k).2⟩

/-- The rounding that both ends of an enclosure agree on. -/
def roundEncl (f : FFmt) (rnd : Rnd) (sat neg : Bool) (e : Encl) : Nat :=
  let a := roundTo f rnd sat (.fin neg e.lo e.den)
  let b := roundTo f rnd sat (.fin neg e.hi e.den)
  if a = b then a else Config.freeRound a b

/-- e to the power n / d, for n / d from 0 to 1,000. -/
def enclExp (n d : Nat) : Encl :=
  let y := n * fxOne / d
  enclAt (fxExp (y % fxLn2)) (y / fxLn2 : Nat)

/-- 2 to the power x, for x no integer and below 2,000 in magnitude. -/
def enclExp2 (x : Int) (d : Nat) : Encl :=
  enclAt (fxExp ((x % d).toNat * fxOne / d * fxLn2 / fxOne)) (x / d)

/-- 2^A (R198). -/
def fExp2 (f : FFmt) (rnd : Rnd) (sat : Bool) : Num → Nat
  | .nan => f.nanOf
  | .inf neg => if neg then f.code false 0 else f.infOf false sat
  | .fin neg n d =>
    let x := signed neg n
    if 2000 * d ≤ n then roundTo f rnd sat (.dyadic false 1 (if neg then -2000 else 2000))
    else if n % d = 0 then roundTo f rnd sat (.dyadic false 1 (x / d))
    else roundEncl f rnd sat false (enclExp2 x d)

/-- log2 A (R198). -/
def fLog2 (f : FFmt) (rnd : Rnd) (sat : Bool) : Num → Nat
  | .nan => f.nanOf
  | .inf neg => if neg then f.nanOf else f.infOf false sat
  | .fin neg n d =>
    if n = 0 then f.infOf true sat
    else if neg then f.nanOf
    else
      let e := floorLog2 n d
      let m := n * (pow2 e).2
      let o := d * (pow2 e).1
      if m = o then roundTo f rnd sat (.ofInt e)
      else
        let l := 2 * fxAtanh ((m - o) * fxOne / (m + o)) * fxOne / fxLn2
        let t : Int := e * fxOne + l
        roundEncl f rnd sat (decide (t < 0)) ⟨t.natAbs - fxSlack, t.natAbs + fxSlack, fxOne⟩

/-- A value just below 1: it rounds as every value does that is nearer to 1 than any format resolves. -/
def nearOne : Num := .fin false (2 ^ 400 - 1) (2 ^ 400)

/-- tanh A (R198). -/
def fTanh (f : FFmt) (rnd : Rnd) (sat : Bool) : Num → Nat
  | .nan => f.nanOf
  | .inf neg => roundTo f rnd sat (.fin neg 1 1)
  | .fin neg n d =>
    if n = 0 then f.code neg 0
    else if 32 * d ≤ n then roundTo f rnd sat (if neg then nearOne.negate else nearOne)
    else
      let e := enclExp (2 * n) d
      let lo := (e.lo - e.den) * fxOne / (e.lo + e.den)
      let hi := (e.hi - e.den) * fxOne / (e.hi + e.den) + 1
      roundEncl f rnd sat neg ⟨lo, hi, fxOne⟩

/-- 1 / (1 + e^-A) (R198). -/
def fSigm (f : FFmt) (rnd : Rnd) (sat : Bool) : Num → Nat
  | .nan => f.nanOf
  | .inf neg => roundTo f rnd sat (if neg then .fin false 0 1 else .fin false 1 1)
  | .fin neg n d =>
    if n = 0 then roundTo f rnd sat (.fin false 1 2)
    else if 400 * d ≤ n then roundTo f rnd sat (if neg then .dyadic false 1 (-600) else nearOne)
    else
      let e := enclExp n d
      if neg then roundEncl f rnd sat false ⟨e.den * fxOne / (e.hi + e.den), e.den * fxOne / (e.lo + e.den) + 1, fxOne⟩
      else roundEncl f rnd sat false ⟨e.lo * fxOne / (e.lo + e.den), e.hi * fxOne / (e.hi + e.den) + 1, fxOne⟩

/-! ## Element functions -/

/-- How a word computes: its type, rounding and saturation. -/
structure VMode where
  ty  : ElemType
  rnd : Rnd
  sat : Bool
  deriving DecidableEq, Repr

def vmode (h : VHdr) : VMode := ⟨h.ty, h.rnd, h.sat⟩

/-- A two-source function: exact on integers, rounded once on floating values (R195, R196). -/
def arith (m : VMode) (fi : Int → Int → Int) (ff : Num → Num → Num) (a b : Nat) : Nat :=
  if isF m.ty then roundTo (ffmt m.ty) m.rnd m.sat (ff (valueOf m.ty a) (valueOf m.ty b))
  else fit m.ty m.sat (fi (intOf m.ty a) (intOf m.ty b))

def eAdd (m : VMode) : Nat → Nat → Nat := arith m (· + ·) (Num.add m.rnd)
def eSub (m : VMode) : Nat → Nat → Nat := arith m (· - ·) fun x y => Num.add m.rnd x y.negate
def eMul (m : VMode) : Nat → Nat → Nat := arith m (· * ·) Num.mul

/-- Bits [2w-1:w] of the exact product (R197). -/
def eMulh (m : VMode) (a b : Nat) : Nat :=
  let w := elemWidth m.ty
  (intOf m.ty a * intOf m.ty b / (2 ^ w : Nat) % (2 ^ w : Nat)).toNat

/-- vmin and vmax (R197). -/
def ePick (t : ElemType) (greater : Bool) (a b : Nat) : Nat :=
  if isF t then
    let f := ffmt t
    if f.isNan a ∧ f.isNan b then f.nanOf
    else if f.isNan a then b
    else if f.isNan b then a
    else if (orderKey f a < orderKey f b) = greater then b else a
  else if (intOf t a < intOf t b) = greater then b else a

def eMin (m : VMode) : Nat → Nat → Nat := ePick m.ty false
def eMax (m : VMode) : Nat → Nat → Nat := ePick m.ty true

/-- vabs and vneg: a floating value's sign bit alone changes (R197). -/
def eAbs (m : VMode) (a : Nat) : Nat :=
  if isF m.ty then (ffmt m.ty).magOf a else fit m.ty m.sat (intOf m.ty a).natAbs

def eNeg (m : VMode) (a : Nat) : Nat :=
  if isF m.ty then (ffmt m.ty).code (!(ffmt m.ty).negOf a) ((ffmt m.ty).magOf a) else fit m.ty m.sat (-intOf m.ty a)

/-- The fused forms: one rounding after the exact product and sum (R198). -/
def eFma (m : VMode) (negProd negD : Bool) (d a b : Nat) : Nat :=
  let p := (valueOf m.ty a).mul (valueOf m.ty b)
  let x := valueOf m.ty d
  roundTo (ffmt m.ty) m.rnd m.sat (Num.add m.rnd (if negProd then p.negate else p) (if negD then x.negate else x))

/-- A one-source floating function. -/
def eFun (m : VMode) (f : Num → Num) (a : Nat) : Nat := roundTo (ffmt m.ty) m.rnd m.sat (f (valueOf m.ty a))

/-- A one-source elementary function. -/
def eElem (m : VMode) (f : FFmt → Rnd → Bool → Num → Nat) (a : Nat) : Nat :=
  f (ffmt m.ty) m.rnd m.sat (valueOf m.ty a)

def eDiv (m : VMode) (a b : Nat) : Nat :=
  roundTo (ffmt m.ty) m.rnd m.sat ((valueOf m.ty a).div (valueOf m.ty b))

/-- A times 2 to B, B read as a signed integer of the type's width (R198). -/
def eScale (m : VMode) (a b : Nat) : Nat :=
  let w := elemWidth m.ty
  let k : Int := if 2 ^ (w - 1) ≤ b then (b : Int) - (2 ^ w : Nat) else b
  roundTo (ffmt m.ty) m.rnd m.sat ((valueOf m.ty a).scale k)

/-- Shifts: the count is unsigned (R199). -/
def eSll (m : VMode) (a b : Nat) : Nat :=
  if elemWidth m.ty ≤ b then 0 else a * 2 ^ b % 2 ^ elemWidth m.ty

def eSrl (m : VMode) (a b : Nat) : Nat := if elemWidth m.ty ≤ b then 0 else a / 2 ^ b

def eSra (m : VMode) (a b : Nat) : Nat :=
  let w := elemWidth m.ty
  let s : Int := if 2 ^ (w - 1) ≤ a then (a : Int) - (2 ^ w : Nat) else a
  (s / (2 ^ (min b w) : Nat) % (2 ^ w : Nat)).toNat

/-- Leading zeros and one bits of an element (R199). -/
def clzOf (x : Nat) : Nat → Nat
  | 0 => 0
  | n + 1 => if x.testBit n then 0 else 1 + clzOf x n

def popOf (x : Nat) : Nat → Nat
  | 0 => 0
  | n + 1 => x % 2 + popOf (x / 2) n

/-! ## Conversions (R202 to R204) -/

/-- One element converted from one type to another (R202). -/
def cvtElem (src : ElemType) (m : VMode) (x : Nat) : Nat :=
  match fmtOf m.ty, fmtOf src with
  | some f, _ => roundTo f m.rnd m.sat (valueOf src x)
  | none, some g => fit m.ty true ((g.decode x).toIntClamp m.rnd (intMin m.ty) (intMax m.ty))
  | none, none => fit m.ty m.sat (intOf src x)

/-- A value rounded to an integral value of its type (R203). -/
def eRound (m : VMode) (a : Nat) : Nat :=
  let f := ffmt m.ty
  match f.decode a with
  | .nan => f.nanOf
  | .inf _ => a
  | .fin neg n d => if n = 0 then a else roundTo f m.rnd false (.fin neg (rint m.rnd neg n d) 1)

/-- Quantising under an E8M0 scale e (R204). -/
def quantise (m : VMode) (e x : Nat) : Nat :=
  let v := if e = 0xFF then Num.nan else (F32.decode x).scale (127 - (e : Int))
  match fmtOf m.ty with
  | some f => roundTo f m.rnd m.sat v
  | none => fit .s8 true ((v.scale 6).toIntClamp m.rnd (-128) 127)

/-- Dequantising under an E8M0 scale e (R204): an s8 element stands for its integer times 2^-6. -/
def dequantise (src : ElemType) (m : VMode) (e x : Nat) : Nat :=
  if e = 0xFF then F32.nanOf
  else
    let v := (valueOf src x).scale ((e : Int) - 127)
    roundTo F32 m.rnd m.sat (if (fmtOf src).isSome then v else v.scale (-6))

/-! ## Memory elements (R208) -/

/-- widen: a NaN becomes the default NaN (R196, R277). -/
def widen (t : ElemType) (x : Nat) : Nat :=
  match t with
  | .f16 => roundRne F32 (F16.decode x)
  | .bf16 => roundRne F32 (BF16.decode x)
  | .f32 => x
  | _ => (intOf t x % (2 ^ 32 : Nat)).toNat

/-- narrow. -/
def narrow (m : VMode) (x : Nat) : Nat :=
  match m.ty with
  | .f32 | .s32 | .z32 => x
  | .f16 | .bf16 => cvtElem .f32 m x
  | t => fit t m.sat (intOf (if isSigned t then .s32 else .z32) x)

end Sys2Proof.Machine
end

