-- ==== Sys2Proof/Machine/Blocks.lean ====
section
/-! DEFINITION. The elements that a stream's bytes hold, and the dequantised blocks of the wells (spec/11_number_formats.md
R279, R282 to R289, R295). -/

namespace Sys2Proof.Machine

/-- Pieces of k elements. -/
def pieces {α : Type} (k n : Nat) (xs : List α) : List (List α) := (List.range n).map fun i => (xs.drop (i * k)).take k

/-- The codes of w bits that bytes hold, the lowest first (R279). -/
def codesOf (w : Nat) (bs : List Byte) : List Nat :=
  if w = 4 then bs.flatMap fun b => [b.toNat % 16, b.toNat / 16]
  else (pieces (w / 8) (bs.length / (w / 8)) bs).map leNat

/-- Byte i of a scale word's eight bytes. -/
def scaleByte (d i : Nat) : Nat := d / 256 ^ i % 256

/-- The value of an element of a microscaling block without its scale (R282). -/
def mxElement (t : ElemType) (code : Nat) : Num :=
  match t with
  | .s8 => (valueOf .s8 code).mul (.dyadic false 1 (-6))
  | _ => valueOf t code

/-- The value of a scaled element (R282). -/
def mxValue (t : ElemType) (scale code : Nat) : Num :=
  if scale = 0xFF then .nan else (mxElement t code).mul (.dyadic false 1 ((scale : Int) - 127))

/-- The values of a piece of an MX group, its first data byte's place given; nothing stands for a poisoned word, whose blocks are zeros
(R285). -/
def mxPiece (t : ElemType) (first : Nat) (data : List Byte) (scale : Option Nat) : List Num :=
  (codesOf (elemWidth t) data).zipIdx.map fun x => match scale with
    | some d => mxValue t (scaleByte d ((first * 8 / elemWidth t + x.2) / 32)) x.1
    | none => .fin false 0 1

/-- The value of an EP128 image; an overflowed one is not finite (R290, R319). -/
def epValue (x : Nat) : Num := let a := EP128.ofImage x; if a.ov then .nan else .dyadic (decide (a.n < 0)) a.n.natAbs (-96)

/-- The values of a tile's pieces as they were read (R295, R302). -/
def Stream.values (q : Stream) (ps : List Piece) (bs : List Byte) : List Num :=
  if q.code = 0x1D then (codesOf 256 bs).map epValue
  else match streamFmt q.code with
    | some f => if f.scal = .mx then (q.cut ps bs).flatMap fun g => mxPiece f.elem g.1.first g.2.1 (scaleData g.2.2)
      else (codesOf (elemWidth f.elem) bs).map (valueOf f.elem)
    | none => []

/-- Blocks of a group that a piece of its data lies in (R282). -/
def Stream.blocksIn (q : Stream) (x : Piece) : Nat :=
  let b := ((streamFmt q.code).map StreamFmt.group).getD 0 / 8
  if b = 0 ∨ x.len = 0 then 0 else (x.first + x.len - 1) / b - x.first / b + 1

/-- How the scale words of a tile's pieces read (R285): words corrected, words poisoned, and blocks poisoned. -/
def Stream.scaleErrors (q : Stream) (ps : List Piece) (bs : List Byte) : Nat × Nat × Nat :=
  if q.stripe = 0 then (0, 0, 0)
  else (q.cut ps bs).foldl (fun n g => match readScale g.2.2 with
    | .clean => n
    | .fixed _ => (n.1 + 1, n.2)
    | .poisoned => (n.1, n.2.1 + 1, n.2.2 + q.blocksIn g.1)) (0, 0, 0)

/-- Count the scale words that an entry of a herd corrects (R285). -/
def State.noteScales (s : State) (h : Nat) (n : Nat × Nat) : State :=
  if n = (0, 0) then s else s.bump (.scales h) n.2 n.1

end Sys2Proof.Machine
end

