-- ==== Sys2Proof/Machine/Matrix.lean ====
section
/-! DEFINITION. The herd matrix engine (spec/12_matrix_engine.md R298 to R325). -/

namespace Sys2Proof.Machine

/-! ## Operand tiles (R301 to R304) -/

/-- 4-bit kinds of R301. -/
def fourBit (c : Nat) : Bool := c == 0x0A || c == 0x14

/-- Kinds of R301 that meet with K = 64. -/
def mixKind (c : Nat) : Bool :=
  [0x01, 0x06, 0x07, 0x08, 0x09, 0x0A, 0x10, 0x11, 0x12, 0x13, 0x14, 0x15].contains c

/-- K of a pairing of stream formats (R301). -/
def tileK (a b : Nat) : Option Nat :=
  if a = 0x04 ∧ b = 0x04 then some 16
  else if fourBit a && fourBit b then some 128
  else if mixKind a && mixKind b then some 64
  else none

/-- T of R302. -/
def Stream.tileBytes (q : Stream) (k : Nat) : Nat :=
  match q.code with
  | 0x04 => 256 * k
  | 0x05 => 32768
  | 0x0A => 64 * k
  | 0x1D => 262144
  | _ => if q.scal = .mx then k / 2 * (((streamFmt q.code).map StreamFmt.group).getD 0 + 16) else 128 * k

/-- An operand of a tile step: its stream register, its geometry and its T. -/
structure Operand where
  reg : BitVec 4
  q   : Stream
  t   : Nat

/-- K of a word's operand streams (R301). -/
def wordK (i : Instr) (a b : Stream) : Option Nat :=
  match i with
  | .mmul _ _ _ _ _ | .mkat _ _ _ _ _ _ => tileK a.code b.code
  | .msl _ _ _ _ _ _ => if (a.code == 0x05 || a.code == 0x1D) && a.code == b.code then some 64 else none
  | _ => none

/-- The stream registers that a matrix word names. -/
def ringRegs : Instr → Option (BitVec 4 × BitVec 4)
  | .mmul _ _ a b _ | .msl _ _ a b _ _ | .mkat _ _ a b _ _ => some (a, b)
  | _ => none

/-- The operands of an entry, as its registers stood at issue. -/
def operandsOf (e : Entry) : List Operand :=
  let a := streamOf e.img1
  let b := streamOf e.img2
  match ringRegs e.word, wordK e.word a b with
  | some (x, y), some k => [⟨x, a, a.tileBytes k⟩, ⟨y, b, b.tileBytes k⟩]
  | _, _ => []

/-! ## Issue (R309) -/

/-- The accumulator that a word names, and whether it names a pair. -/
def accOf (i : Instr) (ep : Bool) : Option (Nat × Bool) :=
  match i with
  | .mmul _ n _ _ _ | .mkat _ n _ _ _ _ | .mld _ n _ _ | .mzero _ n => some (n.toNat, false)
  | .msl _ n _ _ _ _ => some (n.toNat, ep)
  | .mst _ n _ k _ _ => some (n.toNat, k == .f64)
  | _ => none

/-- Whether the accumulators exist for the node (R298, R299). -/
def accOk (n : Nat) : Option (Nat × Bool) → Bool
  | some (a, pair) => decide (a < n) && (!pair || (a % 2 == 0 && decide (a + 1 < n)))
  | none => true

/-- The checks of the operand rings (R296, R301, R303). -/
def State.tilesOk (s : State) (c : Core) (i : Instr) : Bool :=
  match ringRegs i with
  | none => true
  | some (x, y) =>
    let a := streamOf (c.gq x)
    let b := streamOf (c.gq y)
    let fits (q : Stream) (k : Nat) :=
      s.streamOk s.cur.1 s.cur.2 q && decide (q.tileBytes k ≤ q.size) && (q.scal == .none || q.sstr == 2 ^ Nat.log2 q.sstr)
    match wordK i a b with
    | some k => fits a k && fits b k && x != y
    | none => false

/-- The record, the offset and the element size of mst and mld. -/
def blockOf (i : Instr) : Option (BitVec 4 × Nat × Nat) :=
  match i with
  | .mst _ _ b k _ o => some (b, o.toNat, outKindBytes k)
  | .mld _ _ b o => some (b, o.toNat, 4)
  | _ => none

/-- The checks of the record of mst and mld (R309). -/
def State.blockChk (s : State) (c : Core) (i : Instr) : Option Cause :=
  match blockOf i with
  | none => none
  | some (b, o, e) =>
    let r := recOf (c.gb b)
    if !r.ok || !(pSpace r.base == 1 || pSpace r.base == 2) || !(r.bounds == 0 || r.bounds == 3) then some (.bounds false 0)
    else if (pAddr r.base + o) % e ≠ 0 ∨ r.str0 % (e : Int) ≠ 0 then some (.misalignment (ptrAt r.base o))
    else (List.range 128).findSome? fun (k : Nat) =>
      match r.check (o + k * r.str0) (128 * e) with
      | .error t => some t
      | .ok none => none
      | .ok (some p) =>
        match s.space s.cur.1 s.cur.2 p (128 * e) false with
        | .bad => some (.bounds false p)
        | _ => none

/-- The checks of a matrix word (R309). -/
def State.matrixChk (s : State) (c : Core) (i : Instr) : Option Cause :=
  let node := s.myCtx.held
  if ((node.map Held.matrix).getD false) = false then some .undeclaredMatrix
  else
    let ep := match ringRegs i with
      | some (a, _) => (streamOf (c.gq a)).code == 0x1D
      | none => false
    if !accOk ((node.map Held.acc).getD 0) (accOf i ep) || !s.tilesOk c i then some (.bounds false 0)
    else s.blockChk c i

/-- Registers of the bank that a matrix word reads. -/
def matrixRegs (i : Instr) : List BankReg :=
  match ringRegs i, blockOf i with
  | some (a, b), _ => [.q a, .q b]
  | none, some (b, _, _) => [.b b]
  | none, none => []

/-- What a matrix word captures. -/
def matrixCapture (c : Core) (i : Instr) : Capture :=
  match ringRegs i, blockOf i with
  | some (a, b), _ => ⟨c.gq a, c.gq b, 0, []⟩
  | none, some (b, _, _) => ⟨c.gb b, 0, 0, []⟩
  | none, none => ⟨0, 0, 0, []⟩

/-- A matrix word issues. -/
def matrixWord (i : Instr) (h : EHdr) : State → Out :=
  engineWord .matrix i h [] [] (matrixRegs i) (fun s c => chkOf s (s.matrixChk c i) (matrixCapture c i)) id

/-- mmul (R312). -/
def execMmul (h : EHdr) (acc : BitVec 2) (qa qb : BitVec 4) (init : Bool) : State → Out :=
  matrixWord (.mmul h acc qa qb init) h

/-- msl (R317). -/
def execMsl (h : EHdr) (acc : BitVec 2) (qa qb : BitVec 4) (init : Bool) (slm1 : BitVec 3) : State → Out :=
  matrixWord (.msl h acc qa qb init slm1) h

/-- mkat (R313). -/
def execMkat (h : EHdr) (acc : BitVec 2) (qa qb : BitVec 4) (init : Bool) (crc : BitVec 64) : State → Out :=
  matrixWord (.mkat h acc qa qb init crc) h

/-- mst (R314). -/
def execMst (h : EHdr) (acc : BitVec 2) (ob : BitVec 4) (kind : OutKind) (sat : Bool) (ooff : BitVec 24) : State → Out :=
  matrixWord (.mst h acc ob kind sat ooff) h

/-- mld (R315). -/
def execMld (h : EHdr) (acc : BitVec 2) (ob : BitVec 4) (ooff : BitVec 24) : State → Out :=
  matrixWord (.mld h acc ob ooff) h

/-- mzero (R316). -/
def execMzero (h : EHdr) (acc : BitVec 2) : State → Out := matrixWord (.mzero h acc) h

/-- mrel (R316). -/
def execMrel (h : EHdr) : State → Out := matrixWord (.mrel h) h

/-! ## Tile steps (R312) -/

/-- The exact sum of products along K, from +0, which settles the sign of an exact zero (log 70). -/
def dotExact (a b : List Num) : Num := (List.zipWith Num.mul a b).foldl (Num.add .rne) (.fin false 0 1)

/-- x of R312 for one element, rounded into a format. -/
def accumulate (f : FFmt) (init : Bool) (t : Num) (old : Nat) : Nat :=
  roundRne f (if init then t else t.add .rne (f.decode old))

/-- Combine the lines of two operands, element by element of a tile in row-major order. -/
def tileMap {α β : Type} (f : α → α → β → Nat) (as bs : List α) (old : List β) : List Nat :=
  (List.zipWith (fun a row => List.zipWith (f a) bs row) as (pieces 128 128 old)).flatten

/-- The stage of a tile step (R312). -/
def stepTile (init : Bool) (k : Nat) (va vb : List Num) (old : List Lane) : List Lane :=
  (tileMap (fun a b (x : Lane) => accumulate F32 init (dotExact a b) x.toNat) (pieces k 128 va) (pieces k 128 vb) old).map
    (BitVec.ofNat 32)

/-! ## Sliced products (R317 to R319) -/

/-- rne of a fraction. -/
def rneInt (n : Int) (d : Nat) : Int := signed (decide (n < 0)) (rint .rne (decide (n < 0)) n.natAbs d)

/-- t signed digits of n / d, the first with multiplier m and the others with 128 (R318). -/
def digits : Nat → Nat → Int → Nat → List Int
  | 0, _, _, _ => []
  | t + 1, m, n, d =>
    let q := rneInt (m * n) d
    q :: digits t 128 (m * n - q * d) d

/-- The exponent of a line, and the digits of each of its values; nothing when a value is not finite (R318, R319). -/
def splitLine (s : Nat) (xs : List Num) : Option (Int × List (List Int)) :=
  if xs.any fun x => match x with
    | .fin _ _ _ => false
    | _ => true
  then none
  else
    let es := xs.filterMap fun x => match x with
      | .fin _ n d => if n = 0 then none else some (floorLog2 n d)
      | _ => none
    let e := es.foldl max (es.headD 0)
    let p := pow2 (-e - 1)
    some (e, xs.map fun x => match x with
      | .fin g n d => digits s 64 (signed g n * p.1) (d * p.2)
      | _ => [])

/-- What digit i of the other operand is multiplied by, for each i: the digits j with i + j < s, weighted so that the lowest
kept digit counts 1 (R319). -/
def weights (s : Nat) (b : List Int) : List Int :=
  (List.range s).map fun i => (b.take (s - i)).foldl (fun x y => 128 * x + y) 0

/-- The passes i + j < s of one product (R319). -/
def passSum (a w : List Int) : Int := (List.zipWith (· * ·) a w).sum

/-- z of R319; b holds weights. -/
def slicedProduct (s : Nat) (a b : Int × List (List Int)) : Num :=
  let n := (List.zipWith passSum a.2 b.2).sum
  .dyadic (decide (n < 0)) n.natAbs (2 - 7 * ((s : Int) + 1) + a.1 + b.1 + 2)

/-- An element of msl (R319). -/
def slicedElement (f : FFmt) (s : Nat) (init : Bool) (a b : Option (Int × List (List Int))) (old : Nat) : Nat :=
  match a, b with
  | some x, some y => accumulate f init (slicedProduct s x y) old
  | _, _ => f.nanOf

/-- The codes that msl commits. -/
def sliceTile (f : FFmt) (s : Nat) (init : Bool) (va vb : List Num) (old : List Nat) : List Nat :=
  tileMap (slicedElement f s init) ((pieces 64 128 va).map (splitLine s))
    ((pieces 64 128 vb).map fun l => (splitLine s l).map fun x => (x.1, x.2.map (weights s))) old

/-! ## Signatures (R313) -/

/-- One byte of CRC-64/ECMA-182. -/
def crc64Byte (c : Word) (b : Byte) : Word :=
  (List.range 8).foldl (fun x _ => if x.msb then (x <<< 1) ^^^ 0x42F0E1EBA9EA3693 else x <<< 1) (c ^^^ (b.zeroExtend 64 <<< 56))

/-- CRC-64/ECMA-182 of bytes. -/
def crc64 (bs : List Byte) : Word := bs.foldl crc64Byte 0

/-- The bytes of a tile, row-major. -/
def tileImage (t : List Lane) : List Byte := t.flatMap fun x => leBytes 4 x.toNat

/-! ## Accumulators (R298 to R300) -/

/-- A tile as an entry reads it: an uncorrectable group is four zeros; with the count of such groups (R300). -/
def HerdCtx.readTile (x : HerdCtx) (n : Nat) : List Lane × Nat :=
  let bad := (x.accErr.filter fun e => e.1 / 4096 == n && e.2 != .single).map fun e => e.1 % 4096
  let t := x.acc.getD n []
  (if bad.isEmpty then t else t.zipIdx.map fun e => if bad.contains (e.2 / 4) then 0 else e.1, bad.eraseDups.length)

/-- Reading a tile corrects its single-bit errors and counts them (R300). -/
def State.noteTile (s : State) (h n : Nat) : State :=
  match s.ctx? h with
  | none => s
  | some x =>
    let one (e : Nat × ErrKind) : Bool := e.1 / 4096 == n && e.2 == .single
    if x.accErr.any one then
      (s.modCtx h fun x => { x with accErr := x.accErr.filter fun e => !one e }).bump (.unit (.matrix h)) 0
        (x.accErr.filter one).length
    else s

/-- Tiles as an entry reads them, and the groups it took as zeros. -/
def State.readTiles (s : State) (h : Nat) (ns : List Nat) : State × List (List Lane) × Nat :=
  let ts := ns.map fun n => ((s.ctx? h).getD .idle).readTile n
  (ns.foldl (fun t n => t.noteTile h n) s, ts.map Prod.fst, (ts.map Prod.snd).sum)

/-- A tile takes a whole new value (R312). -/
def HerdCtx.commit (x : HerdCtx) (n : Nat) (t : List Lane) : HerdCtx :=
  { x with acc := x.acc.set n t, accErr := x.accErr.filter fun e => e.1 / 4096 != n }

/-- Doublewords of an accumulator pair (R299). -/
def pairTiles (lo hi : List Lane) : List Nat := List.zipWith (fun a b => a.toNat + 2 ^ 32 * b.toNat) lo hi

/-! ## The engine's state (R323, R324) -/

/-- The engine fails or retires: a notice goes to each core, and a retirement is recorded (R324, R434, R437). -/
def State.matrixOut (s : State) (h st value : Nat) : State :=
  let t := s.modHerd h fun x => { x with mstate := max x.mstate st }
  (if st = 2 then t.record (h / 16) 2 (((s.ctx? h).map s.qidOf).getD 0xFFF) (.ofNat 64 (4 + 2 ^ 4 * h)) (.ofNat 64 value) 0
    else t).notify h (List.range 8) 2

/-- Whether a herd's matrix engine works. -/
def State.matrixSound (s : State) (h : Nat) : Bool := ((s.herds[h]?).map Herd.mstate) == some 0

/-- A signature mismatch is counted, and the third one retires the engine (R313, R324). -/
def State.katMissed (s : State) (h : Nat) : State :=
  let t := s.bump (.unit (.matrix h)) 1 0
  if (t.counter (.unit (.matrix h))).unc = 3 then t.matrixOut h 2 3 else t

/-! ## Completing (R304, R312 to R316, R322) -/

/-- The first completion action of R304. -/
def Core.popTiles (c : Core) (os : List Operand) : Core := os.foldl (fun x o => x.popRing o.reg o.t) c

/-- Whether a completing entry ends the lease of its core: an mrel, or an entry that has taken longer than it does uncontended (R306,
R307; log 71). -/
def endsLease (e : Entry) (r : Run) (now : Nat) : Bool :=
  match e.word with
  | .mrel _ => true
  | _ => decide (r.started + r.unit < now)

/-- A matrix entry completes (R304, R306, R322). -/
def State.matrixDone (s : State) (h c : Nat) (e : Entry) (r : Run) (bytes : Nat) : State :=
  let t := (s.modCore h c fun x => x.popTiles (operandsOf e)).complete h c .matrix e r.final
    (match r.final with
      | .ok => bytes
      | .eccZeroed | .scalePoison => r.detail 0
      | _ => 0) 0 bytes
  if endsLease e r s.now then t.modCtx h fun x => if x.leases c then { x with lease := none } else x else t

/-- How the 128 rows of mst and mld are reached. -/
def State.blockReach (s : State) (h c : Nat) (user : Bool) (r : Rec) (off e : Nat) (write : Bool) : List Reach :=
  (List.range 128).map fun (k : Nat) => (s.through h c user r (off + k * r.str0) ⟨128 * e, e, write, !write⟩).2

/-- The location of a row that can be reached (log 33). -/
def Reach.row : Reach → Option Nat
  | .at_ _ (.loc l _) => some l
  | _ => none

/-- Locations of the 128 rows of mst and mld; none where a row can no longer be reached (log 33); nothing while the access has
to wait. -/
def State.blockRows (s : State) (h c : Nat) (user : Bool) (r : Rec) (off e : Nat) (write : Bool) : Option (List (Option Nat)) :=
  let rs := s.blockReach h c user r off e write
  if rs.contains .wait then none else some (rs.map Reach.row)

/-- The code that mst writes for an element (R311, R314). -/
def outCode (k : OutKind) (sat : Bool) (x : Nat) : Nat :=
  let copy (f : FFmt) := if sat ∧ f.inf = some (f.magOf x) then f.code (f.negOf x) f.top else x
  match k with
  | .f32 => copy F32
  | .f64 => copy F64
  | .bf16 => roundTo BF16 .rne sat (F32.decode x)
  | .f16 => roundTo F16 .rne sat (F32.decode x)
  | .e4m3 => roundTo E4M3 .rne sat (F32.decode x)
  | .e5m2 => roundTo E5M2 .rne sat (F32.decode x)

/-- mst writes its rows in order (R314). -/
def State.storeTile (s : State) (k : OutKind) (sat : Bool) (xs : List Nat) (rows : List (Option Nat)) : State :=
  ((pieces 128 128 xs).zip rows).foldl (fun t x => match x.2 with
    | some l => t.writeLoc l (x.1.flatMap fun y => leBytes (outKindBytes k) (outCode k sat y))
    | none => t) s

/-- mld reads its rows: the lanes, and the units taken as zeros (R315, R322). -/
def State.loadTile (s : State) (rows : List (Option Nat)) : State × List Lane × List Nat :=
  let u := s.engineUnits ((rows.filterMap id).flatMap fun l => unitsOf l 512).eraseDups
  let t := u.1
  ({ t with fv := t.fv + 1 }, rows.zipIdx.flatMap fun x =>
    (List.range 128).map fun j => match x.1 with
      | some l =>
        .ofNat 32 (leNat ((List.range 4).map fun b =>
          if u.2.contains ((l + 4 * j + b) / 16) then 0 else t.mem.byte (l + 4 * j + b)))
      | none => .truncate 32 (Config.freeWord (t.fv + x.2 * 128 + j)), u.2)

/-- The pieces of an operand tile at its ring's head (R302, R304). -/
def Operand.pieces (o : Operand) (c : Core) : List Piece := o.q.pieces (streamOf (c.gq o.reg)).head.toNat o.t

/-- The values of the operand tiles that a run of a core holds. -/
def Run.tiles (r : Run) (c : Core) (e : Entry) : List (List Num) :=
  ((operandsOf e).zip r.kept).map fun x => x.1.q.values (x.1.pieces c) x.2

/-- What the scale words of the operand tiles give: poisoned blocks, and counts (R285). -/
def State.tileScales (s : State) (h : Nat) (c : Core) (e : Entry) (r : Run) : State × Run :=
  ((operandsOf e).zip r.kept).foldl (fun y x =>
    let n := x.1.q.scaleErrors (x.1.pieces c) x.2
    (y.1.noteScales h (n.1, n.2.1), { y.2 with poisoned := y.2.poisoned + n.2.2 })) (s, r)

/-- A tile step commits, as mmul and mkat do (R312). -/
def State.doStep (s : State) (h : Nat) (c : Core) (e : Entry) (r : Run) (n : Nat) (init : Bool) : State × Run :=
  let x := s.tileScales h c e r
  let y := x.1.readTiles h (if init then [] else [n])
  let k := (wordK e.word (streamOf e.img1) (streamOf e.img2)).getD 0
  let old := if init then .replicate 16384 0 else y.2.1.headD []
  let v := r.tiles c e
  (y.1.modCtx h fun z => z.commit n (stepTile init k (v.getD 0 []) (v.getD 1 []) old), { x.2 with units := x.2.units + y.2.2 })

/-- msl commits its tile or pair (R319). -/
def State.doSlices (s : State) (h : Nat) (c : Core) (e : Entry) (r : Run) (n sl : Nat) (init : Bool) : State × Run :=
  let ep := (streamOf e.img1).code == 0x1D
  let y := s.readTiles h (if init then [] else if ep then [n, n + 1] else [n])
  let zero : List Lane := .replicate 16384 0
  let lo := if init then zero else y.2.1.headD []
  let hi := if init ∨ !ep then zero else y.2.1.getD 1 []
  let v := r.tiles c e
  let xs := sliceTile (if ep then F64 else F32) sl init (v.getD 0 []) (v.getD 1 []) (pairTiles lo hi)
  (y.1.modCtx h fun z =>
    let z' := z.commit n (xs.map (BitVec.ofNat 32))
    if ep then z'.commit (n + 1) (xs.map fun x => BitVec.ofNat 32 (x / 2 ^ 32)) else z',
    { r with units := r.units + y.2.2 })

/-- The signature check of mkat (R313). -/
def State.checkKat (s : State) (h n : Nat) (crc : BitVec 64) (r : Run) : State × Run :=
  if crc64 (tileImage (((s.ctx? h).getD .idle).acc.getD n [])) = crc then (s, r)
  else (s.katMissed h, { r with status := r.status.worse .katMismatch })

/-- A matrix entry performs its operation and completes, unless an access of its has to wait (R414). -/
def State.endMatrix (s : State) (h c : Nat) (e : Entry) (r : Run) : State :=
  let y := (s.core? h c).getD .idle
  if !s.matrixSound h ∨ r.status = .replayLost then
    s.matrixDone h c e { r with status := .replayLost } (match e.word with
      | .mst _ _ _ k _ _ => 16384 * outKindBytes k
      | _ => 0)
  else match e.word with
    | .mmul _ n _ _ init =>
      let x := s.doStep h y e r n.toNat init
      x.1.matrixDone h c e x.2 0
    | .mkat _ n _ _ init crc =>
      let x := s.doStep h y e r n.toNat init
      let z := x.1.checkKat h n.toNat crc x.2
      z.1.matrixDone h c e z.2 0
    | .msl _ n _ _ init sl =>
      let x := s.doSlices h y e r n.toNat (sl.toNat + 1) init
      x.1.matrixDone h c e x.2 0
    | .mst _ n _ k sat off =>
      match s.blockRows h c e.user (recOf e.img1) off.toNat (outKindBytes k) true with
      | none => s
      | some rows =>
        let t := s.readTiles h (if k = .f64 then [n.toNat, n.toNat + 1] else [n.toNat])
        let lo := t.2.1.headD []
        let xs := if k = .f64 then pairTiles lo (t.2.1.getD 1 []) else lo.map BitVec.toNat
        (t.1.storeTile k sat xs rows).matrixDone h c e { r with units := r.units + t.2.2 } (16384 * outKindBytes k)
    | .mld _ n _ off =>
      match s.blockRows h c e.user (recOf e.img1) off.toNat 4 false with
      | none => s
      | some rows =>
        let x := s.loadTile rows
        (x.1.modCtx h fun z => z.commit n.toNat x.2.1).matrixDone h c e (r.lose x.2.2) 0
    | .mzero _ n => (s.modCtx h fun z => z.commit n.toNat (.replicate 16384 0)).matrixDone h c e r 0
    | _ => s.matrixDone h c e r 0

/-- A thermal emergency stops a Running matrix entry: the accumulators stand, the destination of an mst is undefined (R322). Rows that a
spill still covers become undefined with its end (R414). -/
def State.stopMatrix (s : State) (h c : Nat) (e : Entry) (r : Run) (st : EStatus) : State :=
  match e.word with
  | .mst _ _ _ k _ off =>
    let n := 128 * outKindBytes k
    let rows := s.blockReach h c e.user (recOf e.img1) off.toNat (outKindBytes k) true
    ((rows.filterMap Reach.row).foldl (fun t l => t.forgetLoc l n) s).matrixDone h c e { r with status := r.status.worse st } (128 * n)
  | _ => s.matrixDone h c e { r with status := r.status.worse st } 0

/-! ## Starting, leases (R304 to R308) -/

/-- Whether every ring of an entry holds its tile (R304). -/
def tilesHeld (c : Core) (e : Entry) : Bool := (operandsOf e).all fun o => decide (o.t ≤ (streamOf (c.gq o.reg)).filled)

def isMrel : Instr → Bool
  | .mrel _ => true
  | _ => false

/-- Whether a core's matrix head is Ready and startable (R304). -/
def State.matrixReady (s : State) (h i : Nat) : Bool :=
  match s.core? h i with
  | none => false
  | some c => match c.head .matrix with
    | none => false
    | some e => e.step == .ready && !c.swapped && c.storesDone e && c.roleFree e && tilesHeld c e && s.engineFree h i .matrix &&
      !s.inEmergency h

/-- Whether the engine runs an entry of a herd's running or spilling context. -/
def State.matrixBusy (s : State) (h : Nat) : Bool :=
  match s.herds[h]? with
  | some x => (x.act.cores ++ (x.old.map HerdCtx.cores).getD []).any fun c => c.runs .matrix
  | none => false

/-- The charge of a word (R307). -/
def chargeOf : Instr → Nat
  | .mmul _ _ _ _ _ => 64
  | .mkat _ _ _ _ _ _ => 72
  | .msl _ _ _ _ _ sl => 32 * (sl.toNat + 1) * (sl.toNat + 2) + 16
  | .mst _ _ _ k _ _ => 64 * outKindBytes k
  | .mld _ _ _ _ => 256
  | .mzero _ _ => 16
  | _ => 1

/-- The ck that an entry takes uncontended: its charge, as its herd's budget stretches it (R307, R442). -/
def State.stretched (s : State) (h : Nat) (e : Entry) : Nat :=
  let b := ((s.dies[h / 16]?).map fun d => d.budgets.getD (h % 16) 15).getD 15
  (16 * chargeOf e.word + b) / (b + 1)

/-- Whether an entry may start under the lease (R306). -/
def State.underLease (s : State) (l : Lease) (e : Entry) : Bool :=
  decide (s.now - l.since + chargeOf e.word ≤ 4096) && decide (l.runs < 16)

/-- Whether a core's head is the next that a lease could be for: mrel needs none (R306). -/
def State.wantsLease (s : State) (h i : Nat) : Bool :=
  s.matrixReady h i && !(((s.core? h i).bind fun c => c.head .matrix).map fun e => isMrel e.word).getD false

/-- LEASE_GRANT (R305). -/
def execLeaseGrant (herd : Nat) (s : State) : Out :=
  .next (match s.ctx? herd with
    | none => s
    | some x =>
      if x.lease.isSome || s.matrixBusy herd then s
      else match nextAfter (x.lastRun.getD 3 7) (s.wantsLease herd) with
        | none => s
        | some i => s.modCtx herd fun x => { x with lease := some ⟨i, s.now, 0, none⟩, lastRun := x.lastRun.set 3 i })

/-- Whether a lease is to end: its holder's next entry would break a limit, or the holder is idle while another core waits
(R306). -/
def State.leaseOver (s : State) (h : Nat) (l : Lease) : Bool :=
  let e := (s.core? h l.core).bind fun c => c.head .matrix
  let others := (List.range 8).any fun i => i != l.core && s.wantsLease h i
  !s.matrixBusy h &&
  match e with
  | none => others
  | some e =>
    if s.matrixReady h l.core then !s.underLease l e
    else others && match l.idle with
      | some ck => decide (64 ≤ s.now - ck)
      | none => false

/-- LEASE_END (R306). -/
def execLeaseEnd (herd : Nat) (s : State) : Out :=
  .next (match (s.ctx? herd).bind HerdCtx.lease with
    | some l => if s.leaseOver herd l then s.modCtx herd fun x => { x with lease := none } else s
    | none => s)

/-- The lease notes since when its holder's head has not been startable (R306). -/
def State.noteLease (s : State) (h : Nat) : State :=
  match (s.ctx? h).bind HerdCtx.lease with
  | none => s
  | some l =>
    let idle := if s.matrixReady h l.core || s.matrixBusy h then none else some (l.idle.getD s.now)
    if idle = l.idle then s else s.modCtx h fun x => { x with lease := some { l with idle := idle } }

/-- Whether an operand of an entry lies in a footprint that is still spilled (R414): the whole ring stands for it, as a tile's scale
words may lie anywhere near. -/
def State.operandsHeld (s : State) (h c : Nat) (e : Entry) : Bool :=
  (operandsOf e).any fun o => s.ringHeld h c o.q 0 o.q.size

/-- The run of an entry that starts: its operand tiles are read from the heads of its rings (R304). -/
def State.readOperands (s : State) (h c : Nat) (x : Core) (e : Entry) : State × Run :=
  (operandsOf e).foldl (fun y o =>
    let d := y.1.tileRead h c o.q (o.pieces x)
    (d.1, { y.2.lose d.2.2 with kept := y.2.kept ++ [d.2.1] })) (s, .fresh (s.stretched h e) s.now)

/-- The matrix engine takes the head of a core: under the lease, or an mrel without one, which completes at once (R306). -/
def State.startMatrix (s : State) (h c : Nat) : State :=
  match s.ctx? h, s.core? h c with
  | some x, some y =>
    match y.head .matrix with
    | none => s
    | some e =>
      if !s.matrixReady h c || s.operandsHeld h c e then s
      else if isMrel e.word && !x.leases c then
        s.matrixDone h c e { Run.fresh 0 s.now with status := if s.matrixSound h then .ok else .replayLost } 0
      else match x.lease with
        | some l =>
          if l.core = c ∧ !s.matrixBusy h ∧ s.underLease l e then
            let d := s.readOperands h c y e
            (d.1.startRun h c .matrix d.2).modCtx h fun z => { z with lease := some { l with runs := l.runs + 1, idle := none } }
          else s
        | none => s
  | _, _ => s

/-! ## Replay (R323) -/

/-- Steps and passes of an entry (R319, R323). -/
def passesOf : Instr → Nat
  | .msl _ _ _ _ _ sl => (sl.toNat + 1) * (sl.toNat + 2) / 2
  | _ => 1

/-- A step or pass of a core's Running entry fails its residue check; `again` says that it was a replay of the same one, as it must be
once each of them has failed. The run counts those that have failed in pos (R323). -/
def State.replay (s : State) (h c : Nat) (again : Bool) : State :=
  match (s.core? h c).bind fun x => (x.head .matrix).bind fun e => (e.run).map fun r => (x, e, r) with
  | some (x, e, r) =>
    if (operandsOf e).isEmpty ∨ r.status = .replayLost then s
    else
      let same := decide (0 < r.tries) && (again || decide (passesOf e.word ≤ r.pos))
      let n := if same then r.tries + 1 else 1
      if 3 ≤ n then (s.matrixOut h 1 0).setRun h c .matrix fun r => { r with status := .replayLost }
      else
        let d := s.readOperands h c x e
        (d.1.bump (.unit (.matrix h)) 0 1).setRun h c .matrix fun r =>
          { r with tries := n, pos := if same then r.pos else r.pos + 1, status := if d.2.kept = r.kept then r.status else .replayLost }
  | none => s

end Sys2Proof.Machine
end

