-- ==== Sys2Proof/Machine/Collect.lean ====
section
/-! DEFINITION. Collectives (spec/14_synchronisation.md R379 to R383). -/

namespace Sys2Proof.Machine

/-! ## What a word names -/

/-- A collective word's operands. -/
structure Coll where
  db    : BitVec 4
  sb    : BitVec 4
  ty    : ElemType
  count : Nat
  scope : Scope
  group : BitVec 8
  deriving DecidableEq, Repr

/-- The operands of a collective word; csync has no buffers. -/
def collOf : Instr → Option Coll
  | .cred _ d s t n _ sc g | .cbcast _ d s t n sc g | .cgath _ d s t n sc g | .cscat _ d s t n sc g =>
    some ⟨d, s, t, n.toNat, sc, g⟩
  | .csync _ sc g => some ⟨0, 0, .s8, 0, sc, g⟩
  | _ => none

/-- The combining operation of cred. -/
def credOp : Instr → Option CollOp
  | .cred _ _ _ _ _ op _ _ => some op
  | _ => none

/-- Bytes of an element. -/
def Coll.e (k : Coll) : Nat := elemWidth k.ty / 8

/-! ## Participants (R381) -/

/-- Whether a herd's running context holds a node of a launch. -/
def State.holdsNode (s : State) (lseq node h : Nat) : Bool :=
  (((s.ctx? h).bind HerdCtx.held).map fun n => n.lseq == lseq && n.node == node).getD false

/-- Whether a herd lies in the instance of a scope around a herd. -/
def inScope (sc : Scope) (h i : Nat) : Bool :=
  match sc with
  | .core | .herd => i == h
  | .die => i / 16 == h / 16
  | .module | .system => true

/-- The participants on this part of a collective that a gang performs around a herd, in their order. -/
def State.participants (s : State) (n : Held) (h : Nat) (sc : Scope) : List (Nat × Nat) :=
  let hs := match sc with
    | .core | .herd => [h]
    | _ => (((s.node? n.lseq n.node).map Node.herds).getD []).filter (inScope sc h)
  hs.flatMap fun i => (List.range 8).map fun c => (i, c)

/-- The port of a collective at scope 4 (R381). -/
def Coll.port (k : Coll) : Bool := k.group.msb

/-- The participants of the abutting part; whether they are numbered before this part's (R381; log 36). -/
def Coll.peers (k : Coll) (n : Held) : Nat := if k.scope = .system then Config.peerCores n.lseq n.node k.port else 0

def Coll.peersFirst (k : Coll) (n : Held) : Bool := k.scope == .system && Config.peerFirst n.lseq n.node k.port

/-- The number of participants (R381). -/
def State.parties (s : State) (n : Held) (h : Nat) (k : Coll) : Nat := (s.participants n h k.scope).length + k.peers n

/-- A participant's number, from its place among this part's. -/
def Coll.numberOf (k : Coll) (n : Held) (q : Nat) : Nat := if k.peersFirst n then k.peers n + q else q

/-- Elements that participant p sends, and receives (R380). -/
def sendCount (i : Instr) (k : Coll) (n p : Nat) : Nat :=
  match i with
  | .cscat _ _ _ _ _ _ _ => if p = 0 then n * k.count else k.count
  | _ => k.count

def recvCount (i : Instr) (k : Coll) (n : Nat) : Nat :=
  match i with
  | .cgath _ _ _ _ _ _ _ => n * k.count
  | _ => k.count

/-! ## Issue (R380) -/

/-- Whether T is allowed (R380). -/
def collTypeOk (i : Instr) (k : Coll) : Bool :=
  [8, 16, 32].contains (elemWidth k.ty) &&
  match credOp i with
  | none => true
  | some op => (isI k.ty || isF k.ty) && (decide (collOpCode op < 3) || isI k.ty)

/-- Bytes of a buffer that a word can touch: all, or those within the extent. -/
def touched (r : Rec) (n : Nat) : Nat := min n r.extent.toNat

/-- How a check of a collective word ends. -/
inductive CollChk where
  | ok
  | trap (t : Cause)
  | wait

/-- The pages of a space-0 buffer translate; a host page that is not granted yet is waited for. -/
def State.pagesChk (s : State) (user : Bool) (a n : Nat) (write : Bool) : State × CollChk :=
  if n = 0 then (s, .ok)
  else (List.range ((a + n - 1) / 4096 - a / 4096 + 1)).foldl (fun x i =>
    match x.2 with
    | .ok =>
      let va := max a ((a / 4096 + i) * 4096)
      match x.1.translate s.cur.1 (s.pasidOf s.cur.1) va ⟨user, write, false⟩ with
      | (t, .kind k) => (t, .trap (.translation k (.ofNat 64 va)))
      | (t, .wait) => (t, .wait)
      | (t, .loc _ _) => (t, .ok)
    | _ => x) (s, .ok)

/-- The checks of one buffer of n bytes (R380). -/
def State.bufferChk (s : State) (c : Core) (r : Rec) (e n : Nat) (write : Bool) : State × CollChk :=
  if !r.ok || decide (3 < pSpace r.base) || ((r.bounds == 0 || r.bounds == 3) && decide (r.extent.toNat < n)) then
    (s, .trap (.bounds false 0))
  else if pAddr r.base % e ≠ 0 then (s, .trap (.misalignment r.base))
  else match s.space s.cur.1 s.cur.2 r.base (touched r n) (!write) with
    | .bad => (s, .trap (.bounds false r.base))
    | .virt a => s.pagesChk (!c.x.priv) a (touched r n) write
    | .place _ => (s, .ok)

/-- The checks of a collective word (R380). -/
def State.collChk (s : State) (c : Core) (i : Instr) : State × CollChk :=
  match collOf i, (s.ctx? s.cur.1).bind HerdCtx.held with
  | some k, some n =>
    if k.count = 0 then (s, .ok)
    else if !collTypeOk i k then (s, .trap (.bounds false 0))
    else
      let total := s.parties n s.cur.1 k
      let p := k.numberOf n ((s.participants n s.cur.1 k.scope).findIdx (· == s.cur))
      match s.bufferChk c (recOf (c.gb k.sb)) k.e (k.e * sendCount i k total p) false with
      | (t, .ok) => t.bufferChk c (recOf (c.gb k.db)) k.e (k.e * recvCount i k total) true
      | x => x
  | _, _ => (s, .ok)

/-- Registers of the bank that a collective word reads; csync has no buffers. -/
def collBank (i : Instr) : List BankReg :=
  match collOf i with
  | some k => if k.count = 0 then [] else [.b k.sb, .b k.db]
  | none => []

/-- The core after a collective word: one more to its group (R381). -/
def Core.counted (g : BitVec 8) (c : Core) : Core := { c with colls := c.colls.modify g.toNat (· + 1) }

/-- A collective word issues. -/
def collWord (i : Instr) (h : EHdr) : State → Out :=
  engineWord .coll i h [] [] (collBank i) (fun s c =>
    let k := collOf i
    match s.collChk c i with
    | (t, .ok) => (t, .ok ⟨(k.map fun k => c.gb k.sb).getD 0, (k.map fun k => c.gb k.db).getD 0, 0, []⟩)
    | (t, .trap e) => (t, .trap e)
    | (t, .wait) => (t, .wait)) (Core.counted ((collGroup i).getD 0))

/-- cred (R382). -/
def execCred (h : EHdr) (db sb : BitVec 4) (ty : ElemType) (count : BitVec 32) (op : CollOp) (scope : Scope)
    (group : BitVec 8) : State → Out := collWord (.cred h db sb ty count op scope group) h

/-- cbcast (R382). -/
def execCbcast (h : EHdr) (db sb : BitVec 4) (ty : ElemType) (count : BitVec 32) (scope : Scope) (group : BitVec 8) :
    State → Out := collWord (.cbcast h db sb ty count scope group) h

/-- cgath (R382). -/
def execCgath (h : EHdr) (db sb : BitVec 4) (ty : ElemType) (count : BitVec 32) (scope : Scope) (group : BitVec 8) :
    State → Out := collWord (.cgath h db sb ty count scope group) h

/-- cscat (R382). -/
def execCscat (h : EHdr) (db sb : BitVec 4) (ty : ElemType) (count : BitVec 32) (scope : Scope) (group : BitVec 8) :
    State → Out := collWord (.cscat h db sb ty count scope group) h

/-- csync (R382). -/
def execCsync (h : EHdr) (scope : Scope) (group : BitVec 8) : State → Out := collWord (.csync h scope group) h

/-! ## Combining (R382) -/

/-- The identity of a combining operation (R206). -/
def credIdentity (t : ElemType) : CollOp → Nat
  | .sum => if isF t then (ffmt t).code true 0 else 0
  | .max => if isF t then (ffmt t).infOf true false else fit t false (intMin t)
  | .min => if isF t then (ffmt t).infOf false false else fit t false (intMax t)
  | .and => 2 ^ elemWidth t - 1
  | .or | .xor => 0

/-- A combining operation on elements (R197, R382). -/
def credStep (t : ElemType) (op : CollOp) (a b : Nat) : Nat :=
  let m : VMode := ⟨t, .rne, false⟩
  match op with
  | .sum => eAdd m a b
  | .min => eMin m a b
  | .max => eMax m a b
  | .and => Nat.land a b
  | .or => Nat.lor a b
  | .xor => Nat.xor a b

/-- The levels of the tree over n leaves. -/
def credTree (f : Nat → Nat → Nat) : Nat → List Nat → Nat
  | 0, xs => xs.headD 0
  | k + 1, xs => credTree f k ((pieces 2 (xs.length / 2) xs).map fun p => f (p.headD 0) (p.getD 1 0))

/-- The combination of every participant's element: a fixed tree, padded to a power of two (R382). -/
def credAll (t : ElemType) (op : CollOp) (xs : List Nat) : Nat :=
  let k := Nat.log2 (2 * xs.length - 1)
  credTree (credStep t op) k (xs ++ List.replicate (2 ^ k - xs.length) (credIdentity t op))

/-- The result of cred from the participants' send bytes. -/
def credBytes (k : Coll) (op : CollOp) (sends : List (List Byte)) : List Byte :=
  let es := sends.map (codesOf (elemWidth k.ty))
  (List.range k.count).flatMap fun i => leBytes k.e (credAll k.ty op (es.map fun x => x.getD i 0))

/-- The results of the two parts' trees combined by one further op; a part without participants has no result (R382). -/
def credBoth (k : Coll) (op : CollOp) (own peer : List (List Byte)) : List Byte :=
  match own, peer with
  | xs, [] => credBytes k op xs
  | [], ys => credBytes k op ys
  | xs, ys =>
    let w := elemWidth k.ty
    ((codesOf w (credBytes k op xs)).zip (codesOf w (credBytes k op ys))).flatMap fun x =>
      leBytes k.e (credStep k.ty op x.1 x.2)

/-! ## Buffers -/

/-- What an access of a buffer's elements has met: the bytes, the units lost, and how it stands. -/
structure BufAcc where
  bytes : List Byte
  lost  : List Nat
  fail  : Bool
  wait  : Bool

/-- Read n elements through a record. -/
def State.readBuffer (s : State) (h c : Nat) (user : Bool) (r : Rec) (e n : Nat) : State × BufAcc :=
  (List.range n).foldl (fun x i =>
    if x.2.fail || x.2.wait then x
    else match x.1.through h c user r (e * i : Nat) ⟨e, e, false, true⟩ with
      | (t, .at_ _ (.loc l _)) =>
        let u := t.engineUnits (unitsOf l e)
        (u.1, { x.2 with
          bytes := x.2.bytes ++ (if u.2.isEmpty then u.1.mem.read l e else .replicate e 0)
          lost := x.2.lost ++ u.2.filter fun y => !x.2.lost.contains y })
      | (t, .none_ _) => (t, { x.2 with bytes := x.2.bytes ++ .replicate e 0 })
      | (t, .wait) => (t, { x.2 with wait := true })
      | (t, _) => (t, { x.2 with fail := true })) (s, ⟨[], [], false, false⟩)

/-- Locations of the elements of a receive buffer: nothing where an element is discarded or fails. -/
structure RecvAcc where
  locs : List (Option Nat)
  fail : Bool
  wait : Bool

/-- Locations of n elements of a receive buffer; an element that fails does not keep the others from theirs (R383). -/
def State.recvLocs (s : State) (h c : Nat) (user : Bool) (r : Rec) (e n : Nat) : State × RecvAcc :=
  (List.range n).foldl (fun x i =>
    if x.2.wait then x
    else match x.1.through h c user r (e * i : Nat) ⟨e, e, true, false⟩ with
      | (t, .at_ _ (.loc l _)) => (t, { x.2 with locs := x.2.locs ++ [some l] })
      | (t, .none_ _) => (t, { x.2 with locs := x.2.locs ++ [none] })
      | (t, .wait) => (t, { x.2 with wait := true })
      | (t, _) => (t, { x.2 with locs := x.2.locs ++ [none], fail := true })) (s, ⟨[], false, false⟩)

/-- The protected units that n elements of e bytes cover in part only (R223, R233). -/
def partUnits (e : Nat) (ls : List Nat) : List Nat :=
  let bs := (ls.flatMap fun l => (List.range e).map (l + ·)).eraseDups
  (bs.map unitOf).eraseDups.filter fun u =>
    decide ((bs.filter fun b => unitOf b == u).length < if isScratch (16 * u) then 16 else 64)

/-! ## Starting (R381) -/

/-- A participant's Ready head that matches a group, a scope and a number (R381). -/
def State.collHead (s : State) (n : Held) (k : Coll) (num : Nat) (p : Nat × Nat) : Option Entry :=
  if !s.holdsNode n.lseq n.node p.1 then none
  else (s.core? p.1 p.2).bind fun c => (c.head .coll).bind fun e =>
    match collOf e.word with
    | some j =>
      if e.step == .ready && !c.swapped && c.storesDone e && s.engineFree p.1 p.2 .coll && !s.inEmergency p.1 &&
        j.group == k.group && j.scope == k.scope && e.num == num
      then some e else none
    | none => none

/-- The send bytes that a collective needs: every participant's, or the root's alone (R382). -/
def rootOnly : Instr → Bool
  | .cbcast _ _ _ _ _ _ _ | .cscat _ _ _ _ _ _ _ => true
  | _ => false

/-- Read what the participants of this part send, n in all. -/
def State.readSends (s : State) (i : Instr) (n : Nat) : List ((Nat × Nat) × Entry × Nat) → State × List BufAcc
  | [] => (s, [])
  | (p, e, q) :: r =>
    match collOf e.word with
    | none => (s, [])
    | some k =>
      let m := if rootOnly i && q != 0 then 0 else sendCount e.word k n q
      let x := s.readBuffer p.1 p.2 e.user (recOf e.img1) k.e m
      let y := x.1.readSends i n r
      (y.1, x.2 :: y.2)

/-- What the abutting part's participants send: free bytes (log 36). -/
def peerSends (i : Instr) (k : Coll) (n peers base seed : Nat) : List (List Byte) :=
  (List.range peers).map fun q =>
    let m := if rootOnly i && base + q != 0 then 0 else sendCount i k n (base + q)
    (List.range (k.e * m)).map fun b => Config.freeByte seed (2 ^ 48 * q + b)

/-- What participant p is to receive, from what this part's and the abutting part's participants send (R382). -/
def received (i : Instr) (k : Coll) (p : Nat) (own peer : List (List Byte)) (first : Bool) : List Byte :=
  let all := if first then peer ++ own else own ++ peer
  match i with
  | .cred _ _ _ _ _ op _ _ => credBoth k op own peer
  | .cbcast _ _ _ _ _ _ _ => all.headD []
  | .cgath _ _ _ _ _ _ _ => all.flatten
  | .cscat _ _ _ _ _ _ _ => ((all.headD []).drop (k.e * k.count * p)).take (k.e * k.count)
  | _ => []

/-- Whether the participants' words agree but for their headers and buffers; where they do not, what they receive is free
(log 36). -/
def agree (a b : Instr) : Bool :=
  let f (i : Instr) := (collOf i).map fun k => (k.ty, k.count)
  let o (i : Instr) : Nat := match i with
    | .cred _ _ _ _ _ op _ _ => collOpCode op
    | .cbcast _ _ _ _ _ _ _ => 8
    | .cgath _ _ _ _ _ _ _ => 9
    | .cscat _ _ _ _ _ _ _ => 10
    | _ => 11
  f a == f b && o a == o b

/-- The status that reading gives every participant (R383). -/
def readStatus (xs : List BufAcc) (down : Bool) : EStatus :=
  if down then .peerDown
  else if xs.any BufAcc.fail then .translation
  else if xs.any fun x => !x.lost.isEmpty then .eccZeroed
  else .ok

/-- The collective at a core's head starts at every participant (R381). A run's `unit` holds how many participants there are, and
`pos` is 1 once its receive buffer has its new contents. -/
def State.startColl (s : State) (h c : Nat) : State :=
  match (s.core? h c).bind (fun x => (x.head .coll).bind fun e => (collOf e.word).map fun k => (e, k)),
      (s.ctx? h).bind HerdCtx.held with
  | some (e, k), some n =>
    let ps := s.participants n h k.scope
    let es := ps.map (s.collHead n k e.num)
    if es.isEmpty || es.any Option.isNone then s
    else
      let total := s.parties n h k
      let xs := (ps.zip (es.filterMap id)).zipIdx.map fun x => (x.1.1, x.1.2, k.numberOf n x.2)
      let y := s.readSends e.word total xs
      if y.2.any BufAcc.wait then y.1
      else
        let down := k.scope == .system && !y.1.ports.getD k.port.toNat false
        let st := readStatus y.2 down
        let lost := (y.2.map fun b => b.lost.length).sum
        let same := xs.all fun x => agree e.word x.2.1.word
        let own := y.2.map BufAcc.bytes
        let first := k.peersFirst n
        let peer := peerSends e.word k total (k.peers n) (if first then 0 else ps.length) y.1.fv
        let t := { y.1 with
          fv := y.1.fv + 1
          collSent := y.1.collSent ++
            if k.scope = .system ∧ ¬ down then [⟨k.port, k.group, n.lseq, n.node, own⟩] else [] }
        xs.foldl (fun u x => u.startRun x.1.1 x.1.2 .coll { Run.fresh total s.now with
          status := if st = .eccZeroed then .ok else st
          units := if st = .eccZeroed then lost else 0
          kept := if st = .ok ∧ same then [received e.word k x.2.2 own peer first] else [] }) t
  | _, _ => s

/-! ## Completing (R382, R383) -/

/-- A receive buffer's elements become undefined. -/
def State.forgetRecv (s : State) (e : Nat) (ls : List (Option Nat)) : State :=
  (ls.filterMap id).foldl (fun t l => t.forgetLoc l e) s

/-- The elements of a receive buffer take their new contents. -/
def State.putRecv (s : State) (e : Nat) (ls : List (Option Nat)) (bs : List Byte) : State :=
  ((pieces e ls.length bs).zip ls).foldl (fun t y =>
    match y.2 with
    | some l => t.writeLoc l y.1
    | none => t) s

/-- A participant's receive buffer takes its new contents, or becomes undefined (R382, R383). One that waits stays as it was. -/
def State.receive (s : State) (h c : Nat) (e : Entry) (k : Coll) (r : Run) : State :=
  let x := s.recvLocs h c e.user (recOf e.img2) k.e (if k.count = 0 then 0 else recvCount e.word k r.unit)
  if x.2.wait then x.1
  else
    let u := if r.final = .ok then x.1.engineUnits (partUnits k.e (x.2.locs.filterMap id)) else (x.1, [])
    let z := (if x.2.fail then { r with status := r.status.worse .translation } else r).lose u.2
    let t := match decide (z.final = .ok), r.kept with
      | true, [bs] => u.1.putRecv k.e x.2.locs bs
      | _, _ => u.1.forgetRecv k.e x.2.locs
    t.setRun h c .coll fun _ => { z with pos := 1, bytes := if z.final = .ok then k.e * x.2.locs.length else 0 }

/-- The Running head of a core that matches an entry of a gang around a herd (R381). -/
def State.matching (s : State) (n : Held) (h : Nat) (k : Coll) (num : Nat) (i c : Nat) : Option (Entry × Coll × Run) :=
  if s.holdsNode n.lseq n.node i && inScope k.scope h i then
    (s.core? i c).bind fun x => (x.head .coll).bind fun e => (collOf e.word).bind fun j => e.run.bind fun r =>
      if j.group == k.group && j.scope == k.scope && e.num == num then some (e, j, r) else none
  else none

/-- Every participant's receive buffer takes its new contents: a completion acquires them all (R382). -/
def State.deliverAll (s : State) (n : Held) (h : Nat) (k : Coll) (num : Nat) : State :=
  (List.range s.herds.length).foldl (fun t i => t.inBoth i fun u => (List.range 8).foldl (fun v c =>
    match v.matching n h k num i c with
    | some (e, j, r) => if r.pos = 0 then v.receive i c e j r else v
    | none => v) u) s

/-- Whether some participant's receive buffer still lacks its new contents. -/
def State.undelivered (s : State) (n : Held) (h : Nat) (k : Coll) (num : Nat) : Bool :=
  (List.range s.herds.length).any fun i => [s, s.modHerd i Herd.exchange].any fun t => (List.range 8).any fun c =>
    ((t.matching n h k num i c).map fun x => x.2.2.pos == 0).getD false

/-- A Running collective entry ends, once every participant's receive buffer has its new contents (R382, R383). -/
def State.endColl (s : State) (h c : Nat) (e : Entry) : State :=
  match collOf e.word, (s.ctx? h).bind HerdCtx.held with
  | some k, some n =>
    let t := s.deliverAll n h k e.num
    match ((t.core? h c).bind fun x => x.head .coll).bind Entry.run with
    | some r =>
      if t.undelivered n h k e.num then t else t.complete h c .coll e r.final (r.detail r.bytes) 0 0
    | none => t
  | _, _ => s

/-- A Running collective entry stops (R383): its receive buffer is undefined. -/
def State.stopColl (s : State) (h c : Nat) (e : Entry) (r : Run) (st : EStatus) : State :=
  match collOf e.word with
  | none => s
  | some k =>
    let x := s.recvLocs h c e.user (recOf e.img2) k.e (if k.count = 0 then 0 else recvCount e.word k r.unit)
    (x.1.forgetRecv k.e x.2.locs).complete h c .coll e (r.status.worse st) 0 0 0

/-- QRESET stops the gang behind a peer port: collectives at scope 4 that have not started complete with queue_reset (R383). -/
def State.peerReset (s : State) (port : Bool) : State :=
  (List.range s.herds.length).foldl (fun t h => (List.range 8).foldl (fun u c =>
    match (u.core? h c).bind fun x => x.head .coll with
    | some e => match collOf e.word with
      | some k =>
        if k.scope == .system && k.port == port && e.step == .ready then u.complete h c .coll e .queueReset 0 0 0 else u
      | none => u
    | none => u) t) s

/-- COLLECTIVE_START (R381). -/
def execCollectiveStart (herd core : Nat) (s : State) : Out :=
  s.onCore herd core fun _ => .next (s.startColl herd core)

end Sys2Proof.Machine
end

