-- ==== Sys2Proof/Machine/Pages.lean ====
section
/-! DEFINITION. TLB invalidation and walks, free-page lists, pgdec, the carving of die scratchpad, parity updates and rebuilds
(spec/09_memory_spaces.md R227, R230, R233, R234, R242 to R246). -/

namespace Sys2Proof.Machine

/-! ## TLBs (R242, R243) -/

/-- A core issues a tlbinv or tlbinvall and stops until it is done (R243). -/
def State.startInv (s : State) (c : Core) (pasid : Option (BitVec 20)) (va : Option Nat) : State :=
  s.fin { c with block := some (.tlbinv pasid va) }

/-- tlbinv (R243). -/
def execTlbinv (rs1 : BitVec 5) (s : State) : Out :=
  s.privileged (.tlbinv rs1) fun c =>
    .next (if c.free [rs1] [] then s.startInv c (some (s.pasidOf s.cur.1)) (some (pAddr (c.gs rs1))) else s)

/-- tlbinvall (R243). -/
def execTlbinvall (rs1 : BitVec 5) (s : State) : Out :=
  s.privileged (.tlbinvall rs1) fun c =>
    .next (if c.free [rs1] [] then
      s.startInv c (if (c.gs rs1).getLsbD 0 then none else some (s.pasidOf s.cur.1)) none else s)

/-- Whether a store-queue entry went through a translation. -/
def SqEntry.translated (e : SqEntry) : Bool :=
  match e.op.range with
  | some (l, _) => isDram l || isHost l
  | none => false

/-- Whether every access that translated has performed (R243; log 27). -/
def State.translatedDone (s : State) : Bool :=
  s.herds.all fun h => h.act.cores.all (fun c => c.sq.all fun e => !e.translated) &&
    (h.old.map fun o => o.cores.all fun c => c.sq.all fun e => !e.translated).getD true

def Core.invalidates (c : Core) : Bool :=
  match c.block with
  | some (.tlbinv _ _) => true
  | _ => false

/-- The end of an invalidation: what it names is dropped everywhere, the words that cores wait in reach their objects anew, and the core
resumes (R243). -/
def State.finishInv (s : State) (h c : Nat) : State :=
  match s.core? h c with
  | some x =>
    match x.block with
    | some (.tlbinv p va) =>
      if s.translatedDone then
        (s.dropTlb p va).retraceAll.modCore h c fun y => { y with block := none, issueAt := s.now + 1 }
      else s
    | _ => s
  | none => s

/-- TLB_INVALIDATION_COMPLETE (R243). -/
def execTlbInvalidationComplete (herd core : Nat) (s : State) : Out :=
  s.onCore herd core fun _ =>
    .next (s.either herd core Core.invalidates fun t => t.finishInv herd core)

/-- TLB_MISS_WALK (R242): a second-level TLB serves a miss. -/
def execTlbMissWalk (die : Nat) (pasid : BitVec 20) (va : Nat) (s : State) : Out :=
  if s.dies.length ≤ die then .fault .noSuchUnit else .next (s.serveMiss die pasid va).1

/-! ## Free-page lists (R244, R245) -/

/-- The physical die, well and offset of a device physical address (R237). -/
def paDie (a : Nat) : Nat := a / 2 ^ 37 % 8
def paWell (a : Nat) : Nat := a / 2 ^ 27 % 1024

/-- The frames of a list. -/
def Die.frames (d : Die) (well sz : Nat) : List Nat :=
  ((d.free.find? fun l => l.well == well && l.sz == sz).map FreeList.frames).getD []

/-- Replace the frames of a list; an empty list is not kept. -/
def Die.setFrames (d : Die) (well sz : Nat) (fs : List Nat) : Die :=
  let rest := d.free.filter fun l => !(l.well == well && l.sz == sz)
  { d with free := if fs.isEmpty then rest else ⟨well, sz, fs⟩ :: rest }

/-- Whether a frame may be pushed: its size code, its alignment, and one well that holds all of it (R245). -/
def frameOk (frame sz : Nat) : Bool :=
  decide (sz ≤ 8) &&
  match pageSize sz with
  | some n => decide (frame % n = 0 ∧ frame % 2 ^ 27 + n ≤ 2 ^ 27 ∧ frame + n ≤ Config.dramBytes)
  | none => false

/-- A push: the link goes into the frame's first doubleword, and the frame on top of its well's list (R244). -/
def State.pushFrame (s : State) (frame sz : Nat) : Option State :=
  if frameOk frame sz then
    let d := s.logDie (paDie frame)
    let w := paWell frame
    let old := ((s.dies[d]?).map fun x => x.frames w sz).getD []
    let link := match old with
      | top :: _ => top / 4096 * 4096 + 1
      | [] => 0
    some ((s.writeLoc frame (leBytes 8 link)).modDie d fun x => x.setFrames w sz (frame :: old))
  else none

/-- The well that a pop takes from (R245). -/
def Die.popWell (d : Die) (well sz : Nat) (any : Bool) : Option Nat :=
  if any then (List.range 1024).find? fun w => !(d.frames w sz).isEmpty else some well

/-- A pop: the frame on top of the list. -/
def State.popFrame (s : State) (die well sz : Nat) (any : Bool) : Option (State × Nat) :=
  (s.dies[die]?).bind fun d =>
    if 8 < sz then none
    else (d.popWell well sz any).bind fun w =>
      match d.frames w sz with
      | f :: r => some (s.modDie die fun x => x.setFrames w sz r, f)
      | [] => none

/-- xfres (R245). -/
def xfresWord (ok : Bool) (frame : Nat) : Word := .ofNat 64 (ok.toNat + frame / 4096 % 2 ^ 28 * 4096)

/-- The operation of xfreq that a core has under way, as pop or push, completes; the result lands in xfres (R245). -/
def State.freeOp (s : State) (h c : Nat) (push : Bool) : State :=
  match (s.core? h c).bind Core.freeReq with
  | none => s
  | some r =>
    if r.push ≠ push then s
    else
      let fin (t : State) (v : Word) : State := t.modCore h c fun x =>
        { x with freeReq := none, x := { x.x with xfres := v } }
      if push then
        match s.pushFrame (r.frame * 4096) r.sz with
        | some t => fin t (xfresWord true (r.frame * 4096))
        | none => fin s (xfresWord false (r.frame * 4096))
      else match s.popFrame r.die r.well r.sz r.any with
        | some (t, f) => fin t (xfresWord true f)
        | none => fin s (xfresWord false 0)

def Core.hasFreeReq (c : Core) : Bool := c.freeReq.isSome

/-- FREE_PAGE_POP (R245). -/
def execFreePagePop (herd core : Nat) (s : State) : Out :=
  s.onCore herd core fun _ => .next (s.either herd core Core.hasFreeReq fun t => t.freeOp herd core false)

/-- FREE_PAGE_PUSH (R245). -/
def execFreePagePush (herd core : Nat) (s : State) : Out :=
  s.onCore herd core fun _ => .next (s.either herd core Core.hasFreeReq fun t => t.freeOp herd core true)

/-! ## pgdec (R246) -/

/-- Every earlier access of a core has performed. -/
def Core.quietAccess (c : Core) : Bool := c.sq.isEmpty && c.aqDone && c.vlands.isEmpty

/-- The decrement of the home at a location, and the push of a frame whose count reaches zero (R246). -/
def State.decrement (s : State) (l : Nat) (home : PageDesc) : State :=
  let n := PD.count home - 1
  let t := s.writeLoc (l + 8) (leBytes 8 (home.dw1.toNat - 1))
  if n = 0 then (t.pushFrame (PD.frame home) (PD.sz home)).getD t else t

/-- pgdec (R246). -/
def execPgdec (b : BitVec 4) (rs2 : BitVec 5) (s : State) : Out :=
  s.onMy fun c =>
    if !(c.quietAccess && c.free [rs2] [] && c.here [.b b]) then .next s
    else
      match s.through s.cur.1 s.cur.2 (!c.x.priv) (recOf (c.gb b)) (c.gs rs2).toInt ⟨16, 16, false, true⟩ with
      | (t, .fail e) => t.trap e
      | (t, .wait) => .next t
      | (t, .none_ p) => t.trap (.translation 5 p)
      | (t, .at_ p (.peer _ _)) => t.trap (.bounds false p)
      | (t, .at_ p (.loc l _)) =>
        match t.readUnits false (unitsOf l 16) with
        | (u, _ :: _) => u.trap (.reconstruction 1 p)
        | (u, []) =>
          let d := u.descAt l
          if !PD.cow d || PD.h d || decide (8 < PD.sz d) then u.trap (.translation 5 p)
          else
            let hl := if PD.alias_ d then PD.home d else l
            let home := u.descAt hl
            let w := if PD.alias_ d then u.linesSeen [hl] else u
            if PD.alias_ home || !PD.cow home then w.trap (.translation 5 p)
            else if PD.count home = 0 then w.trap (.translation 7 p)
            else .next ((w.decrement hl home).fin c)

/-! ## Die scratchpad (R233, R234) -/

/-- A change of ways begins: values above 8 act as 8 (R233, R234). -/
def State.startDsp (s : State) (die set : Nat) (asker : Option (Nat × Nat)) : State :=
  s.modDie die fun d => { d with waysSet := set, change := some ⟨min set 8, asker⟩ }

/-- XDSP_WRITE (R234): the write of a core reaches its die once no other change is in progress. A write that changes nothing
ends at once. -/
def State.xdspStart (s : State) (h c : Nat) : State :=
  match (s.core? h c).bind Core.block, s.dies[h / 16]? with
  | some (.xdsp n false), some d =>
    if d.change.isSome then s
    else if d.ways = min n 8 then
      (s.modDie (h / 16) fun e => { e with waysSet := n }).modCore h c fun x => { x with block := none, issueAt := s.now + 1 }
    else (s.startDsp (h / 16) n (some (h, c))).modCore h c fun x => { x with block := some (.xdsp n true) }
  | _, _ => s

def Core.inXdsp (c : Core) : Bool :=
  match c.block with
  | some (.xdsp _ _) => true
  | _ => false

def execXdspWrite (herd core : Nat) (s : State) : Out :=
  s.onCore herd core fun _ => .next (s.either herd core Core.inXdsp fun t => t.xdspStart herd core)

/-- The bytes of a die scratchpad from one size to another read as zero, and hold no error. -/
def State.clearDsp (s : State) (die lo hi : Nat) : State :=
  let p := s.physDie die
  let a := dspLoc p (2 ^ 25 * lo)
  let b := dspLoc p (2 ^ 25 * hi)
  { s with mem := s.mem.clear a b, marks := s.marks.filter fun e => !decide (a ≤ e.row * 16 ∧ e.row * 16 < b) }

/-- The end of a change (R234): an added range reads as zero, a removed one is discarded, and the core that asked goes on.
Dirty lines for which the uncarved ways have no room are written back (R17); which others were is the part's choice (log 5). -/
def State.finishDsp (s : State) (die : Nat) : State :=
  match s.dies[die]? with
  | some d =>
    match d.change with
    | some w =>
      let t := ((s.clearDsp die (min d.ways w.target) (max d.ways w.target)).modDie die fun x =>
        { x with ways := w.target, change := none }).trimLlc (s.physDie die)
      match w.asker with
      | some (h, c) => t.either h c Core.inXdsp fun u =>
        u.modCore h c fun x => if x.inXdsp then { x with block := none, issueAt := s.now + 1 } else x
      | none => t
    | none => s
  | none => s

/-! ## Parity (R227, R230) -/

/-- PARITY_UPDATE (R227): the parity row is written and the stale mark clears. The row is read for it, which corrects a
single-bit error (R229). -/
def execParityUpdate (herd core group row : Nat) (s : State) : Out :=
  s.onCore herd core fun _ =>
    .next ((if ((s.herds[herd]?).bind fun x => x.phys[core]?).any fun p => p.stale.contains (group, row) then
        (s.parityRead herd core group row).1 else s).modHerd herd fun h => { h with phys := h.phys.modify core fun p =>
      { p with stale := p.stale.filter (· != (group, row)) } })

/-- The rows of a bank are rebuilt from the other banks of its group (R230): an error of the bank itself goes, and a row whose
parity row or mate is in error is lost. -/
def State.rebuildRows (s : State) (h c bank : Nat) (p : CorePhys) : State :=
  let mine := s.marks.filter fun e => isScratch (e.row * 16) && e.row / 2 ^ 16 == (scratchLoc h c 0) / 2 ^ 20 &&
    (p.position ((e.row * 16 - 2 ^ 42) % 2 ^ 20)).1 == bank
  let lost := (p.perrs.filter fun e => e.1.1 == bank / 4 && e.2 == .double).flatMap fun e =>
    (p.addresses bank e.1.2).map fun a => scratchLoc h c a / 16
  { s with marks := lost.map (fun (r : Nat) => ⟨r, .double, 0⟩) ++
      s.marks.filter fun e => !lost.contains e.row && (!mine.contains e || s.mateBad p e.row) }

/-- BANK_REBUILD (R230): the parity bank stands in for the retired bank, and the group is degraded. -/
def execBankRebuild (herd core bank : Nat) (s : State) : Out :=
  s.onCore herd core fun _ =>
    .next (match (s.herds[herd]?).bind fun x => x.phys[core]? with
      | some p =>
        if ((p.groups[bank / 4]?).map Group.rebuild) = some (some bank) then
          (s.rebuildRows herd core bank p).modHerd herd fun h => { h with phys := h.phys.modify core fun q =>
            { q with
              perrs := q.perrs.filter fun e => e.1.1 != bank / 4
              groups := q.groups.modify (bank / 4) fun g => { g with rebuild := none, degraded := true } } }
        else s
      | none => s)

end Sys2Proof.Machine
end

