-- ==== Sys2Proof/Machine/Host.lean ====
section
/-! DEFINITION. The host port and the peer ports (spec/03_launching.md R45 to R53; spec/09_memory_spaces.md R219;
spec/14_synchronisation.md R384 to R387). -/

namespace Sys2Proof.Machine

/-! ## Control space (R49 to R51) -/

/-- An access that the control space ignores and logs (R434 kind 8). The event has no die of its own, and its time stamp names
die 0 (log 50). -/
def State.logIgnored (s : State) (off : Nat) : State := s.record 0 8 0xFFF 0 (.ofNat 64 off) 0

/-- A queue's tail register is written (R51, R53). A tail of no queue is ignored and logged; one too far beyond the head stops
the queue. A queue that comes to need a slot starts to wait for one (R65). -/
def State.writeTail (s : State) (qid : Nat) (v : BitVec 32) : State :=
  match s.queue? qid with
  | none => s.logIgnored (0x10000 + 8 * qid)
  | some q =>
    let t := s.modQueue qid fun x => { x with tail := v, since := if x.needsSlot then x.since else s.now }
    if q.status ≠ 0 then t
    else if 2 ^ q.n < (v - q.head).toNat then t.stopQueue qid .tailInvalid (valueDetail 0)
    else t.settleSlot qid

/-- QTAIL_WRITE (R53). -/
def execQtailWrite (qid : Nat) (value : BitVec 32) (s : State) : Out :=
  .next (if s.powered then s.writeTail qid value else s)

/-- The management ring's tail is written (R50, R69). -/
def State.writeMqtail (s : State) (v : BitVec 32) : State :=
  s.modTahr fun t => { t with mqtail := v, mqsince := if t.mqtail = t.mqhead then s.now else t.mqsince }

/-- MQTAIL_WRITE (R69). -/
def execMqtailWrite (value : BitVec 32) (s : State) : Out :=
  .next (if s.powered then s.writeMqtail value else s)

/-- A register with the written half replaced (R49). -/
def halfIn (old : Word) (size : Nat) (high : Bool) (v : Word) : Word :=
  if size = 8 then v
  else if high then (v.truncate 32 : BitVec 32) ++ (old.truncate 32 : BitVec 32)
  else (old.extractLsb' 32 32) ++ (v.truncate 32 : BitVec 32)

/-- BAR2's size (R46). -/
def Tahr.bar2Bytes (t : Tahr) : Nat := 2 ^ t.bar2Log

/-- W2BASE with the bits below BAR2's size read as zero (R50). -/
def Tahr.w2mask (t : Tahr) (v : Word) : Word := v &&& ~~~(.ofNat 64 (t.bar2Bytes - 1) : Word)

/-- Bytes of a window that is kept as it is written, the MSI-X table; zeros are not listed. -/
def writeWindow (cells : List Host.Cell) (a : Nat) (bs : List Byte) : List Host.Cell :=
  cellsPut cells a bs.length ((bs.zipIdx a).filterMap fun b => if b.1 = 0 then none else some (b.2, b.1))

/-- A write of a control-space register, by offset (R49 to R51). Offsets that are not listed, and read-only registers, ignore
it. -/
def State.writeControl (s : State) (off size : Nat) (v : Word) : State :=
  let reg := off / 8 * 8
  let high := decide (off % 8 = 4)
  if reg = 0x40 then s.modTahr fun t => { t with mqbase := halfIn t.mqbase size high v &&& ~~~(4095 : Word) }
  else if reg = 0x48 then
    s.modTahr fun t => { t with mqsize := (halfIn (.ofNat 64 t.mqsize) size high v).toNat % 16 }
  else if reg = 0x50 then if high then s else s.writeMqtail (v.truncate 32)
  else if reg = 0x60 then
    s.modTahr fun t => { t with w2base := t.w2mask (halfIn t.w2base size high v) }
  else if 0x10000 ≤ reg ∧ reg < 0x18000 then
    if high then s else s.writeTail ((reg - 0x10000) / 8) (v.truncate 32)
  else if 0x100000 ≤ reg ∧ reg < 0x108000 then
    s.modTahr fun t => { t with bar0 := writeWindow t.bar0 off (leBytes size v.toNat) }
  else s

/-- REGISTER_WRITE (R49): aligned accesses of 8 or 4 bytes; any other is ignored and logged. -/
def execRegisterWrite (off : BitVec 26) (size : Nat) (value : BitVec 64) (s : State) : Out :=
  .next (if !s.powered then s
    else if (size = 8 ∨ size = 4) ∧ off.toNat % size = 0 then s.writeControl off.toNat size value
    else s.logIgnored off.toNat)

/-- The tail register of a queue that does not exist: what was last written to it (R4, R51). -/
def Tahr.tailOf (t : Tahr) (qid : Nat) : BitVec 32 := ((t.tails.find? fun x => x.1 == qid).map Prod.snd).getD 0

/-- What a global register reads (R50): offsets that are not listed read zero. -/
def State.globalWord (s : State) (reg : Nat) : Word :=
  let t := s.tahr
  match reg with
  | 0x00 => .ofNat 64 (0x5708 + Config.stepping.toNat * 2 ^ 16)
  | 0x08 => .ofNat 64 (t.ready.toNat + t.patched.toNat * 2 + Config.narrow.toNat * 4 + t.fatal.toNat * 8 +
      min s.logged (2 ^ 32 - 1) * 2 ^ 32)
  | 0x40 => t.mqbase
  | 0x48 => .ofNat 64 t.mqsize
  | 0x50 => t.mqtail.setWidth 64
  | 0x58 => t.mqhead.setWidth 64
  | 0x60 => t.w2base
  | _ => 0

/-- What a doubleword of the control space reads (R49 to R51); no message is ever pending, so the pending-bit array is zero
(log 12). -/
def State.controlWord (s : State) (reg : Nat) : Word :=
  if reg < 0x1000 then s.globalWord reg
  else if 0x10000 ≤ reg ∧ reg < 0x18000 then
    (((s.queue? ((reg - 0x10000) / 8)).map Queue.tail).getD (s.tahr.tailOf ((reg - 0x10000) / 8))).setWidth 64
  else if 0x100000 ≤ reg ∧ reg < 0x108000 then
    .ofNat 64 (leNat ((List.range 8).map fun i => (cellAt s.tahr.bar0 (reg + i)).getD 0))
  else 0

/-- The host reads BAR0 (R49): aligned accesses of 8 or 4 bytes; any other is ignored and logged. What was read stands in
Tahr.bar0Read (log 12). -/
def State.readControl (s : State) (off size : Nat) : State :=
  if !s.powered then s
  else if (size = 8 ∨ size = 4) ∧ off % size = 0 then
    s.modTahr fun t => { t with
      bar0Read := ((leBytes 8 (s.controlWord (off / 8 * 8)).toNat).drop (off % 8)).take size }
  else s.logIgnored off

/-! ## BAR2 and the host's translations (R46, R48) -/

/-- The host chooses one of BAR2's sizes, 256 MiB to 1 TiB (R46); W2BASE's bits below it read as zero (R50). -/
def State.resizeBar2 (s : State) (n : Nat) : State :=
  if 28 ≤ n ∧ n ≤ 40 then s.modTahr fun t => { t with bar2Log := n, w2base := { t with bar2Log := n }.w2mask t.w2base } else s

/-- A host access of n bytes through BAR2: the device address, where it lies in the window and in installed memory. -/
def State.bar2At (s : State) (off n : Nat) : Option Nat :=
  if off + n ≤ s.tahr.bar2Bytes ∧ s.tahr.w2base.toNat + off + n ≤ Config.dramBytes then some (s.tahr.w2base.toNat + off)
  else none

/-- BAR2_ACCESS (R46, R387). -/
def execBar2Access (access : HostAccess) (s : State) : Out :=
  .next (if !s.powered then s
    else match access with
    | .read off n =>
      match s.bar2At off n with
      | some a =>
        let r := s.engineRead a n
        r.1.modTahr fun t => { t with bar2Read := r.2.1 }
      | none => s
    | .write off data =>
      match s.bar2At off data.length with
      | some a => s.writeLoc a data
      | none => s)

/-- Whether a cached host page lies in a range of a PASID. -/
def HostPage.inRange (p : HostPage) (pasid : BitVec 20) (va len : Nat) : Bool :=
  p.pasid == pasid && p.host.isSome && decide (p.page * 4096 < va + len ∧ va < (p.page + 1) * 4096)

/-- ATS_INVALIDATION (R48): what the part caches of the host's translations of the range goes. The completion is sent when
every access that such a translation serves has been made (Choice.invalSend). -/
def execAtsInvalidation (pasid : BitVec 20) (va len : Nat) (s : State) : Out :=
  let gone := s.pages.filterMap fun p => if p.inRange pasid va len then p.host else none
  .next (({ s with pages := s.pages.filter fun p => !p.inRange pasid va len } : State).retraceAll.modTahr fun t =>
    { t with invals := t.invals ++ [⟨pasid, va, len, gone⟩] })

/-- Whether a store queue holds a write to a page of host memory. -/
def Core.storesTo (c : Core) (page : Nat) : Bool :=
  c.sq.any fun e => match e.op with
    | .store l bs => decide (l < hostLoc page + 4096 ∧ hostLoc page < l + bs.length)
    | .amo _ l n _ _ _ => decide (l < hostLoc page + 4096 ∧ hostLoc page < l + n)
    | .remote _ _ _ => false

/-- Whether every access that some host translations serve has been made: a queue of stores holds what it translated, and
everything else translates as it performs (R48, R254; log 49). -/
def State.invalDone (s : State) (i : AtsInval) : Bool :=
  s.herds.all fun h => (h.act :: h.old.toList).all fun x => x.cores.all fun c => i.pages.all fun p => !c.storesTo p

/-- The completion of the oldest ATS invalidation is sent, when it has been honoured (R48). -/
def State.sendInval (s : State) : State :=
  match s.tahr.invals with
  | i :: r => if s.invalDone i then s.modTahr fun t => { t with invals := r, invalsDone := t.invalsDone ++ [i] } else s
  | [] => s

/-- Updates of status records that waited for the host's answer are made, or fail (R48, R54). -/
def State.tellOwed (s : State) : State :=
  s.tahr.queues.foldl (fun t q => if q.owed.isSome then t.tellStatus q.qid [] else t) s

/-- PAGE_REQUEST_RESPONSE (R48): the host answers an outstanding page request with a page of its memory, or with failure. -/
def execPageRequestResponse (pasid : BitVec 20) (va : Nat) (grant : Option Nat) (s : State) : Out :=
  .next ({ s with pages := s.pages.map fun p =>
    if p.pasid = pasid ∧ p.page = va / 4096 ∧ p.host = none ∧ p.refused = false then
      match grant with
      | some a => { p with host := some (a / 4096 * 4096 % 2 ^ 59) }
      | none => { p with refused := true }
    else p } : State).tellOwed

/-! ## Peer ports (R219, R384 to R386) -/

/-- REMOTE_ACCESS_RECEIVED (R219): the part adds its W2BASE and performs the access in its device memory. One that lies outside
the window is not performed. -/
def execRemoteAccessReceived (port : Bool) (op : RemoteOp) (s : State) : Out :=
  .next (if !(s.powered && s.ports.getD port.toNat false) then s
    else match op with
    | .store a data =>
      match s.bar2At a data.length with
      | some l => s.writeLoc l data
      | none => s
    | .amo code a n v cmp =>
      match s.bar2At a n, amoOfCode code.toNat with
      | some l, some o => if n = 4 ∨ n = 8 then (s.amoAt o l n v cmp).1 else s
      | _, _ => s)

/-- PEER_PORT_DOWN (R386). -/
def execPeerPortDown (port : Bool) (s : State) : Out := .next { s with ports := s.ports.set port.toNat false }

/-- PEER_PORT_UP (R385). -/
def execPeerPortUp (port : Bool) (s : State) : Out := .next { s with ports := s.ports.set port.toNat true }

end Sys2Proof.Machine
end

