-- ==== Sys2Proof/Machine/Cistern.lean ====
section
/-! DEFINITION. What wells and cisterns compute: stored tiles, activation blocks, chains, slots and the activation stage
(spec/11_number_formats.md R288, R289; spec/13_wells.md R326, R335 to R340, R347, R348). -/

namespace Sys2Proof.Machine

/-! ## Stored tiles (R326) -/

/-- Whether the elements of a weight format are of 4 bits. -/
def nibbleFmt : WellFmt → Bool
  | .int4 | .mxfp4 | .ql4 => true
  | _ => false

/-- Whether a weight format has row scales. -/
def scaledFmt : WellFmt → Bool
  | .int8 | .int4 => false
  | _ => true

/-- Bytes of the weight area. -/
def weightBytes (f : WellFmt) : Nat := if nibbleFmt f then 512 else 1024

/-- Bytes of an image. -/
def imageBytes (f : WellFmt) (tr : Bool) : Nat :=
  weightBytes f + 64 + (if tr || scaledFmt f then 64 else 0) + (if f = .ql4 then 256 else 0)

/-- The integer v of a stored element (R288). -/
def storedInt (f : WellFmt) (x : Nat) : Int :=
  match f with
  | .int8 | .mxint8 => intOf .s8 x
  | .int4 => intOf .s4 x
  | .ql4 => ql4Level x
  | .mxfp4 => match (E2M1.decode x).mul (.ofInt 2) with
    | .fin g n d => signed g (n / d)
    | _ => 0
  | .mxfp6 => match (E2M3.decode x).mul (.ofInt 8) with
    | .fin g n d => signed g (n / d)
    | _ => 0

/-- n bytes of an image from a place on; bytes that no fill wrote are zeros (R329). -/
def Latch.bytes (l : Latch) (a n : Nat) : List Byte := (List.range n).map fun i => l.image.getD (a + i) 0

/-- The stored integers, row by row. -/
def Latch.rows (l : Latch) : List (List Int) :=
  pieces 32 32 ((codesOf (if nibbleFmt l.fmt then 4 else 8) (l.bytes 0 (weightBytes l.fmt))).map (storedInt l.fmt))

/-- Thirty-two s16 values. -/
def s16List (bs : List Byte) : List Int := (codesOf 16 bs).map fun x => intOf .s16 x

/-- The check column, and the transposed one. -/
def Latch.chk (l : Latch) : List Int := s16List (l.bytes (weightBytes l.fmt) 64)
def Latch.chkT (l : Latch) : List Int := s16List (l.bytes (weightBytes l.fmt + 64) 64)

/-- The scale word of row n, and its super-scale word. -/
def Latch.rowWord (l : Latch) (n : Nat) : List Byte := l.bytes (weightBytes l.fmt + 64 + 16 * (n / 8)) 16
def Latch.superWord (l : Latch) (n : Nat) : List Byte := l.bytes (weightBytes l.fmt + 128 + 16 * (n / 2)) 16

/-- What a scale byte is taken from for the block exponent (R288). -/
def scaleOff : WellFmt → Int
  | .mxint8 => 133
  | .mxfp4 => 128
  | .mxfp6 => 130
  | _ => 0

/-- row_scale of R335: the multiplier and the exponent of row n (R288, R347). -/
def Latch.rowScale (l : Latch) (n : Nat) : Nat × Int :=
  if !scaledFmt l.fmt then (1, 0)
  else match scaleData (l.rowWord n) with
    | none => (0, 0)
    | some d =>
      let e := scaleByte d (n % 8)
      if l.fmt = .ql4 then (e, 0) else if e = 0xFF then (0, 0) else (1, e - scaleOff l.fmt)

/-- The super-scale of row n; nothing when its word is poisoned (R347). -/
def Latch.superScale (l : Latch) (n : Nat) : Option Num :=
  (scaleData (l.superWord n)).map fun d => F32.decode (d / 2 ^ (32 * (n % 2)) % 2 ^ 32)

/-- Poisoned blocks of a filled latch (R347). -/
def Latch.poisoned (l : Latch) : Nat :=
  if !scaledFmt l.fmt then 0
  else
    ((List.range 32).filter fun n => match scaleData (l.rowWord n) with
      | none => true
      | some d => l.fmt != .ql4 && scaleByte d (n % 8) == 0xFF).length +
    if l.fmt = .ql4 then ((List.range 32).filter fun n => (l.superScale n).isNone).length else 0

/-- Scale words of a filled latch that had one bit in error (R285). -/
def Latch.corrected (l : Latch) : Nat :=
  let words := (if scaledFmt l.fmt then (List.range 4).map fun i => l.rowWord (8 * i) else []) ++
    if l.fmt = .ql4 then (List.range 16).map fun i => l.superWord (2 * i) else []
  (words.filter fun w => match readScale w with
    | .fixed _ => true
    | _ => false).length

/-! ## Activations (R289) -/

/-- The zero block (R332). -/
def WBlock.zero : WBlock := ⟨.replicate 32 0, -127⟩

/-- Whether a block is a non-finite one. -/
def WBlock.bad (b : WBlock) : Bool := b.x == -128

/-- The WA16 block of 32 bf16 codes (R289). -/
def wa16 (cs : List Nat) : WBlock :=
  let vs := cs.map BF16.decode
  if vs.any fun v => match v with
    | .fin _ _ _ => false
    | _ => true
  then ⟨.replicate 32 0, -128⟩
  else
    let es := vs.filterMap fun v => match v with
      | .fin _ n d => if n = 0 then none else some (floorLog2 n d)
      | _ => none
    let x := match es with
      | [] => -127
      | e :: r => max (r.foldl max e - 14) (-127)
    ⟨vs.map fun v => match v with
      | .fin g n d => signed g (rint .rne g (n * (pow2 (-x)).1) (d * (pow2 (-x)).2))
      | _ => 0, x⟩

/-! ## Chains (R335 to R337) -/

/-- The exact sum of products. -/
def dotInt (a b : List Int) : Int := (List.zipWith (· * ·) a b).sum

/-- The 32 outputs of a well for a block, before scaling (R335). -/
def Latch.products (l : Latch) (a : List Int) : List Int :=
  if l.tr then (List.range 32).map fun n => dotInt (l.rows.map fun r => r.getD n 0) a else l.rows.map fun r => dotInt r a

/-- The 33rd output. -/
def Latch.checkOut (l : Latch) (a : List Int) : Int := dotInt (if l.tr then l.chkT else l.chk) a

/-- A well's outputs with the multiplier faults that meet them (R339; log 30). -/
def faulty (y : List Int) (fs : List (Nat × Int)) : List Int := fs.foldl (fun z f => z.modify f.1 (· + f.2)) y

/-- The sums of a chain: a segment's sums, or none yet, and C, U and the non-finite flag. -/
structure Chain where
  segs : List (Option (List EP128))
  c    : Int
  u    : Int
  bad  : Bool
  deriving DecidableEq, Repr

/-- A chain before its first well, with the partial sums that it starts from (R337). -/
def Chain.start (g : Nat) (p : Option (List EP128)) : Chain :=
  ⟨(List.replicate 16 none).set g p, 0, 0, false⟩

/-- One well's contribution (R335): its latch, its block, and the faults of this product. -/
def Chain.add (k : Chain) (g : Nat) (r : RowState) (l : Latch) (b : WBlock) (fs : List (Nat × Int)) : Chain :=
  let base := ((k.segs.getD g none).getD (.replicate 32 .zero))
  if r.mlb then { k with segs := k.segs.set g (some base), bad := k.bad || b.bad }
  else
    let y := faulty (l.products b.a) fs
    ⟨k.segs.set g (some (List.zipWith (fun t (n : Nat) =>
        let m := if r.dqb then (1, 0) else l.rowScale n
        t.add (.from (y.getD n 0 * m.1) (m.2 + b.x))) base (List.range 32))),
      k.c + l.checkOut b.a, k.u + y.sum, k.bad || b.bad⟩

/-! ## Slots (R338) -/

/-- A cleared slot. -/
def CSlot.fresh : CSlot := ⟨none, .replicate 32 .zero, .replicate 32 0, false, false, false, []⟩

/-- A slot as it is read: an uncorrectable sum is zero (R348). With the sums so taken, and those corrected. -/
def CSlot.read (x : CSlot) : CSlot × Nat × Nat :=
  let bad := x.errs.filter fun e => e.2 != .single
  (bad.foldl (fun y e => { y with sums := y.sums.set e.1 .zero, accs := y.accs.set e.1 0 }) { x with errs := [] },
    bad.length, x.errs.length - bad.length)

/-- One fused multiply-add of R338, in f32. -/
def fuse (acc : Nat) (t c : Num) : Nat := roundRne F32 ((t.mul c).add .rne (F32.decode acc))

/-- A QL4 accumulator after an arrival: the segments in order, each with its super-scale for this output. -/
def ql4Acc (base : Nat) (segs : List (EP128 × Option Num)) : Nat :=
  segs.foldl (fun acc s => match s.2 with
    | some x => fuse acc (F32.decode (s.1.round F32 .rne)) (F32.decode (roundRne F32 (x.div (.fin false 32385 1))))
    | none => acc) base

/-- The segments that a chain touched, with the latch of each segment's first column. -/
def Chain.touched (k : Chain) (heads : List Latch) : List (List EP128 × Latch) :=
  (k.segs.zip heads).filterMap fun x => x.1.map fun t => (t, x.2)

/-- A slot combines an arrival (R338): the kind of the row, whether its latches are mixed, and the latches at the segments'
first columns. -/
def CSlot.combine (x : CSlot) (ql mix rdb : Bool) (k : Chain) (heads : List Latch) : CSlot :=
  { x with
    ql4 := some (x.ql4.getD ql)
    undef := x.undef || mix || x.ql4 == some (!ql)
    taint := x.taint || k.c != k.u
    sums := if ql then x.sums else
      let t := (k.segs.headD none).getD (.replicate 32 .zero)
      if rdb then t.map (EP128.zero.add ·) else List.zipWith EP128.add x.sums t
    accs := if ql then
      x.accs.zipIdx.map fun a => ql4Acc (if rdb then 0 else a.1) ((k.touched heads).map fun s =>
        (s.1.getD a.2 .zero, s.2.superScale a.2))
      else x.accs
    nan := if rdb then k.bad else x.nan || k.bad }

/-! ## Draining (R340) -/

/-- z / (1 + e^-z) in f32 (R340). -/
def fSilu : Num → Nat
  | .nan => F32.nanOf
  | .inf neg => if neg then F32.code true 0 else F32.infOf false false
  | .fin neg n d =>
    if n = 0 then F32.code neg 0
    else if 400 * d ≤ n then (if neg then F32.code true 0 else roundRne F32 (.fin neg n d))
    else
      let e := enclExp n d
      let lo := if neg then n * e.den * fxOne / (d * (e.hi + e.den)) else n * e.lo * fxOne / (d * (e.lo + e.den))
      let hi := if neg then n * e.den * fxOne / (d * (e.lo + e.den)) else n * e.hi * fxOne / (d * (e.hi + e.den))
      roundEncl F32 .rne false neg ⟨lo, hi + 1, fxOne⟩

/-- fn of R340, rounded to f32. -/
def actFn (f : ActFn) (z : Num) : Nat :=
  match f with
  | .identity => roundRne F32 z
  | .relu => if z.isNan then F32.nanOf else if (Num.fin false 0 1).lt z then roundRne F32 z else 0
  | .silu => fSilu z
  | .tanh => fTanh F32 .rne false z
  | .sigmoid => fSigm F32 .rne false z

/-- The image of an overflow of unknown sign, for non-finite slots (R340). -/
def epBad : EP128 := ⟨0, true, false, true⟩

/-- ep128_from_f32 (R340). -/
def epFromF32 (x : Nat) : EP128 :=
  match F32.decode x with
  | .nan => epBad
  | .inf neg => ⟨if neg then -2 ^ 127 else 2 ^ 127 - 1, true, neg, false⟩
  | .fin neg n d =>
    if n = 0 then .zero
    else
      let e := floorLog2 n d
      let m := n * (pow2 (23 - e)).1 / (d * (pow2 (23 - e)).2)
      .from (signed neg m) (e - 23)

/-- The format of a drain kind; ep128 has none. -/
def drainFmt : DrainKind → Option FFmt
  | .f32 => some F32 | .bf16 => some BF16 | .f16 => some F16 | .e4m3 => some E4M3 | .ep128 => none

/-- One output of a slot (R340). -/
def CSlot.output (x : CSlot) (r : RowState) (kind : DrainKind) (sat : Bool) (n : Nat) : Nat :=
  let ql := x.ql4 == some true
  match drainFmt kind with
  | none => (if x.nan then epBad else if ql then epFromF32 (x.accs.getD n 0) else x.sums.getD n .zero).image
  | some f =>
    if x.nan then f.nanOf
    else
      let y := if ql then x.accs.getD n 0 else (x.sums.getD n .zero).round F32 .rne
      let z := fuse (r.beta.getD n 0) (F32.decode y) (F32.decode (r.alpha.getD n 0))
      roundTo f .rne sat (F32.decode (actFn r.fn (F32.decode z)))

/-- The bytes of a slot's outputs. -/
def CSlot.drain (x : CSlot) (r : RowState) (kind : DrainKind) (sat : Bool) : List Byte :=
  (List.range 32).flatMap fun n => leBytes (drainKindBytes kind) (x.output r kind sat n)

/-! ## The well check (R348) -/

/-- Whether a latch's check column, and a transposed tile's other one, are the sums of its stored integers. -/
def Latch.sound (l : Latch) : Bool :=
  let vs := l.rows
  l.chk == (List.range 32).map (fun k => (vs.map fun r => r.getD k 0).sum) &&
    (!l.tr || l.chkT == vs.map List.sum)

/-- Whether a well fails its check for a block. -/
def wellFails (r : RowState) (l : Latch) (b : WBlock) (fs : List (Nat × Int)) : Bool :=
  (!r.mlb && l.checkOut b.a != (faulty (l.products b.a) fs).sum) || !l.sound

end Sys2Proof.Machine
end

