-- ==== Sys2Proof/Machine/Wells.lean ====
section
/-! DEFINITION. Well rectangles: the well words, fills and refresh, the windlasses and the cisterns (spec/13_wells.md R326 to
R351). -/

namespace Sys2Proof.Machine

/-! ## Rectangles (R33, R329, R332, R338, R341) -/

/-- A latch at node entry (R341). -/
def Latch.entry : Latch := ⟨none, .int8, false, [], none, 0, 0⟩

/-- A well at node entry. -/
def WellState.entry : WellState := ⟨.entry, .entry, false⟩

/-- A row at node entry (R341): alpha 1.0, beta 0.0. -/
def RowState.entry : RowState := ⟨.int8, false, false, false, false, .identity, .replicate 32 0x3F800000, .replicate 32 0⟩

/-- A rectangle at node entry. -/
def Rect.entry (lseq node die row0 col0 rows cols : Nat) : Rect where
  lseq := lseq
  node := node
  die := die
  row0 := row0
  col0 := col0
  wells := .replicate rows (.replicate cols .entry)
  rows := .replicate rows .entry
  bufs := .replicate cols (.replicate 64 .zero)
  slots := .replicate rows (.replicate 64 .fresh)
  faults := []
  refill := false

/-- The die and the well number, 32 x row + column, of a well of a rectangle (R33). -/
def Rect.place (x : Rect) (r c : Nat) : Nat × Nat := (x.die + (x.col0 + c) / 32, 32 * (x.row0 + r) + (x.col0 + c) % 32)

/-- The row and the column in a rectangle of a well of a die. -/
def Rect.locate (x : Rect) (die well : Nat) : Option (Nat × Nat) :=
  (List.range x.wells.length).findSome? fun r =>
    ((List.range x.bufs.length).find? fun c => x.place r c == (die, well)).map fun c => (r, c)

def Rect.well (x : Rect) (r c : Nat) : WellState := ((x.wells.getD r [])[c]?).getD .entry
def WellState.latch (w : WellState) (i : Bool) : Latch := if i then w.latch1 else w.latch0
def WellState.setLatch (w : WellState) (i : Bool) (l : Latch) : WellState :=
  if i then { w with latch1 := l } else { w with latch0 := l }

/-- The latch that feeds a well's array (R329). -/
def Rect.live (x : Rect) (r c : Nat) : Latch := (x.well r c).latch (x.well r c).active

/-- Replace a well of a rectangle. -/
def Rect.modWell (x : Rect) (r c : Nat) (f : WellState → WellState) : Rect :=
  { x with wells := x.wells.modify r fun ws => ws.modify c f }

def Rect.modRow (x : Rect) (r : Nat) (f : RowState → RowState) : Rect := { x with rows := x.rows.modify r f }
def Rect.row (x : Rect) (r : Nat) : RowState := (x.rows[r]?).getD .entry
def Rect.buf (x : Rect) (c k : Nat) : WBlock := ((x.bufs.getD c [])[k]?).getD .zero
def Rect.slot (x : Rect) (r k : Nat) : CSlot := ((x.slots.getD r [])[k]?).getD .fresh
def Rect.setSlot (x : Rect) (r k : Nat) (y : CSlot) : Rect := { x with slots := x.slots.modify r fun ss => ss.set k y }

/-- Whether a rectangle is the one of a node. -/
def Rect.isOf (x : Rect) (lseq node : Nat) : Bool := x.lseq == lseq && x.node == node

/-- The rectangle of the node that a herd's context holds. -/
def State.rectFor (s : State) (x : HerdCtx) : Option Rect := x.held.bind fun n => s.rects.find? fun y => y.isOf n.lseq n.node

/-- The rectangle of the node that a herd runs. -/
def State.rect? (s : State) (h : Nat) : Option Rect := (s.ctx? h).bind s.rectFor

/-- Replace a rectangle. -/
def State.putRect (s : State) (x : Rect) : State :=
  { s with rects := s.rects.map fun y => if y.isOf x.lseq x.node then x else y }

/-- The herd that drives a rectangle. -/
def State.driver (s : State) (x : Rect) : Nat :=
  s.herds.findIdx fun h =>
    ((h.act.held.map fun n => x.isOf n.lseq n.node).getD false) ||
      (((h.old.bind HerdCtx.held).map fun n => x.isOf n.lseq n.node).getD false)

/-! ## Issue (R342 to R344) -/

/-- First row, rows, first column and columns of a word; a word of rows alone has column 0 and one column (R123). -/
def wellArea : Instr → Nat × Nat × Nat × Nat
  | .wload _ r _ _ _ | .wswap _ r _ | .wfeed _ r _ _ _ _ | .wchk _ r _ _ =>
    (r.rows.rrow.toNat, r.rows.nrm1.toNat + 1, r.rcol.toNat, r.ncm1.toNat + 1)
  | .wdrain _ r _ _ _ _ _ | .wmode _ r _ _ | .wpipe _ r _ _ _ _ _ => (r.rrow.toNat, r.nrm1.toNat + 1, 0, 1)
  | _ => (0, 0, 0, 0)

/-- The stream that a wfeed injects from, and whether it broadcasts. -/
def feedStream : Instr → Option (BitVec 4 × Bool)
  | .wfeed _ _ (.stream q b) _ _ _ => some (q, b)
  | _ => none

/-- The partials stream of a wfeed. -/
def feedPart : Instr → Option (BitVec 4)
  | .wfeed _ _ _ _ _ p => p
  | _ => none

/-- Vectors, or slots, of a word. -/
def wellCount : Instr → Nat
  | .wfeed _ _ _ _ n _ | .wdrain _ _ _ _ n _ _ => n.toNat + 1
  | _ => 1

/-- The first slot of a word. -/
def wellSlot : Instr → Nat
  | .wfeed _ _ _ k _ _ | .wdrain _ _ _ k _ _ _ => k.toNat
  | .wchk _ _ k _ => k.toNat
  | _ => 0

/-- Columns that a wfeed reads chunks for: C of R344. -/
def feedCols (i : Instr) : Nat :=
  match feedStream i with
  | some (_, true) => 1
  | _ => (wellArea i).2.2.2

/-- The rings of a word with their bytes B (R344): qA, qP, qO. -/
def feedBytes (i : Instr) : Nat := if (feedStream i).isSome then 64 * wellCount i * feedCols i else 0
def partBytes (i : Instr) : Nat := if (feedPart i).isSome then 1024 * wellCount i * (wellArea i).2.1 else 0
def drainBytes : Instr → Nat
  | .wdrain h r q k n kind sat =>
    32 * drainKindBytes kind * (n.toNat + 1) * (wellArea (.wdrain h r q k n kind sat)).2.1
  | _ => 0

/-- The scalar register that a word reads. -/
def wellScalar : Instr → BitVec 5
  | .wload _ _ _ _ sn => sn
  | .wpipe _ _ _ sp _ _ _ => sp
  | .wchk _ _ _ sb => sb
  | _ => 0

/-- The block of memory that a word names by a pointer, in bytes. -/
def wellBlock (i : Instr) : Nat :=
  match i with
  | .wpipe _ _ _ sp _ _ _ => if sp = 0 then 0 else 256 * (wellArea i).2.1
  | .wchk _ _ _ _ => 16 * (wellArea i).2.1
  | _ => 0

/-- Bytes that a word names for a completion barrier (R373). -/
def wellBytes (i : Instr) : Nat := feedBytes i + partBytes i + drainBytes i + wellBlock i

/-- The stream format of a drain kind (R343). -/
def drainCode : DrainKind → Nat
  | .f32 => 0x05 | .bf16 => 0x04 | .f16 => 0x03 | .e4m3 => 0x06 | .ep128 => 0x1D

/-- Streams that a word names, each with the format it must have and its bytes. -/
def wellStreams (i : Instr) : List (BitVec 4 × Nat × Nat) :=
  (match feedStream i with
    | some (q, _) => [(q, 0x04, feedBytes i)]
    | none => []) ++
  (match feedPart i with
    | some q => [(q, 0x1D, partBytes i)]
    | none => []) ++
  match i with
    | .wdrain _ _ q _ _ kind _ => [(q, drainCode kind, drainBytes i)]
    | _ => []

/-- Whether every stream of a word passes (R296, R343). -/
def State.wellStreamsOk (s : State) (c : Core) (i : Instr) : Bool :=
  (wellStreams i).all fun x =>
    let q := streamOf (c.gq x.1)
    s.streamOk s.cur.1 s.cur.2 q && q.code == x.2.1 && decide (x.2.2 ≤ q.size)

/-- The check of a block named by a pointer (R343). -/
def State.wellPtr (s : State) (p : Word) (n : Nat) : Option Cause :=
  if !(pSpace p == 1 || pSpace p == 2) then some (.bounds false p)
  else match s.space s.cur.1 s.cur.2 p n false with
    | .bad => some (.bounds false p)
    | _ => if pAddr p % 8 ≠ 0 then some (.misalignment p) else none

/-- The offset that wload fills from: the sum as u64 (R343; log 35). -/
def loadOff (off : BitVec 27) (v : Word) : Nat := (off.zeroExtend 64 + v).toNat

/-- The checks of a well word (R343). -/
def State.wellChk (s : State) (c : Core) (i : Instr) : Option Cause :=
  let a := wellArea i
  let v := c.gs (wellScalar i)
  match s.myCtx.held, s.rect? s.cur.1 with
  | some n, some x =>
    if !n.well || s.cur.2 ≠ 0 || x.rows.length < a.1 + a.2.1 || x.bufs.length < a.2.2.1 + a.2.2.2 ||
        64 < wellSlot i + wellCount i || 2048 * 64 < feedBytes i || !s.wellStreamsOk c i then some (.bounds false 0)
    else match i with
      | .wload _ _ _ off _ =>
        if 2 ^ 27 - 1151 ≤ loadOff off v then some (.bounds false 0)
        else if loadOff off v % 64 ≠ 0 then some (.misalignment 0)
        else none
      | _ => if wellBlock i = 0 then none else s.wellPtr v (wellBlock i)
  | _, _ => some (.bounds false 0)

/-- A well word issues. -/
def wellWord (i : Instr) (h : EHdr) : State → Out :=
  engineWord .well i h [wellScalar i] [] ((wellStreams i).map fun x => .q x.1)
    (fun s c => chkOf s (s.wellChk c i)
      ⟨(((wellStreams i).map fun x => c.gq x.1)).getD 0 0, ((wellStreams i).map fun x => c.gq x.1).getD 1 0,
        c.gs (wellScalar i), []⟩) id

/-- wload (R345). -/
def execWload (h : EHdr) (r : WellRect) (latch : Bool) (off : BitVec 27) (sn : BitVec 5) : State → Out :=
  wellWord (.wload h r latch off sn) h

/-- wswap (R345). -/
def execWswap (h : EHdr) (r : WellRect) (latch : Bool) : State → Out := wellWord (.wswap h r latch) h

/-- wfeed (R345). -/
def execWfeed (h : EHdr) (r : WellRect) (src : FeedSrc) (slot countM1 : BitVec 6) (part : Option (BitVec 4)) : State → Out :=
  wellWord (.wfeed h r src slot countM1 part) h

/-- wdrain (R340). -/
def execWdrain (h : EHdr) (rows : WellRows) (q : BitVec 4) (slot countM1 : BitVec 6) (kind : DrainKind) (sat : Bool) :
    State → Out := wellWord (.wdrain h rows q slot countM1 kind sat) h

/-- wmode (R345). -/
def execWmode (h : EHdr) (rows : WellRows) (fmt : WellFmt) (tr : Bool) : State → Out := wellWord (.wmode h rows fmt tr) h

/-- wpipe (R345). -/
def execWpipe (h : EHdr) (rows : WellRows) (fn : ActFn) (sp : BitVec 5) (dqb mlb rdb : Bool) : State → Out :=
  wellWord (.wpipe h rows fn sp dqb mlb rdb) h

/-- wchk (R348). -/
def execWchk (h : EHdr) (r : WellRect) (slot : BitVec 6) (sb : BitVec 5) : State → Out := wellWord (.wchk h r slot sb) h

/-! ## Fills (R327, R328, R330, R331, R347) -/

/-- The device address of a well's bank byte 0 (R327). -/
def State.wellBase (s : State) (die well : Nat) : Nat := s.physDie die * 2 ^ 37 + well * 2 ^ 27

/-- A latch whose fill starts (R345). -/
def Latch.begin (l : Latch) (off : Nat) (fmt : WellFmt) (tr : Bool) : Latch :=
  { l with off := some off, fmt := fmt, tr := tr, fill := some ⟨false, [], []⟩ }

/-- A wload starts the fill of one well, if its latch has none pending (R345). -/
def Rect.startFill (x : Rect) (li : Bool) (off : Nat) (r c : Nat) : Rect × Bool :=
  let l := (x.well r c).latch li
  if l.fill.isSome then (x, false)
  else (x.modWell r c fun w => w.setLatch li (l.begin off (x.row r).fmt (x.row r).tr), true)

/-- The banks' bytes of one beat, below the LLC; none where it is uncorrectable (R328, R347). -/
def State.readBeat (s : State) (die well l : Nat) : State × Option (List Byte) :=
  let bs := (List.range 64).map fun i => s.bankByte (l + i)
  match s.marks.find? fun e => e.row = l / 64 * 4 with
  | some e => match e.kind with
    | .single => ({ s with marks := s.marks.erase e }.bump (.lines die) 0 1, some bs)
    | .double => (s.bump (.beats die well) 1 0, none)
    | .soft => (s, some bs)
  | none => (s, some bs)

/-- A fill reads its next beat; at the end of a DRAM row it needs a new activation (R327, R330). -/
def State.beat (s : State) (die well off : Nat) (f : Fill) : State × Fill :=
  let o := off + f.got.length
  let y := s.readBeat die well (s.wellBase die well + o)
  (y.1, { f with
    got := f.got ++ y.2.getD (.replicate 64 0)
    bad := if y.2.isNone then f.bad ++ [f.got.length / 64] else f.bad
    beats := (o + 64) / 2 ^ 13 == o / 2 ^ 13 })

/-- A fill reads on to its end or to the end of the DRAM row. -/
def State.beatsOn (s : State) (die well off total : Nat) : Nat → Fill → State × Fill
  | 0, f => (s, f)
  | n + 1, f =>
    if f.beats = false ∨ total ≤ f.got.length then (s, f)
    else
      let y := s.beat die well off f
      y.1.beatsOn die well off total n y.2

/-- Set the poison marks of the four scale words of a beat. -/
def poisonBeat (img : List Byte) (i : Nat) : List Byte :=
  (List.range 4).foldl (fun b j => b.set (64 * i + 16 * j + 9) 1) img

/-- Beats whose loss zeroes the tile (R347). -/
def tileBeats (f : WellFmt) : Nat := if scaledFmt f then weightBytes f / 64 + 1 else 18

/-- A tile that is taken as zero (R347): each weight is zero, as the QL4 index 7 is (R286), and so are checks and scales. -/
def zeroTile (f : WellFmt) : List Byte := if f = .ql4 then .replicate (weightBytes f) 0x77 else []

/-- A latch whose fill is done (R347). -/
def Latch.filled (l : Latch) (f : Fill) : Latch :=
  if f.bad.any fun i => decide (i < tileBeats l.fmt) then { l with image := zeroTile l.fmt, fill := none, zeroed := 1, poison := 0 }
  else
    let y := { l with image := f.bad.foldl poisonBeat f.got, fill := none, zeroed := 0 }
    { y with poison := y.poisoned }

/-- A fill under way: its rectangle, its well's place there, its latch and the fill. -/
def State.fillOf (s : State) (die well : Nat) (li : Bool) : Option (Rect × Nat × Nat × Latch × Fill) :=
  s.rects.findSome? fun x => (x.locate die well).bind fun p =>
    let l := (x.well p.1 p.2).latch li
    l.fill.map fun f => (x, p.1, p.2, l, f)

/-- Bank and DRAM row of a well-local offset (R327). -/
def bankRow (o : Nat) : Nat × Nat := (o / 2 ^ 23 % 16, o / 2 ^ 13 % 1024)

/-- Whether a bank of a well is in refresh (R331). -/
def Die.refreshing (d : Die) (well bank now : Nat) : Bool :=
  d.refresh.any fun e => e.1 == well && e.2.1 == bank && decide (now < e.2.2)

/-- A bank opens a row; another row of it closes (R330). -/
def Die.openRow (d : Die) (well bank row : Nat) : Die :=
  { d with openRows := ⟨well, bank, row⟩ :: d.openRows.filter fun e => !(e.well == well && e.bank == bank) }

/-- A latch's fill is replaced. -/
def Rect.putFill (x : Rect) (r c : Nat) (li : Bool) (f : Fill) : Rect :=
  x.modWell r c fun w => w.setLatch li { w.latch li with fill := some f }

/-- Bank and row of a fill's next beat. -/
def Latch.nextRow (l : Latch) (f : Fill) : Nat × Nat := bankRow (l.off.getD 0 + f.got.length)

/-- The bank that a well's latch reads, if its fill has begun: until it is done the well fills no other latch (R330). -/
def Latch.busyBank (l : Latch) : Option Nat :=
  l.fill.bind fun f => if f.beats || !f.got.isEmpty then some (l.nextRow f).1 else none

/-- FILL_ROW_ACTIVATION (R330): the row opens, and the beats begin if the well's path is free. While the other latch of the well is being
filled, only a row of another bank opens. -/
def execFillRowActivation (die well : Nat) (latch : Bool) (s : State) : Out :=
  .next (match s.fillOf die well latch, s.dies[die]? with
    | some (x, r, c, l, f), some d =>
      let p := l.nextRow f
      if f.beats || d.refreshing well p.1 s.now then s
      else match ((x.well r c).latch (!latch)).busyBank with
        | some b => if b = p.1 then s else s.modDie die fun d => d.openRow well p.1 p.2
        | none => (s.putRect (x.putFill r c latch { f with beats := true })).modDie die fun d => d.openRow well p.1 p.2
    | _, _ => s)

/-- Store what a fill has read, and end it when it is whole. -/
def State.putBeats (s : State) (li : Bool) (x : Rect) (r c : Nat) (l : Latch) (f : Fill) : State :=
  if imageBytes l.fmt l.tr ≤ f.got.length then
    let y := l.filled f
    (s.putRect (x.modWell r c fun w => w.setLatch li y)).noteScales (s.driver x) (if y.zeroed = 0 then y.corrected else 0, 0)
  else s.putRect (x.putFill r c li f)

/-- FILL_COMPLETE (R330): the beats that are left are read. -/
def execFillComplete (die well : Nat) (latch : Bool) (s : State) : Out :=
  .next (match s.fillOf die well latch with
    | some (x, r, c, l, f) =>
      if f.beats then
        let y := s.beatsOn die well (l.off.getD 0) (imageBytes l.fmt l.tr) 18 f
        y.1.putBeats latch x r c l y.2
      else s
    | none => s)

/-- A fill reads one beat early (R330). -/
def State.fillBeat (s : State) (die well : Nat) (li : Bool) : State :=
  match s.fillOf die well li with
  | some (x, r, c, l, f) =>
    if f.beats then
      let y := s.beat die well (l.off.getD 0) f
      y.1.putBeats li x r c l y.2
    else s
  | none => s

/-- Fills of a well whose next beat lies in a bank stop (R331). -/
def WellState.halt (w : WellState) (bank : Nat) : WellState :=
  let f (l : Latch) : Latch := { l with fill := l.fill.map fun f =>
    if (bankRow (l.off.getD 0 + f.got.length)).1 = bank then { f with beats := false } else f }
  { w with latch0 := f w.latch0, latch1 := f w.latch1 }

/-- BANK_REFRESH (R331): the bank's open row closes, and a fill that meets the refresh activates its row again. -/
def execBankRefresh (die well bank : Nat) (s : State) : Out :=
  .next (match s.dies[die]? with
    | none => s
    | some d =>
      if 1024 ≤ well || 16 ≤ bank || d.refreshing well bank s.now then s
      else
        { s.modDie die fun d => { d with
            openRows := d.openRows.filter fun e => !(e.well == well && e.bank == bank)
            refresh := (well, bank, s.now + 200) :: d.refresh.filter fun e => decide (s.now < e.2.2) } with
          rects := s.rects.map fun x => match x.locate die well with
            | some (r, c) => x.modWell r c fun w => w.halt bank
            | none => x })

/-! ## Starting (R333, R344, R349) -/

/-- Wells of a word, row by row. -/
def wellsOf (i : Instr) : List (Nat × Nat) :=
  let a := wellArea i
  (List.range a.2.1).flatMap fun r => (List.range a.2.2.2).map fun c => (a.1 + r, a.2.2.1 + c)

/-- Whether a row is a QL4 row for a word that begins at a column (R338). -/
def Rect.ql (x : Rect) (r c : Nat) : Bool := (x.live r c).fmt == .ql4

/-- The wells whose active latches a word uses in a row: its own, and those that hold its segments' super-scales (R336). -/
def Rect.usedIn (x : Rect) (r c n : Nat) : List (Nat × Nat) :=
  ((List.range n).map fun j => (r, c + j)) ++
  if x.ql r c then ((List.range 16).filter fun g => decide (8 * g < c ∧ c / 8 = g)).map fun g => (r, 8 * g) else []

/-- The wells whose active latches a word uses. -/
def Rect.used (x : Rect) (i : Instr) : List (Nat × Nat) :=
  let a := wellArea i
  (List.range a.2.1).flatMap fun k => x.usedIn (a.1 + k) a.2.2.1 a.2.2.2

/-- The wells that a word uses in a rectangle: its own, with those of its super-scales (R336), and every well of its rows where it names
rows alone (log 68). -/
def Rect.usedBy (x : Rect) (i : Instr) : List (Nat × Nat) :=
  match i with
  | .wdrain _ _ _ _ _ _ _ | .wmode _ _ _ _ | .wpipe _ _ _ _ _ _ _ =>
    (wellsOf i).flatMap fun p => (List.range x.bufs.length).map fun c => (p.1, c)
  | .wfeed _ _ _ _ _ _ => x.used i
  | _ => wellsOf i

/-- The zone of a well (R438). -/
def zoneOf (well : Nat) : Nat := well / 32 / 8 * 4 + well % 32 / 8

/-- Whether a word uses a well of a zone in emergency (R443). -/
def State.wellsHot (s : State) (x : Rect) (i : Instr) : Bool :=
  (x.usedBy i).any fun p =>
    let q := x.place p.1 p.2
    match (s.dies[q.1]?).bind fun d => d.zones[zoneOf q.2]? with
    | some z => z.state == 3
    | none => false

/-- Whether the rings of an entry hold, or have room for, what it needs (R344). -/
def wellRings (c : Core) (i : Instr) : Bool :=
  (wellStreams i).all fun x =>
    let q := streamOf (c.gq x.1)
    match i with
    | .wdrain _ _ _ _ _ _ _ => decide (x.2.2 ≤ q.size - q.filled)
    | _ => decide (x.2.2 ≤ q.filled)

/-- Whether pump 1 of a herd runs a pump entry, in either context (R333). -/
def State.pump1Busy (s : State) (h : Nat) : Bool := ((s.herds[h]?).map fun x => x.pumpsBusy.contains 1).getD false

/-- Whether a core's well head may start (R172, R333, R344). -/
def State.wellReady (s : State) (h i : Nat) : Bool :=
  match s.core? h i, s.rect? h with
  | some c, some x => match c.head .well with
    | none => false
    | some e => i == 0 && e.step == .ready && !c.swapped && c.storesDone e && c.roleFree e && wellRings c e.word &&
      s.engineFree h i .well && !((feedStream e.word).isSome && s.pump1Busy h) && !s.inEmergency h && !s.wellsHot x e.word
  | _, _ => false

/-- Fills that a wload may start start; with the wells that wait for an earlier fill (R345). -/
def Rect.startFills (x : Rect) (li : Bool) (off : Nat) (ws : List (Nat × Nat)) : Rect × List (Nat × Nat) :=
  ws.foldl (fun y p =>
    let z := y.1.startFill li off p.1 p.2
    (z.1, if z.2 then y.2 else y.2 ++ [p])) (x, [])

/-- A wload goes on: it starts what fills it may; what is left waits in its run. -/
def State.loadOn (s : State) (h : Nat) (e : Entry) (ws : List (Nat × Nat)) : State × List (Nat × Nat) :=
  match e.word, s.rect? h with
  | .wload _ _ li off _, some x =>
    let y := x.startFills li (loadOff off e.scal) ws
    (s.putRect y.1, y.2)
  | _, _ => (s, [])

/-- Whether no fill of a rectangle is under way. -/
def Rect.filled (x : Rect) : Bool := x.wells.all fun ws => ws.all fun w => w.latch0.fill.isNone && w.latch1.fill.isNone

/-- The refills of a restored rectangle have ended (R351). -/
def State.refilled (s : State) (h : Nat) : State :=
  match s.rect? h with
  | some x => if x.refill && x.filled then s.putRect { x with refill := false } else s
  | none => s

/-- Whether a restored rectangle is still being refilled (R351). -/
def State.refilling (s : State) (h : Nat) : Bool := ((s.rect? h).map fun x => x.refill && !x.filled).getD false

/-- Whether a ring that a word names lies in a footprint that is still spilled (R414). -/
def State.wellRingsHeld (s : State) (h c : Nat) (y : Core) (i : Instr) : Bool :=
  (wellStreams i).any fun x =>
    let q := streamOf (y.gq x.1)
    s.ringHeld h c q 0 q.size

/-- The windlasses take the driver core's head. -/
def State.startWell (s : State) (h c : Nat) : State :=
  if s.refilling h || !s.wellReady h c then s
  else match (s.core? h c).bind fun x => x.head .well with
    | some e =>
      let y := match e.word with
        | .wload _ _ _ _ _ => (s.refilled h).loadOn h e (wellsOf e.word)
        | _ => (s.refilled h, [])
      y.1.startRun h c .well { Run.fresh 0 s.now with reads := y.2 }
    | none => s

/-! ## Arrivals (R335 to R339) -/

/-- The errors of latches are reported and cleared: tiles zeroed, and blocks poisoned (R347). -/
def Rect.report (x : Rect) (ws : List (Nat × Nat × Bool)) : Rect × Nat × Nat :=
  ws.foldl (fun y p =>
    let l := (y.1.well p.1 p.2.1).latch p.2.2
    (y.1.modWell p.1 p.2.1 fun w => w.setLatch p.2.2 { l with zeroed := 0, poison := 0 }, y.2.1 + l.zeroed, y.2.2 + l.poison))
    (x, 0, 0)

/-- The active latches of wells. -/
def Rect.actives (x : Rect) (ws : List (Nat × Nat)) : List (Nat × Nat × Bool) := ws.map fun p => (p.1, p.2, (x.well p.1 p.2).active)

/-- A vector is injected into its buffer slot (R332, R333). -/
def State.inject (s : State) (h c : Nat) (y : Core) (x : Rect) (e : Entry) (r : Run) (t : Nat) : State × Rect × Run :=
  match feedStream e.word with
  | none => (s, x, r)
  | some (q, bcast) =>
    let a := wellArea e.word
    let n := feedCols e.word
    let d := s.ringRead h c (streamOf e.img1) ((streamOf (y.gq q)).head.toNat + 64 * n * t) (64 * n)
    let blocks := (pieces 64 n d.2.1).map fun b => wa16 (codesOf 16 b)
    let bufs := x.bufs.zipIdx.map fun b =>
      if decide (a.2.2.1 ≤ b.2) && decide (b.2 < a.2.2.1 + a.2.2.2) then
        b.1.set (wellSlot e.word + t) (blocks.getD (if bcast then 0 else b.2 - a.2.2.1) .zero)
      else b.1
    (d.1, { x with bufs := bufs }, r.lose d.2.2)

/-- The partial sums of a row and a vector (R337, R344). -/
def State.partials (s : State) (h c : Nat) (y : Core) (e : Entry) (r : Run) (k : Nat) : State × Option (List EP128) × Run :=
  match feedPart e.word with
  | none => (s, none, r)
  | some q =>
    let img := if (feedStream e.word).isSome then e.img2 else e.img1
    let d := s.ringRead h c (streamOf img) ((streamOf (y.gq q)).head.toNat + 1024 * k) 1024
    (d.1, some ((codesOf 256 d.2.1).map EP128.ofImage), r.lose d.2.2)

/-- The faults that meet the next products of a well. -/
def Rect.faultsAt (x : Rect) (r c : Nat) : List (Nat × Int) :=
  (x.faults.filter fun f => f.1 == r && f.2.1 == c).map fun f => f.2.2

/-- A vector runs through a row (R334 to R337). -/
def Rect.chain (x : Rect) (r c n slot : Nat) (p : Option (List EP128)) : Chain :=
  let seg (j : Nat) := if x.ql r c then j / 8 else 0
  (List.range n).foldl (fun k j => k.add (seg (c + j)) (x.row r) (x.live r (c + j)) (x.buf (c + j) slot) (x.faultsAt r (c + j)))
    (.start (seg c) p)

/-- An arrival at a cistern (R338): the slot, and whether C and U agree. -/
def Rect.arrive (x : Rect) (r c n slot : Nat) (p : Option (List EP128)) : Rect × Bool × Nat × Nat :=
  let k := x.chain r c n slot p
  let mix := (List.range n).any fun j => x.ql r (c + j) != x.ql r c
  let row := x.row r
  let y := if row.rdb then ({ x.slot r slot with errs := [] }, 0, 0) else (x.slot r slot).read
  let heads := (List.range 16).map fun g => x.live r (8 * g)
  ({ x.setSlot r slot (y.1.combine (x.ql r c) mix row.rdb k heads) with
      faults := if row.mlb then x.faults else x.faults.filter fun f => !(f.1 == r && decide (c ≤ f.2.1 ∧ f.2.1 < c + n)) },
    k.c == k.u, y.2.1, y.2.2)

/-- The next arrival of a Running wfeed (R338): vector after vector, row after row. -/
def State.arrival (s : State) (h : Nat) : State :=
  match s.core? h 0, s.rect? h with
  | some y, some x =>
    match (y.head .well).bind fun e => (e.run).map fun r => (e, r) with
    | none => s
    | some (e, r) =>
      let a := wellArea e.word
      let t := r.pos / a.2.1
      let i := r.pos % a.2.1
      let used := x.actives (x.used e.word)
      match e.word with
      | .wfeed _ _ _ _ _ _ =>
        if wellCount e.word * a.2.1 ≤ r.pos ∨ r.stop ∨ s.wellRingsHeld h 0 y e.word ∨
            (r.pos = 0 ∧ used.any fun p => (((x.well p.1 p.2.1).latch p.2.2).fill).isSome) then s
        else
          let z := if r.pos = 0 then x.report used else (x, 0, 0)
          let r1 := { r with units := r.units + z.2.1, poisoned := r.poisoned + z.2.2 }
          let j := if i = 0 then s.inject h 0 y z.1 e r1 t else (s, z.1, r1)
          let p := j.1.partials h 0 y e j.2.2 r.pos
          let b := j.2.1.arrive (a.1 + i) a.2.2.1 a.2.2.2 (wellSlot e.word + t) p.2.1
          let q := b.1.place (a.1 + i) (b.1.bufs.length - 1)
          let u := (p.1.putRect b.1).setRun h 0 .well fun _ => { p.2.2 with
            pos := r.pos + 1
            units := p.2.2.units + b.2.2.1
            rows := if b.2.1 || p.2.2.rows.contains (a.1 + i) then p.2.2.rows else p.2.2.rows ++ [a.1 + i] }
          if b.2.2 = (0, 0) then u else u.bump (.cistern q.1 (b.1.row0 + a.1 + i)) b.2.2.1 b.2.2.2
      | _ => s
  | _, _ => s

/-- Whether a core runs a wfeed. -/
def Core.feeds (c : Core) : Bool :=
  match c.head .well with
  | some e => match e.word with
    | .wfeed _ _ _ _ _ _ => e.run.isSome
    | _ => false
  | none => false

/-- CISTERN_ARRIVAL (R338), the old context's first (R411). -/
def execCisternArrival (herd : Nat) (s : State) : Out :=
  s.onCore herd 0 fun _ => .next (s.either herd 0 Core.feeds fun t => t.arrival herd)

/-! ## Completing (R344, R345, R348) -/

/-- The first completion action of a wfeed (R344). -/
def popFeeds (i : Instr) (c : Core) : Core :=
  let x := match feedStream i with
    | some (q, _) => c.popRing q (feedBytes i)
    | none => c
  match feedPart i with
  | some q => x.popRing q (partBytes i)
  | none => x

/-- Bytes that a word writes. -/
def wellWritten (i : Instr) : Nat :=
  match i with
  | .wchk _ _ _ _ => wellBlock i
  | _ => drainBytes i

/-- A well entry completes. -/
def State.wellDone (s : State) (h c : Nat) (e : Entry) (r : Run) : State :=
  (s.modCore h c (popFeeds e.word)).complete h c .well e r.final
    (match r.final with
      | .ok => wellWritten e.word
      | .eccZeroed | .scalePoison | .checksumMismatch => r.detail 0
      | _ => 0) 0 (wellBytes e.word)

/-- A wswap whose latches have no fill pending makes them active and reports their errors (R345, R347). -/
def State.endSwap (s : State) (h c : Nat) (e : Entry) (r : Run) (li : Bool) (x : Rect) : State :=
  let ws := wellsOf e.word
  if ws.any fun p => (((x.well p.1 p.2).latch li).fill).isSome then s
  else
    let y := (ws.foldl (fun z p => z.modWell p.1 p.2 fun w => { w with active := li }) x).report (ws.map fun p => (p.1, p.2, li))
    (s.putRect y.1).wellDone h c e { r with units := r.units + y.2.1, poisoned := r.poisoned + y.2.2 }

/-- One slot is drained and cleared: its bytes, whether they are undefined, whether it was tainted, and its errors (R340,
R348). -/
def Rect.drain (x : Rect) (r k : Nat) (kind : DrainKind) (sat : Bool) : Rect × List Byte × Bool × Bool × Nat × Nat :=
  let y := (x.slot r k).read
  (x.setSlot r k .fresh, y.1.drain (x.row r) kind sat, y.1.undef, y.1.taint, y.2)

/-- A wdrain writes its outputs (R340, R344, R348), once its ring can be reached (R414). -/
def State.endDrain (s : State) (h c : Nat) (e : Entry) (r : Run) (q : BitVec 4) (kind : DrainKind) (sat : Bool)
    (y : Core) (x : Rect) : State :=
  let a := wellArea e.word
  let st := streamOf e.img1
  let n := 32 * drainKindBytes kind
  let tail := (streamOf (y.gq q)).tail.toNat
  let places := (List.range (wellCount e.word)).flatMap fun t => (List.range a.2.1).map fun i => (t, i)
  let die := (x.place 0 (x.bufs.length - 1)).1
  let z := places.zipIdx.foldl (fun (z : State × Rect × Run) p =>
    let d := z.2.1.drain (a.1 + p.1.2) (wellSlot e.word + p.1.1) kind sat
    let t := z.1.ringWrite h c st (tail + n * p.2) d.2.1
    let u := if d.2.2.1 then t.ringForget h c st (tail + n * p.2) n else t
    (if d.2.2.2.2 = (0, 0) then u else u.bump (.cistern die (x.row0 + a.1 + p.1.2)) d.2.2.2.2.1 d.2.2.2.2.2, d.1,
      { z.2.2 with
        units := z.2.2.units + d.2.2.2.2.1
        rows := if d.2.2.2.1 ∧ z.2.2.rows.contains (a.1 + p.1.2) = false then z.2.2.rows ++ [a.1 + p.1.2] else z.2.2.rows }))
    (s, x, r)
  let u := z.1.putRect z.2.1
  if s.wellRingsHeld h c y e.word then s
  else if z.2.2.rows.isEmpty then
    ((u.ringClash h c q st tail (drainBytes e.word)).modCore h c fun w => w.pushRing q (drainBytes e.word)).wellDone h c e z.2.2
  else (u.ringForget h c st tail (drainBytes e.word)).wellDone h c e z.2.2

/-- A wpipe sets its rows (R341, R345), alpha and beta from the bytes of its block. -/
def Rect.pipe (x : Rect) (i : Instr) (bs : Option (List Byte)) : Rect :=
  match i with
  | .wpipe _ _ fn _ dqb mlb rdb =>
    let a := wellArea i
    (List.range a.2.1).foldl (fun y k => y.modRow (a.1 + k) fun r =>
      let w := (bs.map fun b => codesOf 32 ((b.drop (256 * k)).take 256))
      { r with
        fn := fn, dqb := dqb, mlb := mlb, rdb := rdb
        alpha := (w.map fun w => (List.range 32).map fun n => w.getD (2 * n) 0).getD (.replicate 32 0x3F800000)
        beta := (w.map fun w => (List.range 32).map fun n => w.getD (2 * n + 1) 0).getD (.replicate 32 0) }) x
  | _ => x

/-- A wpipe completes; a block that can no longer be reached gives free values (log 33). -/
def State.endPipe (s : State) (h c : Nat) (e : Entry) (r : Run) (x : Rect) : State :=
  if wellBlock e.word = 0 then (s.putRect (x.pipe e.word none)).wellDone h c e r
  else match s.reach h c e.user e.scal ⟨wellBlock e.word, 8, false, true⟩ with
    | (_, .wait) => s
    | (t, .at_ _ (.loc l _)) =>
      let d := t.engineRead l (wellBlock e.word)
      (d.1.putRect (x.pipe e.word (some d.2.1))).wellDone h c e { r with units := r.units + d.2.2 }
    | (t, _) =>
      ({ t with fv := t.fv + 1 }.putRect
        (x.pipe e.word (some ((List.range (wellBlock e.word)).map (Config.freeByte t.fv))))).wellDone h c e r

/-- The bitmap of a row, and the wells that failed (R348). -/
def Rect.checkRow (x : Rect) (r c n slot : Nat) : Nat × List (Nat × Nat) :=
  let bad := (List.range n).filter fun j => wellFails (x.row r) (x.live r (c + j)) (x.buf (c + j) slot) (x.faultsAt r (c + j))
  ((bad.map (2 ^ ·)).sum, bad.map fun j => x.place r (c + j))

/-- A wchk completes (R348). -/
def State.endCheck (s : State) (h c : Nat) (e : Entry) (r : Run) (x : Rect) : State :=
  let a := wellArea e.word
  let used := wellsOf e.word
  if used.any fun p => ((x.live p.1 p.2).fill).isSome then s
  else match s.reach h c e.user e.scal ⟨wellBlock e.word, 8, true, false⟩ with
    | (_, .wait) => s
    | (t, d) =>
      let z := x.report (x.actives used)
      let rs := (List.range a.2.1).map fun k => z.1.checkRow (a.1 + k) a.2.2.1 a.2.2.2 (wellSlot e.word)
      let y := { z.1 with faults := z.1.faults.filter fun f => !used.contains (f.1, f.2.1) }
      let u := match d with
        | .at_ _ (.loc l _) => t.writeLoc l (rs.flatMap fun q => leBytes 16 q.1)
        | _ => t
      (((rs.flatMap Prod.snd).foldl (fun (v : State) q => v.bump (.unit (.well q.1 q.2)) 1 0) u).putRect y).wellDone h c e { r with
        units := r.units + z.2.1
        poisoned := r.poisoned + z.2.2
        rows := ((List.range a.2.1).filter fun k => decide ((rs.getD k (0, [])).1 ≠ 0)) }

/-- A well entry goes on to its end, unless it has to wait (R345). -/
def State.endWell (s : State) (h c : Nat) (e : Entry) (r : Run) : State :=
  match s.core? h c, s.rect? h with
  | some y, some x =>
    match e.word with
    | .wload _ _ _ _ _ =>
      let z := s.loadOn h e r.reads
      if z.2.isEmpty then z.1.wellDone h c e { r with reads := [] }
      else z.1.setRun h c .well fun q => { q with reads := z.2 }
    | .wswap _ _ li => s.endSwap h c e r li x
    | .wfeed _ _ _ _ _ _ => if r.pos < wellCount e.word * (wellArea e.word).2.1 then s else s.wellDone h c e r
    | .wdrain _ _ q _ _ kind sat => s.endDrain h c e r q kind sat y x
    | .wmode _ _ fmt tr =>
      let a := wellArea e.word
      (s.putRect ((List.range a.2.1).foldl (fun z k => z.modRow (a.1 + k) fun q => { q with fmt := fmt, tr := tr }) x)).wellDone
        h c e r
    | .wpipe _ _ _ _ _ _ _ => s.endPipe h c e r x
    | .wchk _ _ _ _ => s.endCheck h c e r x
    | _ => s
  | _, _ => s

/-- A thermal emergency stops a Running well entry (R348, R443): the slots that a wfeed had reached, and the bytes of a wdrain,
are undefined. -/
def State.stopWell (s : State) (h c : Nat) (e : Entry) (r : Run) (st : EStatus) : State :=
  let a := wellArea e.word
  let q := { r with status := r.status.worse st }
  match e.word, s.rect? h, s.core? h c with
  | .wfeed _ _ _ _ _ _, some x, _ =>
    (s.putRect ((List.range r.pos).foldl (fun z k =>
      z.setSlot (a.1 + k % a.2.1) (wellSlot e.word + k / a.2.1)
        { z.slot (a.1 + k % a.2.1) (wellSlot e.word + k / a.2.1) with undef := true }) x)).wellDone h c e q
  | .wdrain _ _ n _ _ _ _, _, some y =>
    (s.ringForget h c (streamOf e.img1) (streamOf (y.gq n)).tail.toNat (drainBytes e.word)).wellDone h c e q
  | _, _, _ => s.wellDone h c e q

/-! ## Errors that arise (R338, R339; log 17, log 30) -/

/-- Replace the rectangle of a node. -/
def State.modRect (s : State) (lseq node : Nat) (f : Rect → Rect) : State :=
  { s with rects := s.rects.map fun x => if x.isOf lseq node then f x else x }

/-- An error arises in a cistern sum. -/
def State.cisternUpset (s : State) (lseq node row slot n : Nat) (k : ErrKind) : State :=
  s.modRect lseq node fun x => x.setSlot row slot { x.slot row slot with errs := (x.slot row slot).errs ++ [(n, k)] }

/-- A multiplier fault is to meet a well's next product. -/
def State.wellFault (s : State) (lseq node row col n : Nat) (d : Int) : State :=
  s.modRect lseq node fun x => { x with faults := x.faults ++ [(row, col, n, d)] }

end Sys2Proof.Machine
end

