-- ==== Sys2Proof/Machine/EngineRun.lean ====
section
/-! DEFINITION. Starting, completing and stopping engine entries (spec/07_scalar_and_issue.md R171, R172, R175, R178;
spec/16_retirement_and_health.md R443). -/

namespace Sys2Proof.Machine

/-- ENGINE_ENTRY_START (R172). -/
def execEngineEntryStart (herd core : Nat) (eng : Engine) (s : State) : Out :=
  s.onCore herd core fun _ => .next (match eng with
    | .pump => s.startPump herd core
    | .matrix => s.startMatrix herd core
    | .well => s.startWell herd core
    | .coll => s.startColl herd core)

/-- A Running entry goes on to its completion (R178). One that a pcancel stopped waits for the acknowledgement (R274). -/
def State.endRun (s : State) (h c : Nat) (g : Engine) (e : Entry) (r : Run) : State :=
  if r.stop then s
  else match g with
    | .pump => s.endPump h c e r
    | .matrix => s.endMatrix h c e r
    | .well => s.endWell h c e r
    | .coll => s.endColl h c e

/-- The bytes that an entry cancelled before it ran brings to a barrier: those of a pump word, but for a discarded one (R373). -/
def Entry.idleBytes (c : Core) (e : Entry) : Nat :=
  if e.outcome = some true then ((pumpJob c e).map PJob.bytes).getD 0 else 0

/-- The completion of an entry that performs no operation: discarded, or cancelled before it ran (R175, R182, R274). -/
def State.completeIdle (s : State) (h c : Nat) (g : Engine) (x : Core) (e : Entry) : State :=
  s.complete h c g e (if e.cancel then .cancelled else .ok) 0 0 (e.idleBytes x)

/-- Whether the head of an engine's queue is Running or Completing (R171). -/
def Core.ending (g : Engine) (c : Core) : Bool := c.runs g || (c.head g).map Entry.step == some .discarded

/-- The head of an engine's queue completes, if it runs or is discarded (R175, R178). -/
def State.endEntry (s : State) (h c : Nat) (g : Engine) : State :=
  match (s.core? h c).bind fun x => (x.head g).map fun e => (x, e) with
  | none => s
  | some (x, e) =>
    if !s.mayEnd h e then s
    else match e.run with
      | some r => s.endRun h c g e r
      | none => if e.step = .discarded then s.completeIdle h c g x e else s

/-- ENGINE_ENTRY_COMPLETION (R178), the old context's entry first (R185, R412). A context that is being restored waits. -/
def execEngineEntryCompletion (herd core : Nat) (eng : Engine) (s : State) : Out :=
  s.onCore herd core fun c => .next (
    if s.oldHas herd core (Core.ending eng) then s.inOld herd fun t => t.endEntry herd core eng
    else if c.runs eng || !c.swapped then s.endEntry herd core eng
    else s)

/-- The Running entry of an engine stops with a status (R443); a pcancel that waits for it is answered (R274). -/
def State.stopRun (s : State) (h c : Nat) (g : Engine) (st : EStatus) : State :=
  match (s.core? h c).bind fun x => (x.head g).bind fun e => (e.run).map fun r => (e, r) with
  | none => s
  | some (e, r) => match g with
    | .pump => (s.stopPump h c e r st).modCore h c fun x => x.answerCancel e.handle 0
    | .matrix => s.stopMatrix h c e r st
    | .well => s.stopWell h c e r st
    | .coll => s.stopColl h c e r st

/-- The Running well entry of a herd's driver core uses a well of a zone. -/
def State.feedsZone (s : State) (h die zone : Nat) : Bool :=
  match (s.core? h 0).bind fun x => x.head .well, s.rect? h with
  | some e, some x => e.run.isSome && (x.usedBy e.word).any fun p =>
      let q := x.place p.1 p.2
      q.1 == die && zoneOf q.2 == zone
  | _, _ => false

/-- The engines of a zone stop (R443): its herd's own, and every windlass entry that uses a well of it. -/
def State.stopZone (s : State) (die zone : Nat) : State :=
  let h := 16 * die + zone
  let t := s.inBoth h fun t => (List.range 8).foldl (fun u c =>
    [Engine.pump, .matrix, .well, .coll].foldl (fun v g => v.stopRun h c g .thermalAbort) u) t
  (List.range t.herds.length).foldl (fun u i =>
    u.inBoth i fun v => if v.feedsZone i die zone then v.stopRun i 0 .well .thermalAbort else v) t

end Sys2Proof.Machine
end

