-- ==== Sys2Proof/Machine/Units.lean ====
section
/-! DEFINITION. Units: what a node needs of them, their retirement, and heat (spec/04_placement.md R87, R91, R93, R100 to R102;
spec/09_memory_spaces.md R230 to R232; spec/16_retirement_and_health.md R435 to R441, R445, R446). -/

namespace Sys2Proof.Machine

/-! ## Eligibility (R93, R100) -/

/-- The scratchpad bytes that a herd advertises (R100, R231). -/
def Herd.capacity (x : Herd) : Nat :=
  x.phys.foldl (fun m p => min m p.capacity) Config.scratchBytes

/-- Whether a herd is eligible for a node (R100). -/
def State.eligible (s : State) (hd : Header) (h : Nat) : Bool :=
  match s.herds[h]? with
  | some x => !x.retired && decide (hd.fp * 4096 ≤ x.capacity) && (!hd.matrix || x.mstate == 0)
  | none => false

/-- The difference of two numbers. -/
def dist (a b : Nat) : Nat := (a - b) + (b - a)

/-- Boundaries between two logical dies (R9). -/
def boundaries (a b : Nat) : Nat := dist (a / 4) (b / 4) + dist (a % 4) (b % 4)

/-- Herds by their distance from a die (R93). -/
def herdOrder (die : Nat) : List Nat :=
  (List.range 5).flatMap fun k => ((List.range 8).filter fun d => boundaries die d == k).flatMap fun d =>
    (List.range 16).map fun i => 16 * d + i

/-- The herds that a node may take, in the order of R93. -/
def Node.candidates (n : Node) : List Nat :=
  match n.kind with
  | .herd => if n.hdr.reloc then herdOrder n.die else (List.range n.hdr.gang).map (n.hdr.base + ·)
  | .well =>
    if n.hdr.reloc then (List.range 16).map (16 * n.hdr.wdie + ·)
    else if n.hdr.base / 16 = n.hdr.wdie then [n.hdr.base] else []
  | .copy => []

/-- The herds that a node takes of those with a property, and whether it finds as many as it needs. -/
def State.chooseHerds (s : State) (n : Node) (ok : Nat → Bool) : List Nat × Bool :=
  let hs := (n.candidates.filter fun h => s.eligible n.hdr h && ok h).take n.hdr.gang
  (hs, decide (hs.length = n.hdr.gang))

/-- Whether a rectangle contains a well, by die and number (R33). -/
def Header.hasWell (hd : Header) (die well : Nat) : Bool :=
  let col := 32 * (die - hd.wdie) + well % 32
  decide (hd.wdie ≤ die ∧ die / 4 = hd.wdie / 4 ∧ hd.row0 ≤ well / 32 ∧ well / 32 < hd.row0 + hd.rows ∧
    hd.col0 ≤ col ∧ col < hd.col0 + hd.cols)

/-- Whether every well of a rectangle is in service (R436). -/
def State.wellsUp (s : State) (hd : Header) : Bool :=
  s.dies.zipIdx.all fun d => d.1.wellsOut.all fun w => !hd.hasWell d.2 w

/-- Whether some advertised units can satisfy a node (R87). -/
def State.satisfiable (s : State) (n : Node) : Bool :=
  match n.kind with
  | .herd => (s.chooseHerds n fun _ => true).2
  | .well => s.wellsUp n.hdr && (s.chooseHerds n fun _ => true).2
  | .copy => match s.dies[n.die]? with
    | some d => (List.range 4).any fun p => !d.pumpsOut.contains p
    | none => false

/-! ## Abandonment (R102) -/

/-- States of a node that has no executors. -/
def NodeState.pooled : NodeState → Bool
  | .waiting | .ready | .reserving => true
  | _ => false

/-- States of a node that holds executors. -/
def NodeState.onUnits : NodeState → Bool
  | .running | .triggered => true
  | _ => false

/-- A launch that is abandoned goes once none of its nodes runs any more, or waits after a rotation to run on (R102). -/
def State.dropAbandoned (s : State) : State :=
  s.modTahr fun t => { t with
    launches := t.launches.filter fun l => !l.abandoned || l.nodes.any fun n => n.state.onUnits || n.state.pooled }

/-- The rectangle of a node goes, and its wells' open rows close (R330, R429). -/
def State.dropRect (s : State) (lseq node : Nat) : State :=
  match s.rects.find? fun x => x.isOf lseq node with
  | none => s
  | some x =>
    { s with
      rects := s.rects.filter fun y => !y.isOf lseq node
      dies := s.dies.zipIdx.map fun d => { d.1 with
        openRows := d.1.openRows.filter fun r => (x.locate d.2 r.well).isNone } }

/-- The nodes of a launch that stand in a pool lose the rectangles that a rotation left them (R102, R103). -/
def State.dropPooled (s : State) (l : Launch) : State :=
  l.nodes.zipIdx.foldl (fun t n => if n.1.state.pooled then t.dropRect l.lseq n.2 else t) s

/-- Firmware abandons a launch for a node (R102). A queue that has stopped already keeps its status and detail (log 60). -/
def State.abandon (s : State) (l : Launch) (i : Nat) (n : Node) : State :=
  let u := ((s.dropPooled l).modLaunch l.lseq fun x => { x with
    abandoned := true
    nodes := x.nodes.map fun m => if m.state.pooled then { m with state := .removed, herds := [] } else m }).dropAbandoned
  if ((u.queue? l.qid).map Queue.status) = some 0 then
    u.stopQueue l.qid (if n.kind = .well then .unavailableRectangle else .unplaceable) (valueDetail i)
  else u

/-- Every launch with a node that no advertised units can satisfy is abandoned (R102); of one abandoned before, a rotated node
that has become such is removed as well. -/
def State.recheck (s : State) : State :=
  s.tahr.launches.foldl (fun t l =>
    match l.nodes.zipIdx.find? fun n => n.1.state.pooled && !t.satisfiable n.1 with
    | some n => t.abandon l n.2 n.1
    | none => t) s

/-! ## Retirement of units (R230, R231, R435 to R437) -/

/-- Replace the physical side of a core. -/
def State.modPhys (s : State) (h c : Nat) (f : CorePhys → CorePhys) : State :=
  s.modHerd h fun x => { x with phys := x.phys.modify c f }

/-- The log entry of a retirement (R434 kind 2). -/
def State.logRetired (s : State) (die qid unit number core bank value : Nat) : State :=
  s.record die 2 qid (.ofNat 64 (unit + 2 ^ 4 * number + 2 ^ 14 * core + 2 ^ 17 * bank)) (.ofNat 64 value) 0

/-- The queue of the work that a herd runs. -/
def State.herdQid (s : State) (h : Nat) : Nat := ((s.ctx? h).map s.qidOf).getD 0xFFF

/-- The queue of the work that holds a well (R434). -/
def State.wellQid (s : State) (die well : Nat) : Nat :=
  (((s.rects.find? fun x => (x.locate die well).isSome).bind fun x => s.launch? x.lseq).map Launch.qid).getD 0xFFF

/-- The queue of the copy that a die pump runs (R434). -/
def State.pumpQid (s : State) (die pump : Nat) : Nat :=
  ((s.nodes.find? fun x => x.2.2.kind == .copy && x.2.2.state.onUnits && x.2.2.die == die && x.2.2.pump == some pump).map
    fun x => x.1.qid).getD 0xFFF

/-- A core's redirection takes in all its retired groups (R231). -/
def CorePhys.settled (p : CorePhys) : CorePhys := { p with moved := p.deadGroups }

/-- An error of a scratchpad row stays in its bank: after a redirection it stands at the addresses that then lie there (R232). -/
def ErrMark.moved (h : Nat) (x : Herd) (e : ErrMark) : List ErrMark :=
  let a := e.row * 16 - 2 ^ 42
  if isScratch (e.row * 16) ∧ a / 2 ^ 23 = h then
    match x.phys[a / 2 ^ 20 % 8]? with
    | some p =>
      let q := p.position (a % 2 ^ 20)
      (p.settled.addresses q.1 q.2).map fun b => { e with row := scratchLoc h (a / 2 ^ 20 % 8) b / 16 }
    | none => [e]
  else [e]

/-- Redirection comes into force for the cores of a herd that holds no node (R231, R232). -/
def State.redirect (s : State) (h : Nat) : State :=
  match s.herds[h]? with
  | some x =>
    if x.act.held.isNone && x.old.isNone && x.phys.any fun p => p.moved != p.deadGroups then
      { s.modHerd h fun y => { y with phys := y.phys.map CorePhys.settled } with marks := s.marks.flatMap (ErrMark.moved h x) }
    else s
  | none => s

/-- A herd retires (R435). -/
def State.retireHerd (s : State) (h value : Nat) : State :=
  (s.modHerd h fun x => { x with retired := true }).logRetired (h / 16) (s.herdQid h) 3 h 0 0 value

/-- A parity group retires (R231); a core's fourth one retires its herd (R435). -/
def State.retireGroup (s : State) (h c g value : Nat) : State :=
  let t := (((s.modPhys h c fun p => { p with groups := p.groups.modify g fun y => { y with dead := true, rebuild := none } }).redirect
    h).logRetired (h / 16) (s.herdQid h) 2 h c g value).notify h (List.range 8) 1
  let n := (((t.herds[h]?).bind fun x => x.phys[c]?).map fun p => p.deadGroups.length).getD 0
  if 4 ≤ n ∧ ((t.herds[h]?).map Herd.retired) = some false then t.retireHerd h n else t

/-- The group of a bank of a core. -/
def State.group? (s : State) (h c g : Nat) : Option Group :=
  ((s.herds[h]?).bind fun x => x.phys[c]?).bind fun p => p.groups[g]?

/-- Whether a group has lost a bank already. -/
def Group.weak (g : Group) : Bool := g.degraded || !g.lostBanks.isEmpty

/-- A data bank retires (R230, R231). -/
def State.retireBank (s : State) (h c b value : Nat) : State :=
  match s.group? h c (b / 4) with
  | none => s
  | some g =>
    let t := (s.modPhys h c fun p => { p with groups := p.groups.modify (b / 4) fun y =>
      { y with lostBanks := b :: y.lostBanks, rebuild := if g.weak then none else some b } }).logRetired (h / 16) (s.herdQid h)
        0 h c b value
    if g.weak then t.retireGroup h c (b / 4) value else t

/-- A parity bank retires; 32 stands for it among a group's lost banks (R230, R231). -/
def State.retireParity (s : State) (h c g value : Nat) : State :=
  match s.group? h c g with
  | none => s
  | some y =>
    let t := (s.modPhys h c fun p => { p with
      groups := p.groups.modify g fun y => { y with lostBanks := 32 :: y.lostBanks, degraded := true }
      stale := p.stale.filter fun x => x.1 != g
      perrs := p.perrs.filter fun x => x.1.1 != g }).logRetired (h / 16) (s.herdQid h) 1 h c g value
    if y.weak then t.retireGroup h c g value else t

/-- A unit retires. -/
def State.retireUnit (s : State) (u : UnitId) (value : Nat) : State :=
  match u with
  | .dataBank h c b => s.retireBank h c b value
  | .parityBank h c g => s.retireParity h c g value
  | .herd h => s.retireHerd h value
  | .matrix h => s.matrixOut h 2 value
  | .well d w => (s.modDie d fun x => { x with wellsOut := w :: x.wellsOut }).logRetired d (s.wellQid d w) 5 w 0 0 value
  | .diePump d p => (s.modDie d fun x => { x with pumpsOut := p :: x.pumpsOut }).logRetired d (s.pumpQid d p) 6 0 0 p value

/-- Whether the part has a unit. -/
def State.hasUnit (s : State) : UnitId → Bool
  | .dataBank h c b => decide (h < s.herds.length ∧ c < 8 ∧ b < 32)
  | .parityBank h c g => decide (h < s.herds.length ∧ c < 8 ∧ g < 8)
  | .herd h | .matrix h => decide (h < s.herds.length)
  | .well d w => decide (d < s.dies.length ∧ w < 1024)
  | .diePump d p => decide (d < s.dies.length ∧ p < 4)

/-- Whether a unit is retired already. -/
def State.unitOut (s : State) : UnitId → Bool
  | .dataBank h c b => ((s.group? h c (b / 4)).map fun g => g.dead || g.lostBanks.contains b).getD true
  | .parityBank h c g => ((s.group? h c g).map fun y => y.dead || y.lostBanks.contains 32).getD true
  | .herd h => ((s.herds[h]?).map Herd.retired).getD true
  | .matrix h => ((s.herds[h]?).map fun x => x.mstate == 2).getD true
  | .well d w => ((s.dies[d]?).map fun x => x.wellsOut.contains w).getD true
  | .diePump d p => ((s.dies[d]?).map fun x => x.pumpsOut.contains p).getD true

/-- The counter value at which a unit has to retire, if it has reached it (R435). -/
def State.reached (s : State) (u : UnitId) : Option Nat :=
  let k := s.counter (.unit u)
  match u with
  | .dataBank _ _ _ | .parityBank _ _ _ =>
    if 2 ≤ k.unc then some k.unc else if 4096 ≤ k.cor then some k.cor else none
  | .herd _ => if 1 ≤ k.unc then some k.unc else none
  | .matrix _ | .diePump _ _ => if 3 ≤ k.unc then some k.unc else none
  | .well d w =>
    let b := (s.counter (.beats d w)).unc
    if 3 ≤ k.unc then some k.unc else if 16 ≤ b then some b else none

/-- Whether bring-up tests the units (R448). -/
def Tahr.testing (t : Tahr) : Bool := !t.ready && !t.fatal && !t.warm

/-- Whether bring-up tests a unit (R448). -/
def unitTested : UnitId → Bool
  | .dataBank _ _ _ | .parityBank _ _ _ | .matrix _ | .well _ _ => true
  | _ => false

/-- UNIT_RETIREMENT (R435): at its threshold, or when it fails its test at bring-up (R448). What can no longer be placed is
abandoned (R102). -/
def execUnitRetirement (unit : UnitId) (s : State) : Out :=
  if !s.hasUnit unit then .fault .noSuchUnit
  else .next (if s.unitOut unit || !s.powered then s
    else match s.reached unit with
      | some v => (s.retireUnit unit v).recheck
      | none => if s.tahr.testing && unitTested unit then s.retireUnit unit 0 else s)

/-! ## Heat (R438 to R441, R445, R446) -/

/-- The state of a zone after a sample (R439). -/
def nextZone (temp state : Nat) : Nat :=
  if 105 < temp then 3
  else match state with
    | 0 => if 85 < temp then 1 else 0
    | 1 => if 95 < temp then 2 else if temp ≤ 82 then 0 else 1
    | 2 => if temp ≤ 92 then 1 else 2
    | _ => if temp ≤ 100 then 2 else 3

/-- The budget cap of a zone's state (R439). -/
def zoneCap : Nat → Nat
  | 0 => 15 | 1 => 7 | 2 => 3 | _ => 0

/-- One zone is sampled: its state, its herd's count of hot samples, the log, and the stop of its engines to come (R434, R438,
R439, R443, R444). -/
def State.sampleZone (s : State) (die zone temp : Nat) : State :=
  match (s.dies[die]?).bind fun d => d.zones[zone]? with
  | none => s
  | some z =>
    let n := nextZone temp z.state
    let t := (s.modDie die fun d => { d with
      zones := d.zones.set zone ⟨temp, n⟩
      stops := if n = 3 ∧ z.state ≠ 3 then zone :: d.stops else d.stops }).modHerd (16 * die + zone) fun x =>
        { x with hot := if n = 0 then 0 else x.hot + 1 }
    if n = z.state then t
    else t.record die 6 0xFFF (.ofNat 64 (zone + 2 ^ 4 * z.state + 2 ^ 6 * n + 2 ^ 8 * min temp 255)) 0 0

/-- The measurements of module power that the envelope averages: 1,048,576 ck of samples 1,024 ck apart (R438, R445). -/
def powerWindow (old : List Nat) (x : Sample) : List Nat := (x.power :: old).take 1024

/-- The module allowance after a sample, by the average of some measurements in milliwatts (R445): it falls above 6.0 kW and rises below
5.7 kW. An inlet above 45 degrees sets it to 7 (R446). Fewer samples than the window holds are averaged as they are (log 62). -/
def nextAllow (a inlet : Nat) (ps : List Nat) : Nat :=
  if 45 < inlet then 7
  else if 6000000 * ps.length < ps.sum then a - 1
  else if ps.sum < 5700000 * ps.length then min 15 (a + 1)
  else a

/-- SENSOR_SAMPLE (R438). -/
def execSensorSample (sample : Sample) (s : State) : Out :=
  .next (if !s.powered then s
    else ((List.range s.dies.length).foldl (fun t d => (List.range 16).foldl (fun u z =>
      match (sample.temps.getD d [])[z]? with
      | some x => u.sampleZone d z x
      | none => u) t) s).modTahr fun t => { t with
        power := powerWindow t.power sample, allow := nextAllow t.allow sample.inlet (powerWindow t.power sample) })

/-- XTHERM_UPDATE (R441). -/
def execXthermUpdate (die : Nat) (s : State) : Out :=
  if s.dies.length ≤ die then .fault .noSuchUnit
  else .next (if s.powered then s.modDie die fun d => { d with
    budgets := d.zones.map fun z => min (min (zoneCap z.state) s.tahr.allow) 15 } else s)

end Sys2Proof.Machine
end

