-- ==== Sys2Proof/Machine/Place.lean ====
section
/-! DEFINITION. The ready pools: the order of dispatch, claims, and placing a node (spec/04_placement.md R89 to R95, R103; R41 and
R154 for the state at entry). -/

namespace Sys2Proof.Machine

/-! ## Entry state (R41, R94, R154, R449) -/

/-- The record in b15 at entry (R449). -/
def imageRecord (base : Word) : Image := .ofNat 256 (base.toNat + (2 ^ 32 - 1) * 2 ^ 64 + 3 * 2 ^ 160)

/-- A core at node entry. -/
def Core.entry (hd : Header) (image : Word) (grank c now : Nat) : Core :=
  { Core.idle with
    s := ((Core.idle.s.set 1 hd.arg).set 2 (.ofNat 64 (8 * grank + c))).set 3 (.ofNat 64 (8 * hd.gang))
    b := Core.idle.b.set 15 (imageRecord image)
    front := .attached
    pc := hd.entry.truncate 56
    issueAt := now }

/-- What a herd holds of a node. -/
def heldOf (l : Launch) (i : Nat) (n : Node) (grank : Nat) : Held where
  lseq := l.lseq
  node := i
  grank := grank
  gang := n.hdr.gang
  pasid := l.pasid
  matrix := n.hdr.matrix
  acc := n.hdr.acc
  fp := n.hdr.fp
  det := n.hdr.det
  well := n.kind == .well
  wdie := n.hdr.wdie
  row0 := n.hdr.row0
  col0 := n.hdr.col0
  rows := n.hdr.rows
  cols := n.hdr.cols

/-- Bytes of a herd's context (R418). -/
def herdBytes (hd : Header) : Nat := 8 * (40960 + 4096 * hd.fp) + 65536 * hd.acc

/-- A place further on in a save area. -/
def SaveRef.add (r : SaveRef) (n : Nat) : SaveRef :=
  match r with
  | .virt p a => .virt p (a + n)
  | .firm a o => .firm a (o + n)

/-- The context that a herd of a gang starts with: entry state, or what waits for its saved context (R94, R410, R415). -/
def startCtx (l : Launch) (i : Nat) (n : Node) (grank now : Nat) : HerdCtx :=
  match n.saved with
  | none => { HerdCtx.idle with
    held := some (heldOf l i n grank)
    cores := (List.range 8).map fun c => Core.entry n.hdr l.image grank c now
    stream := n.hdr.entry.truncate 56 }
  | some r => { HerdCtx.idle with
    held := some (heldOf l i n grank)
    cores := (List.range 8).map fun c => { Core.idle with
      saved := some (r.add (grank * herdBytes n.hdr + c * (40960 + 4096 * n.hdr.fp))), swapped := true } }

/-- Leave a range of locations undefined. -/
def State.forget (s : State) (lo hi : Nat) : State := { s with mem := s.mem.forget lo hi s.fv, fv := s.fv + 1 }

/-- Scratchpad bytes beyond the footprint of a context that still spills are undefined for the next node (R414, R429). -/
def State.vacate (s : State) (h : Nat) : State :=
  match ((s.herds[h]?).bind Herd.old).bind HerdCtx.held with
  | none => s.forget (scratchLoc h 0 0) (scratchLoc (h + 1) 0 0)
  | some n => (List.range 8).foldl (fun t c => t.forget (scratchLoc h c (n.fp * 4096)) (scratchLoc h (c + 1) 0)) s

/-! ## Executors (R91, R92) -/

/-- Whether a herd is idle. A herd that spills a context of a core with a retired group waits for the spill's end (R231). -/
def State.herdFree (s : State) (h : Nat) : Bool :=
  match s.herds[h]? with
  | some x => x.act.held.isNone && x.evict.isNone && (x.old.isNone || x.phys.all fun p => p.deadGroups.isEmpty)
  | none => false

/-- Whether a herd's zone is hot or worse (R439). -/
def State.isHot (s : State) (h : Nat) : Bool :=
  (((s.dies[h / 16]?).bind fun d => d.zones[h % 16]?).map fun z => decide (1 ≤ z.state)).getD false

/-- The well rows that a rectangle holds: dies and rows, each from and up to. -/
structure RowSpan where
  die0 : Nat
  die1 : Nat
  row0 : Nat
  row1 : Nat
  deriving DecidableEq, Repr, Inhabited

/-- Whether two rectangles share a well row of a die (R92). -/
def RowSpan.meets (a b : RowSpan) : Bool :=
  decide (a.die0 ≤ b.die1 ∧ b.die0 ≤ a.die1 ∧ a.row0 < b.row1 ∧ b.row0 < a.row1)

def Header.span (hd : Header) : RowSpan := ⟨hd.wdie, hd.wdie + (hd.col0 + hd.cols - 1) / 32, hd.row0, hd.row0 + hd.rows⟩

def Rect.span (x : Rect) : RowSpan :=
  ⟨x.die, x.die + (x.col0 + x.bufs.length - 1) / 32, x.row0, x.row0 + x.wells.length⟩

/-- Whether the rows of a well node are held by no other node and not in a list. -/
def State.rowsFree (s : State) (lseq i : Nat) (n : Node) (rows : List RowSpan) : Bool :=
  n.kind != .well || (s.wellsUp n.hdr && (s.rects.all fun x => x.isOf lseq i || !x.span.meets n.hdr.span) &&
    rows.all fun r => !r.meets n.hdr.span)

/-- An idle die pump (R91). -/
def State.freePump (s : State) (die : Nat) : Option Nat :=
  (List.range 4).find? fun p =>
    (((s.dies[die]?).map fun d => !d.pumpsOut.contains p).getD false) &&
    s.nodes.all fun x => !(x.2.2.kind == .copy && x.2.2.state.onUnits && x.2.2.die == die && x.2.2.pump == some p)

/-- Executors found for a node, and whether they are all it needs. -/
structure Fit where
  herds : List Nat
  pump  : Option Nat
  whole : Bool

/-- The herds that a rotated node may take: it passes over hot ones unless no herd that is not hot is eligible (R103). -/
def State.passes (s : State) (n : Node) (h : Nat) : Bool :=
  !n.first || !s.isHot h || !n.candidates.any fun x => s.eligible n.hdr x && !s.isHot x

/-- The executors that a node can take now, those it has claimed first; not those in the lists (R91, R93, R95). -/
def State.fit (s : State) (lseq i : Nat) (n : Node) (taken : List Nat) (rows : List RowSpan) : Fit :=
  if n.kind = .copy then
    let p := s.freePump n.die
    ⟨[], p, p.isSome⟩
  else
    let ok (h : Nat) : Bool := s.eligible n.hdr h && s.herdFree h && s.passes n h && !taken.contains h
    let kept := n.herds.filter ok
    let more := (n.candidates.filter fun h => ok h && !kept.contains h).take (n.hdr.gang - kept.length)
    let hs := if n.hdr.reloc then kept ++ more else n.candidates.filter fun h => (kept ++ more).contains h
    ⟨hs, none, decide (hs.length = n.hdr.gang) && s.rowsFree lseq i n rows⟩

/-- A node takes its executors in one step (R91, R94). -/
def State.place (s : State) (lseq i : Nat) (f : Fit) : State :=
  match s.launch? lseq, s.node? lseq i with
  | some l, some n =>
    let t := s.modNode lseq i fun x => { x with
      state := if x.saved.isSome then x.back else .running
      herds := f.herds
      pump := f.pump
      first := false
      rect := x.kind == .well
      moving := if x.saved.isSome then f.herds else []
      copied := 0
      lost := []
      stop := .ok }
    let u := if n.kind = .well ∧ t.rects.all (fun x => !x.isOf lseq i) then
        { t with rects := .entry lseq i n.hdr.wdie n.hdr.row0 n.hdr.col0 n.hdr.rows n.hdr.cols :: t.rects } else t
    f.herds.zipIdx.foldl (fun v x => (v.vacate x.1).modHerd x.1 fun y =>
      { y with act := startCtx l i n x.2 s.now }) u
  | _, _ => s

/-! ## Reserving nodes (R95) -/

/-- Insert by an order. -/
def insertBy {α : Type} (lt : α → α → Bool) (x : α) : List α → List α
  | [] => [x]
  | y :: r => if lt x y then x :: y :: r else y :: insertBy lt x r

/-- Sort by an order. -/
def sortBy {α : Type} (lt : α → α → Bool) : List α → List α
  | [] => []
  | x :: r => insertBy lt x (sortBy lt r)

/-- Lexicographic order. -/
def lexLt : List Nat → List Nat → Bool
  | a :: as, b :: bs => decide (a < b) || (a == b && lexLt as bs)
  | [], _ :: _ => true
  | _, [] => false

/-- Nodes in a state. -/
def State.nodesIn (s : State) (st : NodeState) : List (Launch × Nat × Node) := s.nodes.filter fun x => x.2.2.state == st

/-- Reserving nodes by precedence (R95); of one launch at one level the lower node index first (log 59). -/
def State.reserving (s : State) : List (Launch × Nat × Node) :=
  sortBy (fun a b => lexLt [48 - a.2.2.level, a.1.lseq, a.2.1] [48 - b.2.2.level, b.1.lseq, b.2.1]) (s.nodesIn .reserving)

/-- What the Reserving nodes of higher precedence have claimed so far. -/
structure Claims where
  st   : State
  herds : List Nat
  rows : List RowSpan

/-- One Reserving node claims what it can use; a complete set is placed at once (R95). -/
def Claims.next (x : Claims) (l : Launch) (i : Nat) (n : Node) : Claims :=
  let f := x.st.fit l.lseq i n x.herds x.rows
  if f.whole then { x with st := x.st.place l.lseq i f }
  else ⟨x.st.modNode l.lseq i fun m => { m with herds := f.herds }, x.herds ++ f.herds,
    if n.kind = .well then x.rows ++ [n.hdr.span] else x.rows⟩

/-- Idle executors go to the Reserving nodes in their order of precedence (R95). -/
def State.claimAll (s : State) : State :=
  (s.reserving.foldl (fun x n => x.next n.1 n.2.1 n.2.2) (⟨s, [], []⟩ : Claims)).st

/-- RESERVING_CLAIM (R95). -/
def execReservingClaim (s : State) : Out := .next s.recheck.claimAll

/-! ## Dispatch (R89, R90) -/

/-- Aging (R90): at a count of 64 the level rises, up to the top of its class, and the count returns to zero. -/
def Node.age (n : Node) : Node :=
  if n.state = .ready ∧ 64 ≤ n.aging then
    { n with aging := 0, level := if n.level % 12 = 11 then n.level else n.level + 1 }
  else n

/-- LEVEL_AGING (R90). -/
def execLevelAging (lseq node : Nat) (s : State) : Out := .next (s.modNode lseq node Node.age)

/-- Every node of a pool, changed. -/
def State.modPool (s : State) (die : Nat) (f : Node → Node) : State :=
  s.modTahr fun t => { t with launches := t.launches.map fun l => { l with
    nodes := l.nodes.map fun n => if n.die = die then f n else n } }

/-- The place of a Ready node in its pool's order (R89, R103). -/
def Die.order (d : Die) (l : Launch) (i : Nat) (n : Node) : List Nat :=
  [if n.first then 0 else 1, 48 - n.level, (n.slot + 63 - d.served.getD n.level 31) % 32, l.lseq, i]

/-- The Ready node that a pool chooses, of those not passed over (R89). -/
def State.bestReady (s : State) (die : Nat) (skip : List (Nat × Nat)) : Option (Launch × Nat × Node) :=
  let d := (s.dies[die]?).getD .idle
  (sortBy (fun a b => lexLt (d.order a.1 a.2.1 a.2.2) (d.order b.1 b.2.1 b.2.2))
    ((s.nodesIn .ready).filter fun x => x.2.2.die == die && x.2.2.moving.isEmpty && !skip.contains (x.1.lseq, x.2.1))).head?

/-- A pool has served a slot at a level. -/
def State.serve (s : State) (die : Nat) (n : Node) : State := s.modDie die fun d => { d with served := d.served.set n.level n.slot }

/-- A pool chooses until it has placed a node or has none left (R89, R95). Only a node placed from Ready counts as a dispatch for R90
and for the 16 ck (log 58). -/
def State.dispatch (s : State) (die : Nat) : Nat → List (Nat × Nat) → State
  | 0, _ => s
  | k + 1, skip =>
    match s.bestReady die skip with
    | none => s
    | some (l, i, n) =>
      let res := s.nodesIn .reserving
      let f := s.fit l.lseq i n (res.flatMap fun x => x.2.2.herds)
        ((res.filter fun x => x.2.2.kind == .well).map fun x => x.2.2.hdr.span)
      if f.whole then
        (((s.place l.lseq i f).serve die n).modPool die fun m =>
          if m.state = .ready ∧ m.level < n.level then { m with aging := m.aging + 1 } else m).modDie die fun d =>
            { d with nextPick := s.now + 16 }
      else if 16 ≤ (res.filter fun x => x.2.2.die == die).length then s.dispatch die k (skip ++ [(l.lseq, i)])
      else (((s.modNode l.lseq i fun m => { m with state := .reserving }).serve die n).claimAll).dispatch die k skip

/-- NODE_DISPATCH (R89). -/
def execNodeDispatch (die : Nat) (s : State) : Out :=
  match s.dies[die]? with
  | none => .fault .noSuchUnit
  | some d =>
    .next (if s.now < d.nextPick then s
      else
        let t := (s.recheck.modPool die Node.age).claimAll
        t.dispatch die (t.nodesIn .ready).length [])

end Sys2Proof.Machine
end

