-- ==== Sys2Proof/Machine/Launches.lean ====
section
/-! DEFINITION. Packets, and the reading, checking and admission of launches (spec/02_describing_work.md R38 to R44;
spec/03_launching.md R54 to R63; spec/04_placement.md R86 to R88; spec/15_interruption.md R423, R424). -/

namespace Sys2Proof.Machine

/-! ## Loading records -/

/-- How loading ends: a value, the status and detail that stop the queue, or a wait for the host. -/
inductive Load (α : Type) where
  | ok   (a : α)
  | stop (st : QStatus) (detail : Nat)
  | wait

/-- Go on with what was loaded. -/
def andThen {α β : Type} (x : State × Load α) (f : State → α → State × Load β) : State × Load β :=
  match x with
  | (s, .ok a) => f s a
  | (s, .stop st d) => (s, .stop st d)
  | (s, .wait) => (s, .wait)

/-- Bytes from an address up, those read before as they were then: the first read of each counts (R44). -/
def overlaySeen (seen : List (Nat × List Byte)) (va : Nat) (bs : List Byte) : List Byte :=
  let old := seen.filter fun e => decide (e.1 < va + bs.length ∧ va < e.1 + e.2.length)
  if old.isEmpty then bs
  else bs.zipIdx.map fun b => (old.findSome? fun e => if e.1 ≤ va + b.2 then e.2[va + b.2 - e.1]? else none).getD b.1

/-- What a queue has read of the records that its next packet names (R44). -/
def State.seenBy (s : State) (qid : Nat) : List (Nat × List Byte) := ((s.queue? qid).map Queue.seen).getD []

/-- A queue has read bytes of a record, which it does not read again for this packet (R44). -/
def State.noteSeen (s : State) (qid va : Nat) (bs : List Byte) : State :=
  s.modQueue qid fun q => { q with seen := q.seen ++ [(va, bs)] }

/-- Firmware reads what lies in one page of a record that a LAUNCH names, what it has read of it before aside (R43, R44, R82). -/
def State.recPiece (s : State) (q : Queue) (va n : Nat) (k : RecKind) (node off : Nat) : State × Load (List Byte) :=
  match s.fwRead q.pasid va n with
  | (t, .bytes bs) =>
    let xs := overlaySeen (t.seenBy q.qid) va bs
    (t.noteSeen q.qid va xs, .ok xs)
  | (t, .kind x) => (t, .stop .translation (valueDetail x))
  | (t, .error o) => (t, .stop .dataError (recordDetail k node (off + o)))
  | (t, .wait) => (t, .wait)

/-- Firmware reads a record piece by piece, so that a page it waits for makes it read no earlier piece again (R44). -/
def State.recPieces (s : State) (q : Queue) (k : RecKind) (node off : Nat) : List (Nat × Nat) → State × Load (List Byte)
  | [] => (s, .ok [])
  | (va, n) :: r =>
    andThen (s.recPiece q va n k node off) fun t xs =>
    andThen (t.recPieces q k node (off + n) r) fun u ys => (u, .ok (xs ++ ys))

/-- Firmware reads n bytes of a record that a LAUNCH names, from an offset of the record up. -/
def State.recRead (s : State) (q : Queue) (va n : Nat) (k : RecKind) (node off : Nat) : State × Load (List Byte) :=
  s.recPieces q k node off (pagePieces va n)

/-- The offset of the first doubleword that offends. -/
def firstBad (cs : List (Nat × Bool)) : Option Nat := (cs.find? fun c => c.2).map Prod.fst

/-- A record with no offending field goes on; another stops the queue with invalid_field (R43, R54). -/
def checked {α : Type} (s : State) (k : RecKind) (node : Nat) (cs : List (Nat × Bool)) (a : α) : State × Load α :=
  match firstBad cs with
  | some o => (s, .stop .invalidField (recordDetail k node o))
  | none => (s, .ok a)

/-- A pointer of one of some spaces, aligned. -/
def ptrOk (p : Word) (spaces : List Nat) (align : Nat) : Bool := spaces.contains (pSpace p) && pAddr p % align == 0

/-- An optional pointer to a barrier object (R38, R39). -/
def barOk (p : Word) : Bool := p == 0 || ptrOk p [0, 3] 16

/-- The doublewords of a 64-byte record from an offset up are reserved. -/
def reservedFrom (bs : List Byte) (lo : Nat) : List (Nat × Bool) :=
  ((List.range 8).filter fun i => decide (lo ≤ 8 * i)).map fun i => (8 * i, dwAt bs (8 * i) != 0)

/-! ## Barrier objects as firmware reaches them -/

/-- How reaching a barrier object ends. -/
inductive FwObj where
  | at_  (l : Nat)
  | kind (k : Nat)
  | bad
  | wait

/-- The object that a packet, a node or a graph names (R58). -/
def State.fwObject (s : State) (pasid : BitVec 20) (p : Word) (write : Bool) : State × FwObj :=
  if pSpace p = 0 then
    match s.fwTranslate pasid (pAddr p) write with
    | (t, .loc l _) => (t, .at_ l)
    | (t, .kind k) => (t, .kind k)
    | (t, .wait) => (t, .wait)
  else if 7 < pRank p ∨ s.dspSize (pRank p) < pAddr p + 16 then (s, .bad)
  else (s, .at_ (dspLoc (s.physDie (pRank p)) (pAddr p)))

/-- The generation tag of a node's or a graph's barrier, read with the launch (R373). A pointer that cannot be followed stops
the queue as it does for a WAIT (R58; log 74). -/
def State.loadTag (s : State) (pasid : BitVec 20) (p : Word) (detail : Nat) : State × Load Byte :=
  if p = 0 then (s, .ok 0)
  else match s.fwObject pasid p false with
    | (t, .at_ l) =>
      let r := t.homeRead l 16
      (r.1, .ok (barOf r.2).gen)
    | (t, .kind k) => (t, .stop .translation (valueDetail k))
    | (t, .bad) => (t, .stop .invalidField detail)
    | (t, .wait) => (t, .wait)

/-! ## The records (R38 to R40) -/

/-- Checks of a launch record (R38). The image base is a space-0 address aligned to 64 bytes (R26; log 52). -/
def launchChecks (bs : List Byte) : List (Nat × Bool) :=
  let n := Word.fieldAt (dwAt bs 0) 26 16
  [(0, Word.fieldAt (dwAt bs 0) 15 0 != 1 || !decide (1 ≤ n ∧ n ≤ 1024) || Word.fieldAt (dwAt bs 0) 63 27 != 0),
    (8, !ptrOk (dwAt bs 8) [0] 64), (0x10, !ptrOk (dwAt bs 0x10) [0] 64), (0x18, !barOk (dwAt bs 0x18))] ++ reservedFrom bs 0x20

/-- Whether a side of a copy breaks R43. -/
def State.badSide (s : State) (p : Word) (bytes : Nat) : Bool :=
  !([0, 3].contains (pSpace p)) || (pSpace p == 3 && decide (7 < pRank p ∨ s.dspSize (pRank p) < pAddr p + bytes))

/-- Kind of a node descriptor; 3 is rejected (R39). -/
def kindOfCode : Nat → Option NodeKind
  | 0 => some .herd | 1 => some .well | 2 => some .copy
  | _ => none

/-- Checks of a node descriptor (R39, R43). -/
def State.descChecks (s : State) (bs : List Byte) : List (Nat × Bool) :=
  let d0 := dwAt bs 0
  let n := Word.fieldAt d0 42 32
  let copy := Word.fieldAt d0 1 0 == 2
  let bytes := Word.fieldAt (dwAt bs 0x20) 39 0
  [(0, Word.fieldAt d0 1 0 == 3 || Word.fieldAt d0 7 2 != 0 || decide (1023 < Word.fieldAt d0 18 8) ||
      Word.fieldAt d0 31 22 != 0 || decide (1023 < n) || Word.fieldAt d0 63 43 != 0),
    (0x08, if n = 0 then dwAt bs 8 != 0 else !ptrOk (dwAt bs 8) [0] 2),
    (0x10, if copy then s.badSide (dwAt bs 0x10) bytes else !ptrOk (dwAt bs 0x10) [0] 64),
    (0x18, if copy then s.badSide (dwAt bs 0x18) bytes else dwAt bs 0x18 != 0),
    (0x20, if copy then bytes == 0 || Word.fieldAt (dwAt bs 0x20) 63 43 != 0 else dwAt bs 0x20 != 0),
    (0x28, !barOk (dwAt bs 0x28))] ++ reservedFrom bs 0x30

/-- The fields of a launch header (R40). -/
def headerOf (bs : List Byte) : Header :=
  let g := dwAt bs 0x10
  let w := dwAt bs 0x18
  { entry := dwAt bs 0
    arg := dwAt bs 8
    gang := Word.fieldAt g 7 0
    fp := Word.fieldAt g 16 8
    matrix := wbit g 17
    acc := Word.fieldAt g 20 18
    reloc := wbit g 21
    det := wbit g 23
    base := Word.fieldAt g 30 24
    wdie := Word.fieldAt w 2 0
    row0 := Word.fieldAt w 7 3
    col0 := Word.fieldAt w 12 8
    rows := Word.fieldAt w 18 13
    cols := Word.fieldAt w 26 19 }

/-- Checks of a launch header (R33, R37, R40). -/
def headerChecks (well : Bool) (bs : List Byte) : List (Nat × Bool) :=
  let h := headerOf bs
  [(0, !ptrOk h.entry [0] 4),
    (0x10, !decide (1 ≤ h.gang ∧ h.gang ≤ if well then 1 else 128) || decide (256 < h.fp) ||
      (if h.matrix then !decide (1 ≤ h.acc ∧ h.acc ≤ 4) else h.acc != 0) || wbit (dwAt bs 0x10) 22 ||
      (h.reloc && h.base != 0) || Word.fieldAt (dwAt bs 0x10) 63 31 != 0),
    (0x18, if well then Word.fieldAt (dwAt bs 0x18) 63 27 != 0 || !decide (1 ≤ h.rows ∧ h.rows ≤ 32 ∧ 1 ≤ h.cols ∧
        h.cols ≤ 128 ∧ h.row0 + h.rows ≤ 32 ∧ h.col0 + h.cols ≤ 32 * (4 - h.wdie % 4))
      else dwAt bs 0x18 != 0)] ++ reservedFrom bs 0x20

/-- The header of a node that has none. -/
def Header.none_ : Header where
  entry := 0
  arg := 0
  gang := 0
  fp := 0
  matrix := false
  acc := 0
  reloc := true
  det := true
  base := 0
  wdie := 0
  row0 := 0
  col0 := 0
  rows := 0
  cols := 0

/-- A node as its descriptor, header and successor list give it, at its queue's level and slot (R39, R62, R89). -/
def nodeOf (bs : List Byte) (hdr : Header) (succs : List Nat) (tag : Byte) (level slot : Nat) : Node where
  kind := (kindOfCode (Word.fieldAt (dwAt bs 0) 1 0)).getD .herd
  die := Word.fieldAt (dwAt bs 0) 21 19
  preds := Word.fieldAt (dwAt bs 0) 18 8
  succs := succs
  hdr := hdr
  src := dwAt bs 0x10
  dst := dwAt bs 0x18
  bytes := Word.fieldAt (dwAt bs 0x20) 39 0
  colour := (dwAt bs 0x20).extractLsb' 40 3
  nbar := dwAt bs 0x28
  ntag := tag
  state := if Word.fieldAt (dwAt bs 0) 18 8 = 0 then .ready else .waiting
  back := .running
  count := Word.fieldAt (dwAt bs 0) 18 8
  ntrig := false
  gdone := false
  level := level
  aging := 0
  slot := slot
  first := false
  herds := []
  rect := false
  pump := none
  saved := none
  moving := []
  turned := none
  copied := 0
  lost := []
  stop := .ok

/-- The slot number that a queue holds. -/
def State.slotNum (s : State) (qid : Nat) : Nat := (s.slotOf qid).getD 0

/-- Read the launch header of a node; a copy node has none (R39, R40, R42). -/
def State.readHeader (s : State) (q : Queue) (i : Nat) (bs : List Byte) : State × Load Header :=
  if Word.fieldAt (dwAt bs 0) 1 0 = 2 then (s, .ok .none_)
  else andThen (s.recRead q (pAddr (dwAt bs 0x10)) 64 .header i 0) fun t hs =>
    checked t .header i (headerChecks (Word.fieldAt (dwAt bs 0) 1 0 == 1) hs) (headerOf hs)

/-- Read a successor list: indices below the node count (R39, R43). -/
def State.readSuccs (s : State) (q : Queue) (i total : Nat) (bs : List Byte) : State × Load (List Nat) :=
  let n := Word.fieldAt (dwAt bs 0) 42 32
  andThen (s.recRead q (pAddr (dwAt bs 8)) (2 * n) .succ i 0) fun t xs =>
    let ss := (List.range n).map fun j => fieldAt xs (2 * j) 2
    checked t .succ i (ss.zipIdx.map fun x => (2 * x.2, decide (total ≤ x.1))) ss

/-- Read node i with its header and successors. -/
def State.readNode (s : State) (q : Queue) (table : Word) (total i : Nat) : State × Load Node :=
  andThen (s.recRead q (pAddr table + 64 * i) 64 .node i 0) fun t bs =>
  andThen (checked t .node i (t.descChecks bs) ()) fun t _ =>
  andThen (t.readHeader q i bs) fun t hdr =>
  andThen (t.readSuccs q i total bs) fun t ss =>
  andThen (t.loadTag q.pasid (dwAt bs 0x28) (recordDetail .node i 0x28)) fun t tag =>
  (t, .ok (nodeOf bs hdr ss tag q.level (t.slotNum q.qid)))

/-- Read the nodes of a list of indices. -/
def State.readNodes (s : State) (q : Queue) (table : Word) (total : Nat) : List Nat → State × Load (List Node)
  | [] => (s, .ok [])
  | i :: r =>
    andThen (s.readNode q table total i) fun t n =>
    andThen (t.readNodes q table total r) fun t ns => (t, .ok (n :: ns))

/-! ## Checks of the whole graph (R43) -/

/-- The lowest node whose preds differs from the number of list entries that name it. -/
def badPreds (ns : List Node) : Option Nat :=
  let named := ns.flatMap Node.succs
  (List.range ns.length).find? fun i => ((ns[i]?).map Node.preds).getD 0 != named.count i

/-- Nodes that can be reached from some, in at most k steps. -/
def reachFrom (ns : List Node) : Nat → List Nat → List Nat → List Nat
  | 0, _, seen => seen
  | k + 1, todo, seen =>
    let next := ((todo.flatMap fun i => ((ns[i]?).map Node.succs).getD []).filter fun j => !seen.contains j).eraseDups
    if next.isEmpty then seen else reachFrom ns k next (seen ++ next)

/-- The lowest node that lies on a cycle. -/
def onCycle (ns : List Node) : Option Nat :=
  (List.range ns.length).find? fun i => (reachFrom ns ns.length [i] []).contains i

/-- The checks after every record has been read: preds, cycles, strict, rectangles, units (R43, R57, R87). -/
def State.graphStop (s : State) (q : Queue) (ns : List Node) : Option (QStatus × Nat) :=
  match badPreds ns with
  | some i => some (.invalidField, recordDetail .node i 0)
  | none => match onCycle ns with
    | some i => some (.invalidField, recordDetail .node i 0)
    | none => match ns.zipIdx.find? fun n => q.strict && n.1.kind != .copy && !n.1.hdr.det with
      | some n => some (.invalidField, recordDetail .header n.2 0x10)
      | none => match ns.zipIdx.find? fun n => n.1.kind == .well && !s.wellsUp n.1.hdr with
        | some n => some (.unavailableRectangle, valueDetail n.2)
        | none => (ns.zipIdx.find? fun n => !s.satisfiable n.1).map fun n => (.unplaceable, valueDetail n.2)

/-! ## Resuming (R63, R424) -/

/-- Checks of a context descriptor's header (R63, R424). -/
def ctxChecks (record : Word) (total : Nat) (bs : List Byte) : List (Nat × Bool) :=
  [(0, Word.fieldAt (dwAt bs 0) 15 0 != 1 || Word.fieldAt (dwAt bs 0) 26 16 != total), (8, dwAt bs 8 != record)]

/-- Checks of a node entry of a context descriptor (R424). -/
def entryChecks (i : Nat) (n : Node) (bs : List Byte) : List (Nat × Bool) :=
  let st := Word.fieldAt (dwAt bs 0) 2 0
  [(0x40 + 16 * i, decide (5 < st) || (n.kind == .copy && (st == 3 || st == 4))),
    (0x48 + 16 * i, (dwAt bs 8 != 0) != (st == 3 || st == 4))]

/-- A node as its saved entry leaves it: one that ran enters its pool as Ready (R424). One that was saved Reserving enters as
Reserving, whatever the number its pool holds (log 59). -/
def Node.resume (n : Node) (pasid : BitVec 20) (ctx : Nat) (bs : List Byte) : Node :=
  let st := Word.fieldAt (dwAt bs 0) 2 0
  let count := Word.fieldAt (dwAt bs 0) 12 3
  { n with
    count := count
    ntrig := wbit (dwAt bs 0) 13
    state := match st with
      | 0 => if count = 0 then .ready else .waiting
      | 2 => .reserving
      | 5 => .retired
      | _ => .ready
    back := if st = 4 then .triggered else .running
    saved := if st = 3 ∨ st = 4 then some (.virt pasid (ctx + (dwAt bs 8).toNat)) else none }

/-- Read the node entries of a context descriptor. -/
def State.readEntries (s : State) (q : Queue) (ctx : Nat) : Nat → List Node → State × Load (List Node)
  | _, [] => (s, .ok [])
  | i, n :: r =>
    andThen (s.recRead q (ctx + 0x40 + 16 * i) 16 .context i (0x40 + 16 * i)) fun t bs =>
    andThen (checked t .context i (entryChecks i n bs) ()) fun t _ =>
    andThen (t.readEntries q ctx (i + 1) r) fun t ns => (t, .ok (n.resume q.pasid ctx bs :: ns))

/-- Read a context descriptor: the nodes as it leaves them, and whether the graph-level trigger has fired. -/
def State.readContext (s : State) (q : Queue) (record ctx : Word) (ns : List Node) : State × Load (List Node × Bool) :=
  if ctx = 0 then (s, .ok (ns, false))
  else
    andThen (s.recRead q (pAddr ctx) 64 .context 0 0) fun t bs =>
    andThen (checked t .context 0 (ctxChecks record ns.length bs) ()) fun t _ =>
    andThen (t.readEntries q (pAddr ctx) 0 ns) fun t ms => (t, .ok (ms, wbit (dwAt bs 0x18) 0))

/-! ## A launch -/

/-- Read and check everything that a LAUNCH names that has not been read before (R43, R44, R63, R87; log 61). -/
def State.readLaunch (s : State) (q : Queue) (record ctx : Word) (tag : BitVec 16) (irq : Bool) : State × Load Launch :=
  andThen (s.recRead q (pAddr record) 64 .launch 0 0) fun t bs =>
  andThen (checked t .launch 0 (launchChecks bs) ()) fun t _ =>
  let total := Word.fieldAt (dwAt bs 0) 26 16
  andThen (t.readNodes q (dwAt bs 8) total (List.range total)) fun t ns =>
  match t.graphStop q ns with
  | some (st, d) => (t, .stop st d)
  | none =>
    andThen (t.readContext q record ctx ns) fun t ms =>
    andThen (t.loadTag q.pasid (dwAt bs 0x18) (recordDetail .launch 0 0x18)) fun t gtag =>
    (t, .ok ⟨0, q.qid, q.pasid, record, dwAt bs 0x10, dwAt bs 0x18, gtag, ms.1, ms.2, tag, irq, false, false⟩)

/-- Pool entries of a die that launches hold (R86). -/
def State.poolUsed (s : State) (die : Nat) : Nat :=
  (s.nodes.filter fun x => x.2.2.die == die && (x.2.2.state.pooled || x.2.2.state.onUnits)).length

/-- Whether every pool has room for a launch (R86). -/
def State.poolRoom (s : State) (l : Launch) : Bool :=
  (List.range 8).all fun d =>
    decide (s.poolUsed d + (l.nodes.filter fun n => n.die == d && n.state != .retired).length ≤ 8192)

/-- A launch is accepted as the head passes its packet (R58, R60, R86, R105). -/
def State.accept (s : State) (qid : Nat) (l : Launch) : State :=
  let n := s.tahr.lseq
  let t := s.modTahr fun x => { x with lseq := n + 1, launches := x.launches ++ [{ l with lseq := n }] }
  let u := (t.passHead qid).modQueue qid fun q => { q with hold := if l.gtrig then none else some n }
  ((if l.gtrig then u else u.setSlot qid .holding).tellStatus qid []).settleSlot qid

/-- A launch that was read is accepted, or waits for room with the head on its packet (R86). -/
def State.offer (s : State) (qid : Nat) (l : Launch) : State :=
  if s.poolRoom l then s.accept qid l else s.modQueue qid fun q => { q with held := some l }

/-! ## Packets (R52 to R58) -/

/-- Whether a queue's thread may read its next packet (R54, R55, R60, R75, R105). -/
def State.mayRead (s : State) (q : Queue) : Bool :=
  s.powered && s.tahr.ready && q.status == 0 && s.slotState q.qid == some .serving && q.head != q.tail && q.hold.isNone &&
  q.held.isNone && q.wait.isNone && !q.fence && q.owed.isNone && !s.preempting q.qid

/-- The header of a packet is bad (R56). -/
def headerBad (d : Word) : Bool :=
  !decide (1 ≤ Word.fieldAt d 7 0 ∧ Word.fieldAt d 7 0 ≤ 6) || Word.fieldAt d 15 9 != 0 || Word.fieldAt d 63 32 != 0

/-- A packet as its type's meaning takes it: its bytes, its tag and its irq bit. -/
structure Packet where
  bs  : List Byte
  tag : BitVec 16
  irq : Bool

/-- The packet at a queue's head is read and, if it is of the type, acted on; a bad header stops the queue (R53, R56, R74,
R82). -/
def State.packet (s : State) (qid type : Nat) (k : State → Queue → Packet → State) : State :=
  match s.queue? qid with
  | none => s
  | some q =>
    if !s.mayRead q then s
    else if q.unbound then s.stopQueue qid .spaceRetired (valueDetail 0)
    else match s.fwRead q.pasid (pAddr q.base + 64 * (q.head.toNat % 2 ^ q.n)) 64 with
      | (t, .wait) => t
      | (t, .kind x) => t.stopQueue qid .translation (valueDetail x)
      | (t, .error o) => t.stopQueue qid .dataError (packetDetail o)
      | (t, .bytes bs) =>
        let d := dwAt bs 0
        if headerBad d then t.stopQueue qid .invalidField (packetDetail 0)
        else if Word.fieldAt d 7 0 ≠ type then s
        else k t q ⟨bs, d.extractLsb' 16 16, wbit d 8⟩

/-- Stop at the first offending field of a packet, else go on (R54, R57). -/
def State.fields (s : State) (qid : Nat) (cs : List (Nat × Bool)) (k : State → State) : State :=
  match firstBad cs with
  | some o => s.stopQueue qid .invalidField (packetDetail o)
  | none => k s

/-- A queue's thread reads a doubleword of the records that its next packet names, ahead of the rest (R44). -/
def State.readField (s : State) (qid va : Nat) : State :=
  match s.queue? qid with
  | some q =>
    if s.mayRead q && !q.unbound && va % 8 == 0 then
      match s.fwRead q.pasid va 8 with
      | (t, .bytes bs) => t.noteSeen qid va (overlaySeen (t.seenBy qid) va bs)
      | _ => s
    else s
  | none => s

/-- What a load gives a packet: it goes on, stops the queue, or waits. -/
def State.loaded {α : Type} (qid : Nat) (x : State × Load α) (k : State → α → State) : State :=
  match x with
  | (t, .ok a) => k t a
  | (t, .stop st d) => t.stopQueue qid st d
  | (t, .wait) => t

/-- LAUNCH_PACKET (R43, R58). -/
def execLaunchPacket (qid : Nat) (s : State) : Out :=
  .next (s.packet qid 1 fun t q p =>
    t.fields qid ([(8, !ptrOk (dwAt p.bs 8) [0] 64), (0x10, pSpace (dwAt p.bs 0x10) != 0)] ++ reservedFrom p.bs 0x18) fun t =>
      State.loaded qid (t.readLaunch q (dwAt p.bs 8) (dwAt p.bs 0x10) p.tag p.irq) fun t l => t.offer qid l)

/-- The one node of a COPY packet (R88). -/
def copyNode (bs : List Byte) (level slot : Nat) : Node :=
  { nodeOf [] .none_ [] 0 level slot with
    kind := .copy
    die := Word.fieldAt (dwAt bs 0x18) 45 43
    src := dwAt bs 8
    dst := dwAt bs 0x10
    bytes := Word.fieldAt (dwAt bs 0x18) 39 0
    colour := (dwAt bs 0x18).extractLsb' 40 3 }

/-- COPY_PACKET (R88, R431). -/
def execCopyPacket (qid : Nat) (s : State) : Out :=
  .next (s.packet qid 6 fun t q p =>
    let bytes := Word.fieldAt (dwAt p.bs 0x18) 39 0
    t.fields qid ([(8, t.badSide (dwAt p.bs 8) bytes), (0x10, t.badSide (dwAt p.bs 0x10) bytes),
        (0x18, bytes == 0 || Word.fieldAt (dwAt p.bs 0x18) 63 46 != 0), (0x20, !barOk (dwAt p.bs 0x20))] ++
        reservedFrom p.bs 0x28) fun t =>
      let n := copyNode p.bs q.level (t.slotNum qid)
      if !t.satisfiable n then t.stopQueue qid .unplaceable (valueDetail 0)
      else State.loaded qid (t.loadTag q.pasid (dwAt p.bs 0x20) (packetDetail 0x20)) fun t tag =>
        t.offer qid ⟨0, qid, q.pasid, 0, 0, dwAt p.bs 0x20, tag, [n], false, p.tag, p.irq, true, false⟩)

/-- POOL_ROOM_ADMIT (R86). -/
def execPoolRoomAdmit (qid : Nat) (s : State) : Out :=
  .next (match s.queue? qid with
    | some q => match q.held with
      | some l =>
        if q.status == 0 && !s.preempting qid && s.slotState qid == some .serving && s.poolRoom l then s.accept qid l else s
      | none => s
    | none => s)

end Sys2Proof.Machine
end

