-- ==== Sys2Proof/Machine/Packets.lean ====
section
/-! DEFINITION. WAIT, SIGNAL, MODE and FENCE packets, and the Tahr's slots (spec/03_launching.md R57 to R68;
spec/04_placement.md R105; spec/14_synchronisation.md R373 to R376). -/

namespace Sys2Proof.Machine

/-- The head passes a packet that completes at the same moment (R54, R58). -/
def State.passDone (s : State) (qid : Nat) (tag : BitVec 16) (irq : Bool) : State :=
  ((((s.setSlot qid .serving).passHead qid).completePacket qid tag irq).settleSlot qid)

/-! ## WAIT (R58, R374) -/

/-- A WAIT whose phase has been reached completes, or stops the queue for the object's error code (R57, R58). -/
def State.endWait (s : State) (qid : Nat) (w : QWait) (err : Byte) (tag : BitVec 16) (irq : Bool) : State :=
  if w.stop ∧ err ≠ 0 then s.stopQueue qid .barrierError (valueDetail err.toNat) else s.passDone qid tag irq

/-- A WAIT on an object that a location holds: it completes, stops the queue, or blocks the thread (R58, R82). -/
def State.tryWait (s : State) (qid : Nat) (w : QWait) (l : Nat) (tag : BitVec 16) (irq : Bool) : State :=
  let r := s.homeRead l 16
  let b := barOf r.2
  let t := r.1
  if b.malformed then t.stopQueue qid .invalidField (packetDetail 8)
  else if b.reached w.phase then t.endWait qid w b.err tag irq
  else (t.modQueue qid fun q => { q with wait := some { w with loc := l }, ptag := tag, pirq := irq }).setSlot qid .blocked

/-- Checks of the object pointer of a WAIT or SIGNAL (R57). -/
def objectChecks (bs : List Byte) : List (Nat × Bool) := [(8, !ptrOk (dwAt bs 8) [0, 3] 16)]

/-- Reach the object of a WAIT or SIGNAL (R58). -/
def State.packetObject (s : State) (q : Queue) (p : Word) (write : Bool) (k : State → Nat → State) : State :=
  match s.fwObject q.pasid p write with
  | (t, .at_ l) => k t l
  | (t, .kind x) => t.stopQueue q.qid .translation (valueDetail x)
  | (t, .bad) => t.stopQueue q.qid .invalidField (packetDetail 8)
  | (t, .wait) => t

/-- WAIT_PACKET (R58). -/
def execWaitPacket (qid : Nat) (s : State) : Out :=
  .next (s.packet qid 2 fun t q p =>
    t.fields qid (objectChecks p.bs ++ [(0x10, Word.fieldAt (dwAt p.bs 0x10) 63 17 != 0)] ++ reservedFrom p.bs 0x18) fun t =>
      t.packetObject q (dwAt p.bs 8) false fun t l =>
        t.tryWait qid ⟨dwAt p.bs 8, (dwAt p.bs 0x10).truncate 16, wbit (dwAt p.bs 0x10) 16, l, none⟩ l p.tag p.irq)

/-- A blocked WAIT that an arrival has woken goes on (R372); another looks at its object again, reaching it anew (R48, R58): those in
host memory are polled (R376). -/
def State.againWait (s : State) (qid : Nat) (host : Bool) : State :=
  match s.queue? qid with
  | some q => match q.wait with
    | some w =>
      if q.status != 0 || s.preempting qid then s
      else match w.met with
        | some err => s.endWait qid w err q.ptag q.pirq
        | none => s.packetObject q w.bar false fun t l => if isHost l == host then t.tryWait qid w l q.ptag q.pirq else t
    | none => s
  | none => s

/-- WAIT_SATISFIED (R58, R374). -/
def execWaitSatisfied (qid : Nat) (s : State) : Out := .next (s.againWait qid false)

/-- HOST_BARRIER_POLL (R376). -/
def execHostBarrierPoll (qid : Nat) (s : State) : Out := .next (s.againWait qid true)

/-! ## SIGNAL, MODE and FENCE (R58, R59, R62) -/

/-- SIGNAL_PACKET (R58, R373): a discarded arrival stops the queue. -/
def execSignalPacket (qid : Nat) (s : State) : Out :=
  .next (s.packet qid 3 fun t q p =>
    let v := dwAt p.bs 0x10
    t.fields qid (objectChecks p.bs ++ [(0x10, Word.fieldAt v 31 0 == 0 || Word.fieldAt v 63 40 != 0)] ++
        reservedFrom p.bs 0x18) fun t =>
      t.packetObject q (dwAt p.bs 8) true fun t l =>
        match t.arriveAt l (Word.fieldAt v 31 0) (v.extractLsb' 32 8) none true with
        | (u, true) => u.passDone qid p.tag p.irq
        | (u, false) => u.stopQueue qid .invalidField (packetDetail 8))

/-- MODE_PACKET (R62): the level must lie in the queue's class. -/
def execModePacket (qid : Nat) (s : State) : Out :=
  .next (s.packet qid 4 fun t q p =>
    let v := dwAt p.bs 8
    let level := Word.fieldAt v 5 0
    t.fields qid ([(8, level / 12 != q.cls || Word.fieldAt v 7 6 != 0 || Word.fieldAt v 63 9 != 0)] ++
        reservedFrom p.bs 0x10) fun t =>
      (t.modQueue qid fun x => { x with level := level, strict := wbit v 8 }).passDone qid p.tag p.irq)

/-- Whether every launch of a queue has retired; its writes are then visible everywhere (R58, R432). -/
def State.allRetired (s : State) (qid : Nat) : Bool := s.tahr.launches.all fun l => l.qid != qid

/-- FENCE_PACKET (R58, R59). -/
def execFencePacket (qid : Nat) (s : State) : Out :=
  .next (s.packet qid 5 fun t _ p =>
    let v := dwAt p.bs 8
    let scope := Word.fieldAt v 10 8
    t.fields qid ([(8, !decide (2 ≤ scope ∧ scope ≤ 4) || Word.fieldAt v 63 11 != 0)] ++ reservedFrom p.bs 0x10) fun t =>
      if t.allRetired qid then t.passDone qid p.tag p.irq
      else t.modQueue qid fun x => { x with fence := true, ptag := p.tag, pirq := p.irq })

/-- FENCE_PACKET_COMPLETE (R58). -/
def execFencePacketComplete (qid : Nat) (s : State) : Out :=
  .next (match s.queue? qid with
    | some q =>
      if q.fence && q.status == 0 && !s.preempting qid && s.allRetired qid then s.passDone qid q.ptag q.pirq else s
    | none => s)

/-! ## Slots (R65 to R68, R105) -/

/-- The number that stands for the management ring among the holders of slots (R68). -/
def mgmtQid : Nat := 4096

/-- What waits for a slot, or holds one: its number, class and level, and since when it has needed one. -/
structure Holder where
  qid   : Nat
  cls   : Nat
  level : Nat
  since : Nat
  deriving DecidableEq, Repr, Inhabited

/-- The management ring as a holder: a queue of class 3 at level 47 (R68). -/
def Tahr.mgmtHolder (t : Tahr) : Holder := ⟨mgmtQid, 3, 47, t.mqsince⟩

/-- The holder of a number. -/
def State.holder? (s : State) (qid : Nat) : Option Holder :=
  if qid = mgmtQid then some s.tahr.mgmtHolder else (s.queue? qid).map fun q => ⟨qid, q.cls, q.level, q.since⟩

/-- What waits for a slot (R65, R68), the longest wait first. -/
def State.waiting (s : State) : List Holder :=
  sortBy (fun a b => lexLt [a.since, a.qid] [b.since, b.qid])
    ((if s.tahr.mqhead ≠ s.tahr.mqtail ∧ s.slotOf mgmtQid = none then [s.tahr.mgmtHolder] else []) ++
      s.tahr.queues.filterMap fun q =>
        if q.needsSlot && (s.slotOf q.qid).isNone then some ⟨q.qid, q.cls, q.level, q.since⟩ else none)

/-- The class of what holds a slot. -/
def State.slotClass (s : State) (x : Slot) : Option Nat := (x.qid.bind s.holder?).map Holder.cls

/-- Slots that a class holds. -/
def State.held (s : State) (cls : Nat) : Nat := (s.tahr.slots.filter fun x => s.slotClass x == some cls).length

/-- The lowest-numbered unheld slot with a property. -/
def State.unheld (s : State) (ok : Nat → Bool) : Option Nat :=
  (s.tahr.slots.zipIdx.find? fun x => x.1.qid.isNone && ok x.2).map Prod.snd

/-- The first in rank of a list: a higher level comes first, then the longer wait (R66). -/
def bestOf (hs : List Holder) : Option Holder :=
  (sortBy (fun a b => lexLt [48 - a.level, a.since, a.qid] [48 - b.level, b.since, b.qid]) hs).head?

/-- Who gets a slot next, and which (R66). A queue whose class holds its reservation already takes another class's reserved
slot before one of its own (log 54). -/
def State.grantNext (s : State) : Option (Holder × Nat) :=
  let ws := s.waiting
  match ws.findSome? fun w =>
      if s.held w.cls < reserveOf w.cls then (s.unheld fun i => slotOwner i == w.cls).map fun i => (w, i) else none with
  | some x => some x
  | none => (bestOf ws).bind fun w =>
    (((s.unheld fun i => slotOwner i == 4).orElse fun _ => s.unheld fun i => slotOwner i != w.cls).orElse
      fun _ => s.unheld fun _ => true).map fun i => (w, i)

/-- SLOT_GRANT (R66). -/
def execSlotGrant (s : State) : Out :=
  .next (if !(s.powered && s.tahr.ready) then s
    else match s.grantNext with
      | some (w, i) => s.modSlot i fun _ => ⟨some w.qid, .serving, s.now, 0⟩
      | none => s)

/-- SLOT_IDLE_RELEASE (R65). -/
def execSlotIdleRelease (slot : Nat) (s : State) : Out :=
  .next (match s.tahr.slots[slot]? with
    | some x => if x.state = .idle ∧ x.idle + 4096 ≤ s.now then s.modSlot slot fun _ => ⟨none, .free, 0, 0⟩ else s
    | none => s)

/-- The class that has to regain its reservation, if one has (R67): one of its queues waits, and others hold all its slots. -/
def State.robbed (s : State) : Option Nat :=
  (s.waiting.map Holder.cls).find? fun c =>
    decide (s.held c < reserveOf c) && (s.tahr.slots.zipIdx.all fun x =>
      slotOwner x.2 != c || (x.1.qid.isSome && s.slotClass x.1 != some c))

/-- The borrower of a class's slot that is unmapped: the lowest level, then the most recently mapped (R67, R68). -/
def State.borrower (s : State) (cls : Nat) : Option Nat :=
  let bs := s.tahr.slots.zipIdx.filterMap fun x =>
    if slotOwner x.2 = cls ∧ x.1.state ≠ .unmapping ∧ x.1.qid ≠ some mgmtQid then
      (x.1.qid.bind s.holder?).map fun h => (h.level, x.1.since, x.2)
    else none
  ((sortBy (fun a b => decide (a.1 < b.1 ∨ (a.1 = b.1 ∧ b.2.1 < a.2.1))) bs).head?).map fun x => x.2.2

/-- FORCED_UNMAPPING (R67): a blocked WAIT is abandoned unconsumed. -/
def execForcedUnmapping (s : State) : Out :=
  .next (match s.robbed with
    | none => s
    | some c =>
      if s.tahr.slots.zipIdx.any fun x => slotOwner x.2 == c && x.1.state == .unmapping then s
      else match s.borrower c with
        | none => s
        | some i =>
          let t := s.modSlot i fun x => { x with state := .unmapping }
          match (s.tahr.slots[i]?).bind Slot.qid with
          | some q => t.modQueue q fun x => { x with wait := none, fence := false }
          | none => t)

/-- QUEUE_CONTEXT_SAVED (R105). -/
def execQueueContextSaved (slot : Nat) (s : State) : Out :=
  .next (match s.tahr.slots[slot]? with
    | some x => if x.state = .unmapping then s.modSlot slot fun _ => ⟨none, .free, 0, 0⟩ else s
    | none => s)

end Sys2Proof.Machine
end

