-- ==== Sys2Proof/Machine/Nodes.lean ====
section
/-! DEFINITION. Triggers, retirement and copies (spec/04_placement.md R88, R98, R99; spec/14_synchronisation.md R373;
spec/16_retirement_and_health.md R429 to R432). -/

namespace Sys2Proof.Machine

/-! ## Triggers (R97 to R99) -/

/-- The cores of the herds that a node holds. -/
def State.gangCores (s : State) (n : Node) : List Core := n.herds.flatMap fun h => ((s.ctx? h).map HerdCtx.cores).getD []

/-- Whether every write that R98 names, made before a cut point, is visible. -/
def Core.visibleBefore (c : Core) (cut : Nat) : Bool :=
  c.sq.all (fun e => decide (cut ≤ e.seq)) &&
  c.vlands.all (fun e => decide (cut ≤ e.seq) || e.targets.all fun t => t.cells.isEmpty) &&
  [Engine.pump, .matrix, .well].all fun g => (c.queue g).all fun e => decide (cut ≤ e.seq)

/-- Whether a core is marked and its writes before the mark's cut point are visible. -/
def Core.covered (c : Core) (cut : Option Nat) : Bool := (cut.map c.visibleBefore).getD false

/-- A predecessor of a node has fired or retired (R88). -/
def Node.lower (n : Node) : Node :=
  if n.state = .waiting then
    { n with count := n.count - 1, state := if n.count ≤ 1 then .ready else .waiting }
  else n

/-- The counts of a node's successors fall by one for each entry of the list (R43, R88; log 57). -/
def State.lowerSuccs (s : State) (lseq : Nat) (n : Node) : State := n.succs.foldl (fun t j => t.modNode lseq j Node.lower) s

/-- Whether a node runs on herds, and is neither being evicted nor restored. -/
def Node.runs (n : Node) : Bool := n.kind != .copy && n.state.onUnits && n.moving.isEmpty

/-- NODE_TRIGGER_FIRE (R98). -/
def execNodeTriggerFire (lseq node : Nat) (s : State) : Out :=
  .next (match s.node? lseq node with
    | some n =>
      if n.runs && n.state == .running && !n.ntrig && (s.gangCores n).all fun c => c.covered c.cutN then
        (s.modNode lseq node fun m => { m with ntrig := true, state := .triggered }).lowerSuccs lseq n
      else s
    | none => s)

/-- Whether a node has done its part for the graph-level trigger (R99). -/
def State.graphDone (s : State) (n : Node) : Bool :=
  n.gdone || n.state == .retired || (n.runs && (s.gangCores n).all fun c => c.covered c.cutG)

/-- The next packet of a queue is no longer held back by a launch (R60, R105). -/
def State.releaseHold (s : State) (qid lseq : Nat) : State :=
  match s.queue? qid with
  | some q =>
    if q.hold = some lseq then
      let t := s.modQueue qid fun x => { x with hold := none }
      (if t.slotState qid = some .holding then t.setSlot qid .serving else t).settleSlot qid
    else s
  | none => s

/-- GRAPH_TRIGGER_FIRE (R99). -/
def execGraphTriggerFire (lseq : Nat) (s : State) : Out :=
  .next (match s.launch? lseq with
    | some l =>
      if l.gtrig || l.abandoned || s.preempting l.qid then s
      else if l.nodes.all s.graphDone then (s.modLaunch lseq fun x => { x with gtrig := true }).releaseHold l.qid lseq
      else s.modLaunch lseq fun x => { x with nodes := x.nodes.map fun n => { n with gdone := s.graphDone n } }
    | none => s)

/-! ## Arrivals of nodes and graphs (R373) -/

/-- The object that a node or a graph arrives at, if it names one; its page may have to be asked of the host first (R48). -/
def State.arrivalObject (s : State) (pasid : BitVec 20) (p : Word) : State × FwObj :=
  if p = 0 then (s, .bad) else s.fwObject pasid p true

/-- The arrival of a node or a graph at its object; a discarded one goes to the error log (R373, R434 kind 4). -/
def State.nodeArrival (s : State) (l : Launch) (die i : Nat) (p : Word) (o : FwObj) (tag : Byte) (det : Bool) : State :=
  if p = 0 then s
  else match o with
    | .at_ a =>
      match s.arriveAt a 1 0 (some tag) det with
      | (u, true) => u
      | (u, false) => u.record die 4 l.qid (.ofNat 64 i) p 0
    | _ => s.record die 4 l.qid (.ofNat 64 i) p 0

/-! ## Retirement of nodes (R429, R430) -/

/-- A herd is freed. -/
def State.freeHerd (s : State) (h : Nat) : State := (s.modHerd h fun x => { x with act := .idle }).redirect h

/-- A node retires: executors, successors, arrival at its object (R429). -/
def State.retireNode (s : State) (l : Launch) (i : Nat) (n : Node) (o : FwObj) : State :=
  let t := (n.herds.foldl State.freeHerd s).dropRect l.lseq i
  let u := t.modNode l.lseq i fun m => { m with
    state := .retired, ntrig := true, herds := [], pump := none, rect := false, saved := none }
  let v := if n.ntrig then u else u.lowerSuccs l.lseq n
  (v.nodeArrival l n.die i n.nbar o n.ntag n.hdr.det).dropAbandoned

/-- Whether a core has ended and everything that it issued is done (R429). -/
def Core.finished (c : Core) : Bool :=
  !c.isLive && c.block.isNone && c.eq.all List.isEmpty && c.sq.isEmpty && c.vlands.isEmpty

/-- Whether every fill of a node's rectangle has ended (R429). -/
def State.fillsDone (s : State) (lseq node : Nat) : Bool :=
  s.rects.all fun x => !x.isOf lseq node || x.filled

/-- NODE_RETIREMENT (R429). -/
def execNodeRetirement (lseq node : Nat) (s : State) : Out :=
  .next (match s.launch? lseq, s.node? lseq node with
    | some l, some n =>
      if n.runs && (s.gangCores n).all Core.finished && s.fillsDone lseq node then
        match s.arrivalObject l.pasid n.nbar with
        | (t, .wait) => t
        | (t, o) => t.retireNode l node n o
      else s
    | _, _ => s)

/-! ## Copies (R431) -/

/-- How one side of a segment translates. -/
inductive CopySide where
  | at_ (l : Nat)
  | fail
  | wait

/-- The location of byte off of a side (R217, R431). -/
def State.copySide (s : State) (pasid : BitVec 20) (p : Word) (off n : Nat) (write : Bool) : State × CopySide :=
  if pSpace p = 0 then
    match s.fwTranslate pasid ((pAddr p + off) % 2 ^ 56) write with
    | (t, .loc l _) => (t, .at_ l)
    | (t, .kind _) => (t, .fail)
    | (t, .wait) => (t, .wait)
  else if s.dspSize (pRank p) < pAddr p + off + n then (s, .fail)
  else (s, .at_ (dspLoc (s.physDie (pRank p)) (pAddr p + off)))

/-- Bytes of the segment that begins at byte off: up to a 4 KiB boundary of either side. -/
def Node.segment (n : Node) (off : Nat) : Nat :=
  min (n.bytes - off) (min (4096 - (pAddr n.src + off) % 4096) (4096 - (pAddr n.dst + off) % 4096))

/-- How a segment of a copy ends. -/
inductive CopyEnd where
  | go   (n : Node)
  | fail (n : Node)
  | wait

/-- Bytes of a source, with the units that cannot be read as zeros; and those units (R229, R269). -/
def State.copyRead (s : State) (l n : Nat) : State × List Byte × List Nat :=
  let x := s.engineUnits (unitsOf l n)
  (x.1, (List.range n).map (fun i =>
    if x.2.any fun r => decide (r * 16 ≤ l + i ∧ l + i < r * 16 + 64) then 0 else x.1.mem.byte (l + i)), x.2)

/-- A die in thermal emergency (log 42). -/
def State.dieStopped (s : State) (die : Nat) : Bool := ((s.dies[die]?).map fun d => d.zones.any fun z => z.state == 3).getD false

/-- The next segment of a copy (R431, R443). -/
def State.copyStep (s : State) (pasid : BitVec 20) (n : Node) : State × CopyEnd :=
  let k := n.segment n.copied
  if s.dieStopped n.die then (s, .fail { n with stop := .thermalAbort })
  else match s.copySide pasid n.src n.copied k false with
    | (t, .wait) => (t, .wait)
    | (t, .fail) => (t, .fail { n with stop := .translation })
    | (t, .at_ a) =>
      match t.copySide pasid n.dst n.copied k true with
      | (u, .wait) => (u, .wait)
      | (u, .fail) => (u, .fail { n with stop := .translation })
      | (u, .at_ b) =>
        let x := u.copyRead a k
        (x.1.writeLoc b x.2.1, .go { n with
          copied := n.copied + k, lost := n.lost ++ x.2.2.filter fun r => !n.lost.contains r })

/-- The destination bytes from off up are undefined (R431). -/
def State.copyForget (s : State) (pasid : BitVec 20) (n : Node) : Nat → Nat → State
  | 0, _ => s
  | k + 1, off =>
    if n.bytes ≤ off then s
    else
      let m := n.segment off
      (match s.copySide pasid n.dst off m true with
        | (t, .at_ b) => t.forget b (b + m)
        | (t, _) => t).copyForget pasid n k (off + m)

/-- Enough segments for any copy of a node. -/
def Node.segments (n : Node) : Nat := n.bytes / 2048 + 4

/-- Perform a copy on to its end; none while it waits for the host. -/
def State.copyRun (s : State) (pasid : BitVec 20) : Nat → Node → State × Node × Bool
  | 0, n => (s, n, true)
  | k + 1, n =>
    if n.bytes ≤ n.copied ∨ n.stop ≠ .ok then (s, n, true)
    else match s.copyStep pasid n with
      | (t, .wait) => (t, n, false)
      | (t, .fail m) => (t.copyForget pasid m m.segments m.copied, m, true)
      | (t, .go m) => t.copyRun pasid k m

/-- A copy that is on a die pump. -/
def Node.copying (n : Node) : Bool := n.kind == .copy && n.state.onUnits

/-- A die pump performs the next segment of its copy. -/
def State.copySegment (s : State) (lseq node : Nat) : State :=
  match s.launch? lseq, s.node? lseq node with
  | some l, some n =>
    if n.copying && n.stop == .ok && decide (n.copied < n.bytes) then
      match s.copyStep l.pasid n with
      | (t, .go m) => t.modNode lseq node fun _ => m
      | (t, .wait) => t
      | (_, .fail _) => s
    else s
  | _, _ => s

/-- A copy that runs on a die whose zone enters emergency stops: what follows in its destination is undefined (R431, R443; log 42). -/
def State.stopCopies (s : State) (die : Nat) : State :=
  s.nodes.foldl (fun t x =>
    let n := x.2.2
    if n.copying && n.die == die && n.stop == .ok && decide (n.copied < n.bytes) then
      (t.copyForget x.1.pasid n n.segments n.copied).modNode x.1.lseq x.2.1 fun m => { m with stop := .thermalAbort }
    else t) s

/-- THERMAL_EMERGENCY_STOP (R443): the engines stop and firmware posts notice 0x0003. It signals for the entries it stops, so it
comes before the ksigs and grants of its ck (R179). Running copies of the die stop as well (R431). -/
def execThermalEmergencyStop (die zone : Nat) (s : State) : Out :=
  .next (match s.dies[die]? with
    | none => s
    | some d =>
      if d.stops.contains zone && s.allOpen then
        (((s.modDie die fun d => { d with stops := d.stops.filter (· != zone) }).stopZone die zone).stopCopies die).notify (16 * die + zone)
          (List.range 8) 3
      else s)

/-- The status and the detail of a copy that has ended (R181, R182, R431). -/
def Node.copyStatus (n : Node) : EStatus × Nat :=
  if n.stop ≠ .ok then (n.stop, n.copied) else if n.lost.isEmpty then (.ok, n.copied) else (.eccZeroed, n.lost.length)

/-- COPY_NODE_RETIREMENT (R430): the copy is performed on to its end; a status other than ok goes to the error log. -/
def execCopyNodeRetirement (lseq node : Nat) (s : State) : Out :=
  .next (match s.launch? lseq, s.node? lseq node with
    | some l, some n =>
      if !n.copying then s
      else match s.copyRun l.pasid n.segments n with
        | (t, m, false) => t.modNode lseq node fun _ => m
        | (t, m, true) =>
          match (t.modNode lseq node fun _ => m).arrivalObject l.pasid n.nbar with
          | (u, .wait) => u
          | (u, o) =>
            let v := if m.copyStatus.1 = .ok then u
              else u.record m.die 7 l.qid (.ofNat 64 (m.copyStatus.1.code + 2 ^ 8 * node)) (.ofNat 64 m.copyStatus.2) 0
            v.retireNode l node m o
    | _, _ => s)

/-! ## Retirement of graphs (R432) -/

/-- GRAPH_RETIREMENT (R432): the arrival at gbar, the status record, the message, and the queue goes on. A discarded arrival of a graph
has no die of its own, and is logged under die 0 (log 50). -/
def execGraphRetirement (lseq : Nat) (s : State) : Out :=
  .next (match s.launch? lseq with
    | some l =>
      if l.abandoned || s.preempting l.qid || !l.nodes.all fun n => n.state == .retired then s
      else match s.arrivalObject l.pasid l.gbar with
        | (t, .wait) => t
        | (t, o) =>
          let u := (t.nodeArrival l 0 0 l.gbar o l.gtag (l.nodes.all fun n => n.hdr.det)).modQueue l.qid fun q =>
            { q with done := q.done + 1 }
          ((u.completePacket l.qid l.tag l.irq).modTahr fun x => { x with
            launches := x.launches.filter fun y => y.lseq != lseq }).releaseHold l.qid lseq
    | none => s)

end Sys2Proof.Machine
end

