-- ==== Sys2Proof/Machine/Mgmt.lean ====
section
/-! DEFINITION. The management ring and the completion of its commands (spec/03_launching.md R50, R68, R69). -/

namespace Sys2Proof.Machine

/-- The location of a bus address: device memory behind the part's own BAR2, else host memory (R50). -/
def State.busLoc (s : State) (a n : Nat) : Option Nat :=
  if Config.bar2Bus ≤ a ∧ a + n ≤ Config.bar2Bus + s.tahr.bar2Bytes then s.bar2At (a - Config.bar2Bus) n
  else some (hostLoc (a % 2 ^ 59))

/-- The location of the next command (R50, R69). -/
def State.commandLoc (s : State) : Option Nat :=
  s.busLoc (s.tahr.mqbase.toNat + 64 * (s.tahr.mqhead.toNat % 2 ^ (min s.tahr.mqsize 8 + 4))) 64

/-- The management ring gives up its slot once no command is pending (R68). -/
def State.settleMgmt (s : State) : State :=
  if s.tahr.mqhead = s.tahr.mqtail then s.freeSlot 4096 else s

/-- A command completes: status and result are written, MQHEAD advances, and vector 0 is signalled if irq is set (R69). -/
def State.finishCommand (s : State) (st : QStatus) (result : Nat) : State :=
  match s.commandLoc with
  | none => s
  | some l =>
    let irq := (s.mem.byte (l + 1)).getLsbD 0
    let t := ((s.writeLoc (l + 0x30) (leBytes 8 st.code ++ leBytes 8 result)).modTahr fun x =>
      { x with mqhead := x.mqhead + 1, mgmt := none }).settleMgmt
    if irq then t.signal0 else t

end Sys2Proof.Machine
end

