-- ==== Sys2Proof/Machine/Images.lean ====
section
/-! DEFINITION. The images of contexts in a save area, and back (spec/15_interruption.md R418 to R421; spec/13_wells.md R351;
log 18 for the places that the manual leaves to the part). -/

namespace Sys2Proof.Machine

/-! ## Writing -/

/-- Bytes cut or filled with zeros to a length. -/
def padTo (n : Nat) (bs : List Byte) : List Byte := bs.take n ++ .replicate (n - bs.length) 0

/-- Bits as bytes, the first in bit 0. -/
def bitBytes (n : Nat) (bs : List Bool) : List Byte :=
  leBytes n ((bs.zipIdx.map fun b => b.1.toNat * 2 ^ b.2).foldl (· + ·) 0)

/-- A guard slot's code (R419). -/
def Guard.code : Guard → Nat
  | .opened => 0 | .yes => 1 | .no => 2

/-- The system registers of R390's table in ascending number, which a save writes (R419). -/
def xregs : List XReg :=
  [.xstat, .xvec, .xepc, .xcause, .xtval, .xscr0, .xscr1, .xrpt, .xctx, .xherd, .xkov, .xcond, .xaqs, .xaqa, .xdsp, .xfreq,
    .xfres]

/-- The values that a core's system registers read as, with its context running on its herd. -/
def State.xImage (s : State) (x : HerdCtx) (h i : Nat) (c : Core) : List Word :=
  let t := { s with cur := (h, i) }.modHerd h fun y => { y with act := x }
  xregs.map fun r => t.xread c r

/-- Entries of a queue that stand before a cut point. -/
def cutCounts (c : Core) (cut : Option Nat) : List Byte :=
  [Engine.pump, .matrix, .well, .coll].map fun g =>
    .ofNat 8 (((c.queue g).filter fun e => decide (e.seq < cut.getD 0)).length)

/-- The front-end core state and the trigger marks (R97, R152). -/
def frontImage (x : HerdCtx) (c : Core) : List Byte :=
  let f := match c.front with
    | .attached => 0 | .stray => 1 | .halted => 2
  padTo 128 (
    leBytes 4 (f + 4 * c.join.isSome.toNat + 8 * (c.block == some .branch).toNat + 16 * c.cutN.isSome.toNat +
      32 * c.cutG.isSome.toNat + 64 * x.stopped.toNat + 128 * x.diverge.isSome.toNat + 2 ^ 8 * c.lost.toNat +
      2 ^ 16 * c.wrapped.toNat + 2 ^ 17 * c.faulted.isSome.toNat + 2 ^ 18 * (c.direct == some c.seq).toNat) ++
    padTo 4 (c.last.map fun e => .ofNat 8 e.code) ++ leBytes 8 c.pc.toNat ++ leBytes 8 (c.join.getD 0).toNat ++
    cutCounts c c.cutN ++ cutCounts c c.cutG ++ padTo 16 (c.done.flatMap fun d => leBytes 4 d.toNat) ++
    padTo 32 (c.details.flatMap (leBytes 8)) ++ leBytes 4 c.tokens.toNat ++
    leBytes 4 c.lapped.toNat ++ leBytes 8 (c.faulted.getD 0).toNat)

/-- The head that xaqs reports of one access queue: whether its handler runs, and its kind (R259, R260). -/
def headByte (q : List AqEntry) : Byte :=
  match q with
  | e :: _ => .ofNat 8 (e.reported.toNat + 2 * ((e.held.map AqCause.fields).getD (0, 0)).2)
  | [] => 0

/-- The loop state, and what the queues' images have no place for (R212, R419): the flags, counts, indices and steps of the nest,
the counts and heads of the queues, who pushed their entries, and the addresses of the nest's body. -/
def loopImage (c : Core) : List Byte :=
  let l := c.loop.getD ⟨0, [], [], [], [], 0, 0⟩
  padTo 256 (
    [.ofNat 8 (c.loop.isSome.toNat + 2 * l.counts.length), .ofNat 8 ((l.body.length - 1) + 16 * l.pos)] ++
    leBytes 7 l.addr.toNat ++ padTo 24 (l.counts.flatMap (leBytes 4)) ++ padTo 24 (l.idx.flatMap (leBytes 4)) ++
    leBytes 2 ((l.steps.zipIdx.map fun t => t.1.toNat * 4 ^ t.2).foldl (· + ·) 0) ++
    padTo 4 (c.aq.map fun q => .ofNat 8 q.length) ++ padTo 4 (c.dq.map fun q => .ofNat 8 q.length) ++
    padTo 4 (c.aq.map headByte) ++
    padTo 32 (c.aq.flatMap fun q => bitBytes 8 (q.map AqEntry.user)) ++
    padTo 32 (c.aq.flatMap fun q => bitBytes 8 (q.map AqEntry.bad)) ++
    padTo 9 ([Engine.pump, .matrix, .well, .coll].flatMap fun g => bitBytes (engineDepth g / 8) ((c.queue g).map Entry.user)) ++
    padTo 112 (l.body.flatMap fun a => leBytes 7 a.toNat))

/-- An access-queue entry's image (R420). -/
def AqEntry.image (e : AqEntry) : List Byte :=
  let f := (e.held.map AqCause.fields).getD (0, 0)
  leBytes 8 e.base.toNat ++ leBytes 4 e.extent.toNat ++ [.ofNat 8 e.bounds.toNat, .ofNat 8 e.width,
    .ofNat 8 (e.held.isSome.toNat + 2 * f.1 + 16 * e.data.isSome.toNat), 0] ++
  leBytes 8 (BitVec.ofInt 64 e.off).toNat ++ leBytes 8 (e.data.getD 0).toNat

/-- An engine entry's image (R420). -/
def Entry.image (e : Entry) : List Byte :=
  padTo 160 (
    padTo 24 ((encode e.word).flatMap fun g => leBytes 4 g.toNat) ++
    [.ofNat 8 (1 + 2 * e.outcome.isSome.toNat + 4 * (e.outcome.getD false).toNat + 8 * e.cancel.toNat +
      16 * (e.pending.getD 0).toNat), e.gen, 0, 0] ++
    leBytes 4 e.handle.toNat ++ leBytes 32 e.img1.toNat ++ leBytes 32 e.img2.toNat ++ leBytes 8 e.scal.toNat ++
    leBytes 8 e.bar.toNat ++ padTo 24 (e.bounds.flatMap (leBytes 4)))

/-- The engine queues, from the head (R419). -/
def queueImage (c : Core) (g : Engine) : List Byte := padTo (160 * engineDepth g) ((c.queue g).flatMap Entry.image)

/-- The herd items (R421). -/
def herdImage (x : HerdCtx) : List Byte :=
  let att := (x.mask Core.isAttached).toNat
  let rep := x.mask fun c => c.front == .attached && c.block == some .branch
  padTo 4096 (
    padTo 512 (x.k.flatMap fun v => leBytes 2 v.toNat) ++ leBytes 8 (xkovWord x).toNat ++
    leBytes 8 (att + 2 ^ 8 * (x.stream.toNat / 4)) ++
    leBytes 8 ((x.diverge.map fun d => d.addr.toNat).getD 0) ++ leBytes 8 rep.toNat ++
    padTo 64 (x.cores.flatMap fun c => leBytes 8 (if c.block = some .branch then c.pc.toNat else 0)) ++
    leBytes 8 ((x.held.map Held.acc).getD 0))

/-- A core's context without its scratchpad (R419). -/
def State.coreImage (s : State) (x : HerdCtx) (h i : Nat) (c : Core) : List Byte :=
  padTo 256 ((c.s.set 0 0).flatMap fun w => leBytes 8 w.toNat) ++
  padTo 64 ((c.p.set 0 (.allOnes 64)).flatMap fun w => leBytes 8 w.toNat) ++
  padTo 32 (c.l.flatMap fun w => leBytes 4 w.toNat) ++ padTo 16 (c.g.map fun g => .ofNat 8 g.code) ++
  leBytes 8 c.pend.toNat ++ leBytes 8 c.handles.toNat ++ frontImage x c ++
  padTo 512 (c.b.flatMap fun w => leBytes 32 w.toNat) ++ padTo 512 (c.q.flatMap fun w => leBytes 32 w.toNat) ++
  padTo 256 ((s.xImage x h i c).flatMap fun w => leBytes 8 w.toNat) ++ loopImage c ++
  padTo 8192 (c.v.flatMap fun w => leBytes 256 w.toNat) ++
  padTo 4096 (c.cs.flatMap fun q => padTo 1024 (q.flatMap fun w => leBytes 4 w.toNat)) ++
  padTo 8192 (c.aq.flatMap fun q => padTo 2048 (q.flatMap AqEntry.image)) ++
  padTo 1024 (c.dq.flatMap fun q => padTo 256 (q.flatMap fun w => leBytes 4 w.toNat)) ++
  padTo 13312 (queueImage c .pump ++ queueImage c .matrix ++ queueImage c .well ++ queueImage c .coll) ++
  (if i = 0 then herdImage x else .replicate 4096 0)

/-! ## Reading back -/

/-- Doubleword, word and bit of an image. -/
def bitAt (bs : List Byte) (off i : Nat) : Bool := (bs.getD (off + i / 8) 0).getLsbD (i % 8)

def bv (n : Nat) (bs : List Byte) (off : Nat) : BitVec n := .ofNat n (fieldAt bs off ((n + 7) / 8))

/-- The status of a code (R181). -/
def statusOfCode (n : Nat) : EStatus :=
  match n with
  | 1 => .eccZeroed | 2 => .scalePoison | 3 => .checksumMismatch | 4 => .katMismatch | 5 => .replayLost | 6 => .cancelled
  | 7 => .staleBarrier | 8 => .translation | 9 => .peerDown | 10 => .queueReset | 11 => .thermalAbort
  | _ => .ok

/-- The loop state of an image. -/
def loopOf (bs : List Byte) : Option Loop :=
  let z := 0x700
  if bitAt bs z 0 then
    let d := (bs.getD z 0).toNat / 2
    let n := (bs.getD (z + 1) 0).toNat
    let body := (List.range (n % 16 + 1)).map fun k => bv 56 bs (z + 144 + 7 * k)
    some ⟨bv 56 bs (z + 2), (List.range d).map fun k => fieldAt bs (z + 9 + 4 * k) 4,
      (List.range d).map fun k => .ofNat 2 (fieldAt bs (z + 57) 2 / 4 ^ k),
      (List.range d).map fun k => fieldAt bs (z + 33 + 4 * k) 4, body, n / 16, (body.getLast?.getD 0) + 12⟩
  else none

/-- The cause of a held entry, of its code and its kind (R260). -/
def aqCauseOf (code kind : Nat) : AqCause :=
  match code with
  | 0 => .translation (.ofNat 8 kind)
  | 1 => .bounds
  | 2 => .misalignment
  | _ => .unrecoverable

/-- Entry j of access queue q: a head whose handler runs stays held for it, and any other held one performs again (R259, R261). -/
def aqEntryOf (bs : List Byte) (q j : Nat) : AqEntry :=
  let o := 0x3800 + 2048 * q + 32 * j
  let i := 64 * q + j
  let head := (bs.getD (0x743 + q) 0).toNat
  let told := j == 0 && head % 2 == 1
  { base := bv 64 bs o
    extent := bv 32 bs (o + 8)
    bounds := bv 4 bs (o + 12)
    width := fieldAt bs (o + 13) 1
    off := (bv 64 bs (o + 16)).toInt
    bad := bitAt bs 0x767 i
    user := bitAt bs 0x747 i
    seq := 0
    held := if told then some (aqCauseOf (fieldAt bs (o + 14) 1 / 2 % 8) (head / 2)) else none
    reported := told
    data := if bitAt bs (o + 14) 4 then some (bv 32 bs (o + 24)) else none }

/-- The sequence number that a restored entry takes: before both cut points, between them, or behind them. -/
def seqOf (bs : List Byte) (g j : Nat) : Nat :=
  if j < fieldAt bs (0x198 + g) 1 then 0 else if j < fieldAt bs (0x19C + g) 1 then 2 else 4

/-- Where the user bits of an engine's queue begin (log 18). -/
def userOff : Engine → Nat
  | .pump => 0x787 | .matrix => 0x789 | .well => 0x78B | .coll => 0x78F

/-- The engine entry at an offset; one that is not valid is none. -/
def entryOf (bs : List Byte) (g : Engine) (j o : Nat) : Option Entry :=
  if !bitAt bs (o + 24) 0 then none
  else match granules (bv 32 bs o) with
    | none => none
    | some n => match decodeGranules ((List.range n).map fun k => bv 32 bs (o + 4 * k)) with
      | .error _ => none
      | .ok i =>
        let known := bitAt bs (o + 24) 1
        some { word := i
               seq := seqOf bs (engineCode g) j
               outcome := if known then some (bitAt bs (o + 24) 2) else none
               pending := if known then none else some (.ofNat 4 (fieldAt bs (o + 24) 1 / 16))
               granted := false
               age := none
               cancel := bitAt bs (o + 24) 3
               user := bitAt bs (userOff g) j
               gen := bv 8 bs (o + 25)
               bar := bv 64 bs (o + 104)
               handle := bv 32 bs (o + 28)
               num := 0
               img1 := bv 256 bs (o + 32)
               img2 := bv 256 bs (o + 64)
               scal := bv 64 bs (o + 96)
               bounds := (List.range 6).map fun k => fieldAt bs (o + 112 + 4 * k) 4
               run := none }

/-- Where an engine's queue begins (R419). -/
def queueOff : Engine → Nat
  | .pump => 0x5C00 | .matrix => 0x6600 | .well => 0x7000 | .coll => 0x8400

/-- An engine's queue. -/
def queueOf (bs : List Byte) (g : Engine) : List Entry :=
  (List.range (engineDepth g)).filterMap fun j => entryOf bs g j (queueOff g + 160 * j)

/-- The trap registers of an image. -/
def xregsOf (bs : List Byte) : XRegs :=
  let w (i : Nat) : Word := bv 64 bs (0x600 + 8 * i)
  { priv := wbit (w 0) 0
    ie := wbit (w 0) 1
    pp := wbit (w 0) 2
    pie := wbit (w 0) 3
    intrap := wbit (w 0) 4
    np := wbit (w 0) 5
    ncode := (w 0).extractLsb' 8 16
    xvec := w 1
    xepc := w 2
    xcause := w 3
    xtval := w 4
    xscr0 := w 5
    xscr1 := w 6
    xfres := w 16 }

/-- The registers that lazy restore fetches (R407, R415). -/
def bankRegs : List BankReg :=
  (List.range 32).map (fun n => .s (.ofNat 5 n)) ++ (List.range 7).map (fun n => .p (.ofNat 3 (n + 1))) ++
  (List.range 8).map (fun n => .l (.ofNat 3 n)) ++ (List.range 16).map (fun n => .g (.ofNat 4 n)) ++
  (List.range 16).map (fun n => .b (.ofNat 4 n)) ++ (List.range 16).map (fun n => .q (.ofNat 4 n)) ++
  (List.range 32).map (fun n => .v (.ofNat 5 n)) ++
  [.x .xvec, .x .xepc, .x .xcause, .x .xtval, .x .xscr0, .x .xscr1, .x .xfres]

/-- The guard state of a code. -/
def guardOf (n : Nat) : Guard :=
  match n with
  | 0 => .opened | 2 => .no | _ => .yes

/-- A core of an image (R415): every register of the bank is absent. -/
def coreOf (bs : List Byte) (ref : Option SaveRef) (now : Nat) : Core :=
  let f := fieldAt bs 0x180 1
  let cut (bit v : Nat) : Option Nat := if bitAt bs 0x180 bit then some v else none
  { Core.idle with
    s := (List.range 32).map fun n => bv 64 bs (8 * n)
    pend := bv 32 bs 0x170
    v := (List.range 32).map fun n => bv 2048 bs (0x800 + 256 * n)
    p := (List.range 8).map fun n => bv 64 bs (0x100 + 8 * n)
    l := (List.range 8).map fun n => bv 32 bs (0x140 + 4 * n)
    g := (List.range 16).map fun n => guardOf (fieldAt bs (0x160 + n) 1)
    b := (List.range 16).map fun n => bv 256 bs (0x200 + 32 * n)
    q := (List.range 16).map fun n => bv 256 bs (0x400 + 32 * n)
    pc := bv 56 bs 0x188
    front := match f % 4 with
      | 0 => .attached | 1 => .stray | _ => .halted
    join := if bitAt bs 0x180 2 then some (bv 56 bs 0x190) else none
    block := if bitAt bs 0x180 3 then some .branch else none
    issueAt := now
    cutN := cut 4 1
    cutG := cut 5 3
    loop := loopOf bs
    cs := (List.range 4).map fun n =>
      (List.range (min 256 (Word.fieldAt (bv 64 bs 0x658) (9 * n + 8) (9 * n)))).map fun j => bv 32 bs (0x2800 + 1024 * n + 4 * j)
    csOvf := (bv 64 bs 0x658).extractLsb' 36 4
    aq := (List.range 4).map fun q => (List.range (min 64 (fieldAt bs (0x73B + q) 1))).map (aqEntryOf bs q)
    dq := (List.range 4).map fun q =>
      (List.range (min 64 (fieldAt bs (0x73F + q) 1))).map fun j => bv 32 bs (0x5800 + 256 * q + 4 * j)
    ldstall := (bv 64 bs 0x660).extractLsb' 16 32
    seq := 5
    eq := [queueOf bs .pump, queueOf bs .matrix, queueOf bs .well, queueOf bs .coll]
    last := (List.range 4).map fun i => statusOfCode (fieldAt bs (0x184 + i) 1)
    details := (List.range 4).map fun i => fieldAt bs (0x1B0 + 8 * i) 8
    tokens := bv 32 bs 0x1D0
    done := (List.range 4).map fun i => bv 32 bs (0x1A0 + 4 * i)
    handles := bv 32 bs 0x178
    wrapped := bitAt bs 0x182 0
    faulted := if bitAt bs 0x182 1 then some (bv 56 bs 0x1D8) else none
    direct := if bitAt bs 0x182 2 then some 5 else none
    lapped := bv 16 bs 0x1D4
    x := xregsOf bs
    absent := bankRegs
    saved := ref
    lost := bv 8 bs 0x181
    swapped := true }

/-- What the part keeps of a core's collectives while its context is saved: the counts of each group, and the numbers of the entries
in the queue (R381; log 69). -/
def Core.nums (c : Core) : List Nat × List Nat := (c.colls, (c.queue .coll).map Entry.num)

/-- A core whose entries have the numbers that the part kept for it. -/
def Core.withNums (c : Core) (x : List Nat × List Nat) : Core :=
  { c.setQueue .coll ((c.queue .coll).zipIdx.map fun y => { y.1 with num := x.2.getD y.2 0 }) with colls := x.1 }

/-- The numbers of entries that none were kept for: from 0 in each group, in the queue's order (log 69). -/
def freshNums (es : List Entry) : List Nat × List Nat :=
  es.foldl (fun x e =>
    let g := ((collGroup e.word).getD 0).toNat
    (x.1.modify g (· + 1), x.2 ++ [x.1.getD g 0])) (Core.idle.colls, [])

/-- A restored core's collectives are numbered as they were, where the part kept the numbers (R381; log 69). -/
def Core.numbered (c : Core) (x : Option (List Nat × List Nat)) : Core := c.withNums (x.getD (freshNums (c.queue .coll)))

/-- A herd's context of the images of its cores, its tiles and the numbers kept of its collectives (R415, R421). -/
def ctxOf (held : Held) (imgs : List (List Byte × Option SaveRef)) (tiles : List (List Lane)) (nums : List (List Nat × List Nat))
    (now : Nat) : HerdCtx :=
  let z := (imgs.head?.map Prod.fst).getD []
  { HerdCtx.idle with
    held := some held
    cores := imgs.zipIdx.map fun m => (coreOf m.1.1 m.1.2 now).numbered nums[m.2]?
    stream := .ofNat 56 (fieldAt z 0x9209 7 * 4)
    stopped := bitAt z 0x180 6
    diverge := if bitAt z 0x180 7 then some ⟨bv 56 z 0x9210⟩ else none
    mstall := bv 16 z 0x64D
    k := (List.range 256).map fun i => bv 16 z (0x9000 + 2 * i)
    kov := bitAt z 0x9200 0
    ksem := bv 8 z 0x9201
    acc := tiles ++ .replicate (4 - tiles.length) (.replicate 16384 0)
    evicts := fieldAt z 0x641 1 }

/-! ## Rectangles (R351) -/

/-- Bytes of the rectangle state (R351). -/
def rectBytes (hd : Header) : Nat := 67072 * hd.rows + 4608 * hd.cols

/-- A slot of a cistern. -/
def slotImage (x : CSlot) : List Byte :=
  padTo 1024 (if x.ql4 = some true then x.accs.flatMap fun a => padTo 32 (leBytes 4 a)
    else x.sums.flatMap fun a => leBytes 32 a.image)

def slotFlags (x : CSlot) : Byte :=
  .ofNat 8 ((match x.ql4 with
    | none => 0 | some false => 1 | some true => 2) + 4 * x.nan.toNat + 8 * x.taint.toNat + 16 * x.undef.toNat)

/-- What is kept of a latch: offset, format, flag and error record, of whose poisoned blocks `rowImage` has the upper digit. -/
def latchWord (l : Latch) (active : Bool) : List Byte :=
  leBytes 4 (l.off.isSome.toNat + 2 * l.tr.toNat + 4 * wellFmtCode l.fmt + 32 * active.toNat + 64 * (l.off.getD 0 / 64 % 2 ^ 21) +
    2 ^ 27 * min l.zeroed 1 + 2 ^ 28 * (l.poison % 16))

/-- A row of a rectangle. -/
def rowImage (x : Rect) (r : Nat) : List Byte :=
  let w := x.row r
  let ss := x.slots.getD r []
  padTo 67072 (
    padTo 65536 (ss.flatMap slotImage) ++ padTo 128 (w.alpha.flatMap (leBytes 4)) ++ padTo 128 (w.beta.flatMap (leBytes 4)) ++
    leBytes 2 (wellFmtCode w.fmt + 8 * w.tr.toNat + 16 * w.dqb.toNat + 32 * w.mlb.toNat + 64 * w.rdb.toNat +
      2 ^ 8 * actFnCode w.fn) ++
    padTo 64 (ss.map slotFlags) ++
    padTo 1024 ((x.wells.getD r []).flatMap fun y => latchWord y.latch0 y.active ++ latchWord y.latch1 y.active) ++
    padTo 128 ((x.wells.getD r []).map fun y => .ofNat 8 (y.latch0.poison / 16 + 16 * (y.latch1.poison / 16))))

/-- A column's buffer: 64 blocks of 72 bytes. -/
def bufImage (bs : List WBlock) : List Byte :=
  padTo 4608 (bs.flatMap fun b => padTo 64 (b.a.flatMap fun v => leBytes 2 (BitVec.ofInt 16 v).toNat) ++
    leBytes 8 (BitVec.ofInt 64 b.x).toNat)

/-- The rectangle state (R351). -/
def rectImage (x : Rect) : List Byte :=
  (List.range x.wells.length).flatMap (rowImage x) ++ x.bufs.flatMap bufImage

/-- A slot of a saved rectangle. -/
def slotOfImage (bs : List Byte) (o f : Nat) : CSlot :=
  let ql : Option Bool := match f % 4 with
    | 0 => none | 1 => some false | _ => some true
  { CSlot.fresh with
    ql4 := ql
    sums := if f % 4 < 2 then (List.range 32).map fun n => EP128.ofImage (fieldAt bs (o + 32 * n) 32) else CSlot.fresh.sums
    accs := if f % 4 < 2 then CSlot.fresh.accs else (List.range 32).map fun n => fieldAt bs (o + 32 * n) 4
    nan := f / 4 % 2 == 1
    taint := f / 8 % 2 == 1
    undef := f / 16 % 2 == 1 }

/-- A latch of a saved rectangle: it is filled again (R351). -/
def latchOf (w : Nat) : Latch :=
  if w % 2 = 0 then .entry
  else { Latch.entry with
    off := some (w / 64 % 2 ^ 21 * 64)
    fmt := (wellFmtOfCode (w / 4 % 8)).getD .int8
    tr := w / 2 % 2 == 1
    fill := some ⟨false, [], []⟩ }

def rowOf (bs : List Byte) (o : Nat) : RowState :=
  let f := fieldAt bs (o + 65792) 2
  ⟨(wellFmtOfCode (f % 8)).getD .int8, f / 8 % 2 == 1, f / 16 % 2 == 1, f / 32 % 2 == 1, f / 64 % 2 == 1,
    (actFnOfCode (f / 256)).getD .identity, (List.range 32).map fun n => fieldAt bs (o + 65536 + 4 * n) 4,
    (List.range 32).map fun n => fieldAt bs (o + 65664 + 4 * n) 4⟩

/-- A rectangle as it was saved, its latches to be filled again (R351). -/
def Rect.restore (x : Rect) (bs : List Byte) : Rect :=
  let rows := x.wells.length
  { x with
    wells := x.wells.zipIdx.map fun r => r.1.zipIdx.map fun w =>
      let o := 67072 * r.2 + 65858 + 8 * w.2
      let a := fieldAt bs o 4
      ⟨latchOf a, latchOf (fieldAt bs (o + 4) 4), a / 32 % 2 == 1⟩
    rows := (List.range rows).map fun r => rowOf bs (67072 * r)
    slots := (List.range rows).map fun r => (List.range 64).map fun k =>
      slotOfImage bs (67072 * r + 1024 * k) (fieldAt bs (67072 * r + 65794 + k) 1)
    bufs := x.bufs.zipIdx.map fun b => (List.range 64).map fun k =>
      let o := 67072 * rows + 4608 * b.2 + 72 * k
      ⟨(List.range 32).map fun n => (bv 16 bs (o + 2 * n)).toInt, (bv 64 bs (o + 64)).toInt⟩
    refill := true }

end Sys2Proof.Machine
end

