-- ==== Sys2Proof/Machine/Operands.lean ====
section
/-! DEFINITION. Operands of the vector engine: descriptors, scratchpad references, lanes and where a result goes
(spec/08_vector_engine.md R188 to R193, R211). -/

namespace Sys2Proof.Machine

/-! ## Lanes -/

/-- The bits of the lanes that a word of lane bits names (R188). -/
def laneMask (m : Word) : Slice := ofElems 32 ((List.range 64).map fun i => if m.getLsbD i then 2 ^ 32 - 1 else 0)

/-- Lane i of a slice. -/
def laneAt (x : Slice) (i : Nat) : Nat := x.toNat / 2 ^ (32 * i) % 2 ^ 32

/-- Bits of a vector register that a result still has to land in (R117). -/
def Core.pendingV (c : Core) (n : BitVec 5) : Slice :=
  c.vlands.foldl (fun m e => e.targets.foldl (fun m t => match t with
    | .reg k x _ => if k = n then m ||| x else m
    | _ => m) m) 0

/-- Bits of a predicate that a result still has to land in (R117, R193). -/
def Core.pendingP (c : Core) (n : BitVec 3) : Word :=
  c.vlands.foldl (fun m e => e.targets.foldl (fun m t => match t with
    | .pred k x _ => if k = n then m ||| x else m
    | _ => m) m) 0

/-- A vector register as a word reads it in its issue ck; bits that have not landed are free (R117, R192; log 9). -/
def Core.readV (c : Core) (k : Nat) (n : BitVec 5) : Slice := maskIn (c.gv n) (c.pendingV n) (Config.freeSlice k)

/-- A predicate as a word reads it; bits that have not landed are free (R193; log 9). -/
def Core.readP (c : Core) (k : Nat) (n : BitVec 3) : Word :=
  if n = 0 then .allOnes 64 else maskIn (c.gp n) (c.pendingP n) (Config.freeWord k)

/-- Every vector word takes eight free values, of which it may use some (log 4). -/
def State.fresh (s : State) : State := { s with fv := s.fv + 8 }

/-! ## Registers a word needs -/

/-- Registers of the bank that a descriptor reads. -/
def descBank : Desc → List BankReg
  | .reg n => [.v n]
  | .mem m => [.b m.b]
  | .scal r => [.s r]
  | .imm _ => []

/-- Scalar registers that a descriptor reads. -/
def descScalars : Desc → List (BitVec 5)
  | .scal r => [r]
  | _ => []

/-- A predicate other than p0. -/
def predBank (n : BitVec 3) : List BankReg := if n = 0 then [] else [.p n]

/-- Whether a word may issue as far as its registers go: no scalar source is pending, and every register that it reads is
present (R156, R407). -/
def Core.vready (c : Core) (h : VHdr) (ds : List Desc) : Bool :=
  c.free (ds.flatMap descScalars) [] && c.here (predBank h.pred ++ ds.flatMap descBank)

/-! ## Scratchpad references (R190, R211) -/

/-- How a reference is addressed: a slice of 4-byte lanes, or one element of some bytes per lane. -/
inductive RefMode where
  | slice
  | elem (bytes : Nat)
  deriving DecidableEq, Repr

/-- Bytes of one access. -/
def RefMode.bytes : RefMode → Nat
  | .slice => 4
  | .elem n => n

/-- The distance from lane to lane. -/
def laneStep (r : Rec) (sel : BitVec 2) (m : RefMode) : Int :=
  match sel.toNat with
  | 0 => m.bytes
  | 1 => r.str0
  | 2 => r.str1
  | _ => 0

/-- The span of a reference (R211). -/
def spanStep (r : Rec) (sel : BitVec 2) (m : RefMode) : Int :=
  match sel.toNat with
  | 0 => 64 * m.bytes
  | 1 => 64 * r.str0
  | 2 => 64 * r.str1
  | _ => m.bytes

/-- step(t_k) of R211. -/
def loopStep (r : Rec) (sel : BitVec 2) (m : RefMode) (t : BitVec 2) : Int :=
  match t.toNat with
  | 0 => 0
  | 1 => r.str0
  | 2 => r.str1
  | _ => spanStep r sel m

/-- How far the loop nest under way has advanced a reference (R211). -/
def Core.loopAdvance (c : Core) (r : Rec) (sel : BitVec 2) (m : RefMode) : Int :=
  match c.inLoop, c.loop with
  | true, some l => (List.zipWith (fun (j : Nat) t => (j : Int) * loopStep r sel m t) l.idx l.steps).foldl (· + ·) 0
  | _, _ => 0

/-- The record offset of lane i of a reference (R190). -/
def Core.laneOffset (c : Core) (x : MemRef) (m : RefMode) (i : Nat) : Int :=
  let r := recOf (c.gb x.b)
  4 * x.off.toInt + c.loopAdvance r x.sel m + i * laneStep r x.sel m

/-- How the checks of one lane end. -/
inductive LaneHit where
  | off
  | at_ (ptr : Word) (l : Nat)
  | none_
  | fail (t : Cause)
  | wait
  deriving DecidableEq, Repr

/-- The checks of one lane's access to the core's own scratchpad (R190, R217, R222; log 21). -/
def State.laneReach (s : State) (r : Rec) (o : Int) (n : Nat) : LaneHit :=
  if r.ok && pSpace r.base != 1 then .fail (.bounds false (ptrAt r.base o))
  else match r.check o n with
    | .error t => .fail t
    | .ok none => if pAddr (ptrAt r.base o) % n ≠ 0 then .fail (.misalignment (ptrAt r.base o)) else .none_
    | .ok (some p) =>
      let l := scratchLoc s.cur.1 s.cur.2 (pAddr p)
      if s.capacity s.cur.1 s.cur.2 < pAddr p + n then .fail (.bounds false p)
      else if pAddr p % n ≠ 0 then .fail (.misalignment p)
      else if s.spillHolds l then .wait
      else .at_ p l

/-- The checks of the lanes that a word of lane bits names. -/
def State.laneHits (s : State) (r : Rec) (need : Word) (n : Nat) (off : Nat → Int) : List LaneHit :=
  (List.range 64).map fun i => if need.getLsbD i then s.laneReach r (off i) n else .off

def LaneHit.cause : LaneHit → Option Cause
  | .fail t => some t
  | _ => none

def LaneHit.loc : LaneHit → Option Nat
  | .at_ _ l => some l
  | _ => none

/-! ## Reading lanes -/

/-- How reading an operand ends. -/
inductive VGot where
  | got (x : Slice)
  | trap (t : Cause)
  | wait
  deriving DecidableEq, Repr

/-- What a lane meets in the store queue (R193, R254). -/
def LaneHit.forward (sq : List SqEntry) (n : Nat) : LaneHit → Forward
  | .at_ _ l => forwardOf sq l n
  | _ => .clear

/-- The number that a lane reads: the bytes of the store queue, or memory, or zero where bounds mode zero discards it. -/
def State.laneValue (s : State) (c : Core) (n : Nat) (x : LaneHit) : Nat :=
  match x with
  | .at_ _ l => leNat (match forwardOf c.sq l n with
    | .bytes bs => bs
    | _ => (s.ownRead c l n).2)
  | _ => 0

/-- The pointer of the first lane that reads a unit. -/
def hitPtr (hits : List LaneHit) (n r : Nat) : Word :=
  (hits.findSome? fun x => match x with
    | .at_ p l => if (unitsOf l n).contains r then some p else none
    | _ => none).getD 0

/-- Read lanes of n bytes each, behind every check (R190, R192, R193, R226, R229) and behind the access-queue loads of the same bytes
(R358). -/
def State.readLanes (s : State) (c : Core) (hits : List LaneHit) (n : Nat) (f : Nat → Nat) : State × VGot :=
  match hits.findSome? LaneHit.cause with
  | some t => (s, .trap t)
  | none =>
    let locs := hits.filterMap LaneHit.loc
    let q := s.aqPlaces s.cur.1 s.cur.2 c.seq c
    let z := q.1
    if hits.any (fun x => x == .wait) || hits.any (fun x => x.forward c.sq n == .wait) ||
        locs.any (fun l => placesMeet q.2 (loadFirst c.sq l n) l n) then (z, .wait)
    else
      let units := (locs.flatMap fun l => unitsOf l n).eraseDups
      match c.reconMiss, units.find? z.mayRecon with
      | true, some r => (z.modCore z.cur.1 z.cur.2 Core.reconFault, .trap (.reconstruction 0 (hitPtr hits n r)))
      | _, _ =>
        match z.readUnits false units with
        | (t, []) => (t, .got (ofElems 32 (hits.map fun x => f (t.laneValue c n x))))
        | (t, r :: _) => (t, .trap (.reconstruction 1 (hitPtr hits n r)))

/-! ## Sources -/

/-- A source of a word: its descriptor, the type whose width broadcasts take, whether an immediate is an integer there
(R191), and the lanes that the word reads of it, given its active lanes. -/
structure VSrc where
  desc  : Desc
  ty    : ElemType
  int   : Bool
  lanes : Word → Word

/-- A source that is read in the active lanes. -/
def srcOf (t : ElemType) (d : Desc) : VSrc := ⟨d, t, false, id⟩

/-- A source whose elements are integers, whatever the type (R191). -/
def srcInt (t : ElemType) (d : Desc) : VSrc := ⟨d, t, true, id⟩

/-- The element that an immediate supplies (R191). -/
def immElem (t : ElemType) (int : Bool) (i : BitVec 16) : Nat :=
  if int then (i.toInt % (2 ^ elemWidth t : Nat)).toNat
  else match t with
    | .f32 => i.toNat * 2 ^ 16
    | .f16 | .bf16 => i.toNat
    | _ => (i.toInt % (2 ^ elemWidth t : Nat)).toNat

/-- One element in every position (R189). -/
def broadcast (w x : Nat) : Slice := ofElems w (List.replicate (elemCount w) x)

/-- Read a source (R189 to R193). Lanes of a scratchpad image that the word does not read are free: nothing read from them
reaches a result (R188; log 28). -/
def State.readSrc (s : State) (c : Core) (k : Nat) (act : Word) (x : VSrc) : State × VGot :=
  match x.desc with
  | .reg n => (s, .got (c.readV k n))
  | .scal r => (s, .got (broadcast (elemWidth x.ty) (c.gs r).toNat))
  | .imm i => (s, .got (broadcast (elemWidth x.ty) (immElem x.ty x.int i)))
  | .mem m =>
    let need := x.lanes act
    match s.readLanes c (s.laneHits (recOf (c.gb m.b)) need 4 (c.laneOffset m .slice)) 4 id with
    | (t, .got v) => (t, .got (maskIn (Config.freeSlice k) (laneMask need) v))
    | r => r

/-- How reading several sources ends. -/
inductive VGots where
  | got (xs : List Slice)
  | trap (t : Cause)
  | wait

/-- Read sources in order, the k-th free slice for the first (R190). -/
def State.readSrcs (s : State) (c : Core) (k : Nat) (act : Word) : List VSrc → State × VGots
  | [] => (s, .got [])
  | x :: r =>
    match s.readSrc c k act x with
    | (t, .trap e) => (t, .trap e)
    | (t, .wait) => (t, .wait)
    | (t, .got v) =>
      match t.readSrcs c (k + 1) act r with
      | (u, .got vs) => (u, .got (v :: vs))
      | e => e

/-! ## Writing lanes -/

/-- The cells of lanes of n bytes; where lanes name the same bytes the highest lane's remain (R208; log 29). -/
def laneCells (hits : List LaneHit) (n : Nat) (vals : List Nat) : List Host.Cell :=
  (hits.zip vals).flatMap fun x => match x.1 with
    | .at_ _ l => (leBytes n x.2).zipIdx.map fun b => (l + b.2, b.1)
    | _ => []

/-- An access-queue entry before a vector write of the core: an entry that reads bytes of the write keeps the value from before it
(R257), and performs in its turn (R256). None: the write has to wait. -/
def State.captureEntry (s : State) (c : Core) (locs : List Nat) (n : Nat) (e : AqEntry) : State × Option AqEntry :=
  if e.held.isSome || e.data.isSome then (s, some e)
  else match s.aqReach s.cur.1 s.cur.2 e with
    | (t, .wait) => (t, none)
    | (t, .at_ _ (.loc a _)) =>
      if locs.any fun l => overlap a e.width l n then
        match t.aqLoad s.cur.1 s.cur.2 c e with
        | (u, .data v) => (u, some { e with data := some v })
        | (u, .hold _) => (u, some e)
        | (u, .wait) => (u, none)
      else (t, some e)
    | (t, _) => (t, some e)

/-- Every access-queue entry before a vector write, in program order: one that has kept its value is out of the way of the later ones
(R257, R358). None: the write has to wait. -/
def State.captureQueues (s : State) (c : Core) (locs : List Nat) (n : Nat) : List (Nat × Nat) → State × Option Core
  | [] => (s, some c)
  | p :: r =>
    match (c.aq.getD p.1 [])[p.2]? with
    | none => s.captureQueues c locs n r
    | some e =>
      match s.captureEntry c locs n e with
      | (t, none) => (t, none)
      | (t, some x) => t.captureQueues { c with aq := c.aq.modify p.1 (·.set p.2 x) } locs n r

/-- How the checks of a destination end: the core, changed by what its access queues took, or a trap or a wait. -/
inductive VPut where
  | go (c : Core)
  | trap (t : Cause)
  | wait

/-- The checks of the lanes that a word is to write (R190, R193, R257): it waits while an earlier store to their bytes is
in the store queue. -/
def State.writeLanes (s : State) (c : Core) (hits : List LaneHit) (n : Nat) : State × VPut :=
  match hits.findSome? LaneHit.cause with
  | some t => (s, .trap t)
  | none =>
    let locs := hits.filterMap LaneHit.loc
    if hits.any (fun x => x == .wait) || c.sq.any (fun e => locs.any fun l => e.hits l n) then (s, .wait)
    else match s.captureQueues c locs n c.aqOrder with
      | (t, some d) => (t, .go d)
      | (t, none) => (t, .wait)

/-! ## Issue -/

/-- The word issues: its result is on its way, and the core goes on (R117). -/
def State.vissue (s : State) (c : Core) (h : VHdr) (targets : List VTarget) (colour : BitVec 3) (dq : Bool) : State :=
  s.fresh.done { c with vlands := c.vlands ++ [⟨targets, s.now + 2, s.now + h.lat.toNat, colour, c.seq, dq⟩] } 12 h.gap.toNat

/-- A register that a word replaces whole becomes present; one that it writes in part has to be there (R407). -/
def Core.claimV (c : Core) (n : BitVec 5) (mask : Slice) : Option Core :=
  if mask = .allOnes 2048 then some (c.present (.v n))
  else if c.isAbsent (.v n) then none
  else some c

/-- A computing word: what it writes and reads. lanes are the lanes of D that it writes, and part the bits of D that it may
write, given its active lanes; fn gives D from the active lanes, the sources and the old D. -/
structure VOp where
  dst   : Desc
  readD : Bool
  lanes : Word → Word
  part  : Slice
  srcs  : List VSrc
  fn    : Word → List Slice → Slice → Slice

/-- The sources with D as the last one, where the word reads it. -/
def VOp.reads (o : VOp) (t : ElemType) : List VSrc := o.srcs ++ if o.readD then [⟨o.dst, t, false, o.lanes⟩] else []

/-- Elements of a 6-bit type are written with bits [7:6] zero (R187). -/
def tidy (t : ElemType) (x : Slice) : Slice :=
  match t with
  | .e3m2 | .e2m3 => x &&& broadcast 8 0x3F
  | _ => x

/-- The word has read its sources: its result goes to a register or to the scratchpad. -/
def State.vfinish (s : State) (c : Core) (h : VHdr) (o : VOp) (act : Word) (xs : List Slice) : Out :=
  let v := tidy h.ty (o.fn act (xs.take o.srcs.length) (xs.getD o.srcs.length 0))
  match o.dst with
  | .mem m =>
    let r := recOf (c.gb m.b)
    let hits := s.laneHits r (o.lanes act) 4 (c.laneOffset m .slice)
    match s.writeLanes c hits 4 with
    | (t, .trap e) => t.trap e
    | (t, .wait) => .next t
    | (t, .go d) => .next (t.vissue d h [.mem (laneCells hits 4 (elems 32 v))] r.colour false)
  | .reg n =>
    let mask := laneMask (o.lanes act) &&& o.part
    match c.claimV n mask with
    | some d => .next (s.vissue d h [.reg n mask v] 0 false)
    | none => .next s
  | _ => .next s

/-- A computing word issues (R188 to R193): it reads A, B and D in order, with every check, and then writes D. -/
def vector (h : VHdr) (o : VOp) (s : State) : Out :=
  s.onMy fun c =>
    let dMem := match o.dst with
      | .mem m => [BankReg.b m.b]
      | _ => []
    if c.vready h ((o.reads h.ty).map VSrc.desc) && c.here dMem then
      let act := c.readP s.fv h.pred
      match s.readSrcs c (s.fv + 1) act (o.reads h.ty) with
      | (t, .trap e) => t.trap e
      | (t, .wait) => .next t
      | (t, .got xs) => t.vfinish c h o act xs
    else .next s

/-- A word of one source, lane by lane in the active lanes. -/
def vop1 (h : VHdr) (d : Desc) (a : VSrc) (fn : Slice → Slice) : State → Out :=
  vector h ⟨d, false, id, .allOnes 2048, [a], fun _ xs _ => fn (xs.getD 0 0)⟩

/-- A word of two sources. -/
def vop2 (h : VHdr) (d : Desc) (a b : VSrc) (fn : Slice → Slice → Slice) : State → Out :=
  vector h ⟨d, false, id, .allOnes 2048, [a, b], fun _ xs _ => fn (xs.getD 0 0) (xs.getD 1 0)⟩

/-- A word of two sources that reads D as well. -/
def vop3 (h : VHdr) (d : Desc) (a b : VSrc) (fn : Slice → Slice → Slice → Slice) : State → Out :=
  vector h ⟨d, true, id, .allOnes 2048, [a, b], fun _ xs x => fn x (xs.getD 0 0) (xs.getD 1 0)⟩

/-- Element by element. -/
def map1 (w : Nat) (f : Nat → Nat) (a : Slice) : Slice := ofElems w ((elems w a).map f)
def map2 (w : Nat) (f : Nat → Nat → Nat) (a b : Slice) : Slice := ofElems w (List.zipWith f (elems w a) (elems w b))
def map3 (w : Nat) (f : Nat → Nat → Nat → Nat) (d a b : Slice) : Slice :=
  ofElems w ((elems w d).zip (List.zipWith Prod.mk (elems w a) (elems w b)) |>.map fun x => f x.1 x.2.1 x.2.2)

end Sys2Proof.Machine
end

