-- ==== Sys2Proof/Machine/Flags.lean ====
section
/-! DEFINITION. The predicates of the vector engine: comparisons and the predicate words (spec/08_vector_engine.md R200,
R201). -/

namespace Sys2Proof.Machine

/-! ## Comparisons -/

/-- A comparison of two values, neither a NaN. -/
def cmpHolds (cc : Cmp) (lt eq : Bool) : Bool :=
  match cc with
  | .eq => eq | .ne => !eq | .lt => lt | .le => lt || eq | .gt => !(lt || eq) | .ge => !lt | .un => false | .ord => true

/-- A comparison where an operand is a NaN (R200). -/
def cmpNan (cc : Cmp) : Bool :=
  match cc with
  | .ne | .un => true
  | _ => false

/-- The comparison of two elements (R200). -/
def cmpElem (t : ElemType) (cc : Cmp) (a b : Nat) : Bool :=
  let x := valueOf t a
  let y := valueOf t b
  if x.isNan || y.isNan then cmpNan cc else cmpHolds cc (x.lt y) (x.eqv y)

/-- Whether every element of a lane satisfies the comparison. -/
def laneHolds (w : Nat) (rs : List Bool) (i : Nat) : Bool := ((rs.drop (i * (32 / w))).take (32 / w)).all id

/-- A word with bit i as given. -/
def bitsOf (f : Nat → Bool) : Word := (List.range 64).foldl (fun m i => if f i then m ||| (1#64 <<< i) else m) 0

/-- What vcmp writes: bit i where lane i is active and the comparison holds for each of its elements (R200). -/
def cmpWord (t : ElemType) (cc : Cmp) (act : Word) (a b : Slice) : Word :=
  let w := elemWidth t
  let rs := List.zipWith (cmpElem t cc) (elems w a) (elems w b)
  bitsOf fun i => act.getLsbD i && laneHolds w rs i

/-- The predicate that a descriptor names (R114). -/
def predNum : Desc → BitVec 3
  | .reg n => n.truncate 3
  | _ => 0

/-- A predicate takes a whole new value; p0 keeps its own (R112, R407). -/
def State.pissue (s : State) (c : Core) (h : VHdr) (pd : BitVec 3) (v : Word) : State :=
  s.vissue (if pd = 0 then c else c.present (.p pd)) h [.pred pd (.allOnes 64) v] 0 false

/-- vcmp (R200). -/
def execVcmp (h : VHdr) (cc : Cmp) (d a b : Desc) (s : State) : Out :=
  s.onMy fun c =>
    if c.vready h [a, b] then
      let act := c.readP s.fv h.pred
      match s.readSrcs c (s.fv + 1) act [srcOf h.ty a, srcOf h.ty b] with
      | (t, .trap e) => t.trap e
      | (t, .wait) => .next t
      | (t, .got xs) => .next (t.pissue c h (predNum d) (cmpWord h.ty cc act (xs.getD 0 0) (xs.getD 1 0)))
    else .next s

/-! ## Predicate words (R201) -/

/-- A predicate word of two predicates. -/
def pword (h : VHdr) (pd pa pb : BitVec 3) (f : Word → Word → Word) (s : State) : Out :=
  s.onMy fun c => .next (
    if c.here (predBank pa ++ predBank pb) then s.pissue c h pd (f (c.readP (s.fv + 1) pa) (c.readP (s.fv + 2) pb)) else s)

/-- pand (R201). -/
def execPand (h : VHdr) (pd pa pb : BitVec 3) : State → Out := pword h pd pa pb (· &&& ·)

/-- por (R201). -/
def execPor (h : VHdr) (pd pa pb : BitVec 3) : State → Out := pword h pd pa pb (· ||| ·)

/-- pxor (R201). -/
def execPxor (h : VHdr) (pd pa pb : BitVec 3) : State → Out := pword h pd pa pb (· ^^^ ·)

/-- pnot (R201). -/
def execPnot (h : VHdr) (pd pa : BitVec 3) : State → Out := pword h pd pa 0 fun x _ => ~~~x

/-- The lowest one bit of a word alone. -/
def lowestBit (x : Word) : Word := x &&& (0 - x)

/-- pfirst (R201). -/
def execPfirst (h : VHdr) (pd pa : BitVec 3) : State → Out := pword h pd pa 0 fun x _ => lowestBit x

/-- What pset writes: all bits of a scalar, or the n low bits (R201). -/
def psetWord (c : Core) : Desc → Word
  | .scal r => c.gs r
  | .imm i => .ofNat 64 (2 ^ i.toNat - 1)
  | _ => 0

/-- pset (R201). -/
def execPset (h : VHdr) (pd : BitVec 3) (a : Desc) (s : State) : Out :=
  s.onMy fun c => .next (if c.vready h [a] then s.pissue c h pd (psetWord c a) else s)

/-- A word that writes all lanes of a register from a predicate. -/
def pspread (h : VHdr) (vd : BitVec 5) (pa : BitVec 3) (f : Word → Slice) (s : State) : Out :=
  s.onMy fun c => .next (
    if c.here (predBank pa) then
      s.vissue (c.present (.v vd)) h [.reg vd (.allOnes 2048) (f (c.readP (s.fv + 1) pa))] 0 false
    else s)

/-- pget (R201). -/
def execPget (h : VHdr) (vd : BitVec 5) (pa : BitVec 3) : State → Out := pspread h vd pa laneMask

/-- pcnt (R201). -/
def execPcnt (h : VHdr) (vd : BitVec 5) (pa : BitVec 3) : State → Out :=
  pspread h vd pa fun x => broadcast 32 (popOf x.toNat 64)

end Sys2Proof.Machine
end

