-- ==== Sys2Proof/Machine/Vector.lean ====
section
/-! DEFINITION. Vector words that compute element by element (spec/08_vector_engine.md R197 to R199, R202 to R205). -/

namespace Sys2Proof.Machine

/-! ## Shapes -/

/-- A two-source word element by element. -/
def velem2 (h : VHdr) (d a b : Desc) (f : VMode → Nat → Nat → Nat) : State → Out :=
  vop2 h d (srcOf h.ty a) (srcOf h.ty b) (map2 (elemWidth h.ty) (f (vmode h)))

/-- A one-source word element by element. -/
def velem1 (h : VHdr) (d a : Desc) (f : VMode → Nat → Nat) : State → Out :=
  vop1 h d (srcOf h.ty a) (map1 (elemWidth h.ty) (f (vmode h)))

/-- A word of two sources and D element by element: f takes D, A and B. -/
def velem3 (h : VHdr) (d a b : Desc) (f : VMode → Nat → Nat → Nat → Nat) : State → Out :=
  vop3 h d (srcOf h.ty a) (srcOf h.ty b) (map3 (elemWidth h.ty) (f (vmode h)))

/-! ## Arithmetic (R197) -/

/-- vadd (R197). -/
def execVadd (h : VHdr) (d a b : Desc) : State → Out := velem2 h d a b eAdd

/-- vsub (R197). -/
def execVsub (h : VHdr) (d a b : Desc) : State → Out := velem2 h d a b eSub

/-- vmul (R197). -/
def execVmul (h : VHdr) (d a b : Desc) : State → Out := velem2 h d a b eMul

/-- vmulh (R197). -/
def execVmulh (h : VHdr) (d a b : Desc) : State → Out := velem2 h d a b eMulh

/-- vmin (R197). -/
def execVmin (h : VHdr) (d a b : Desc) : State → Out := velem2 h d a b eMin

/-- vmax (R197). -/
def execVmax (h : VHdr) (d a b : Desc) : State → Out := velem2 h d a b eMax

/-- vabs (R197). -/
def execVabs (h : VHdr) (d a : Desc) : State → Out := velem1 h d a eAbs

/-- vneg (R197). -/
def execVneg (h : VHdr) (d a : Desc) : State → Out := velem1 h d a eNeg

/-- D + A × B on integers (R197). -/
def eMac (m : VMode) (d a b : Nat) : Nat := fit m.ty m.sat (intOf m.ty d + intOf m.ty a * intOf m.ty b)

/-- vmac (R197). -/
def execVmac (h : VHdr) (d a b : Desc) : State → Out := velem3 h d a b eMac

/-- The 32-bit integer type of the signedness of another. -/
def wide32 (t : ElemType) : ElemType := if isSigned t then .s32 else .z32

/-- The sum of the products of four bytes of lane i. -/
def dotLane (t : ElemType) (xs ys : List Nat) (i : Nat) : Int :=
  (List.zipWith (fun x y => intOf t x * intOf t y) ((xs.drop (4 * i)).take 4) ((ys.drop (4 * i)).take 4)).foldl (· + ·) 0

/-- vdot4's lanes (R197). -/
def dot4 (m : VMode) (d a b : Slice) : Slice :=
  let xs := elems 8 a
  let ys := elems 8 b
  ofElems 32 ((elems 32 d).zipIdx.map fun x =>
    fit (wide32 m.ty) m.sat (intOf (wide32 m.ty) x.1 + dotLane m.ty xs ys x.2))

/-- vdot4 (R197). -/
def execVdot4 (h : VHdr) (d a b : Desc) : State → Out := vop3 h d (srcOf h.ty a) (srcOf h.ty b) (dot4 (vmode h))

/-! ## Floating functions (R198) -/

/-- vfma (R198). -/
def execVfma (h : VHdr) (d a b : Desc) : State → Out := velem3 h d a b fun m => eFma m false false

/-- vfms (R198). -/
def execVfms (h : VHdr) (d a b : Desc) : State → Out := velem3 h d a b fun m => eFma m false true

/-- vfnma (R198). -/
def execVfnma (h : VHdr) (d a b : Desc) : State → Out := velem3 h d a b fun m => eFma m true false

/-- vdiv (R198). -/
def execVdiv (h : VHdr) (d a b : Desc) : State → Out := velem2 h d a b eDiv

/-- vsqrt (R198). -/
def execVsqrt (h : VHdr) (d a : Desc) : State → Out := velem1 h d a fun m => eFun m Num.sqrt

/-- vrsqrt (R198). -/
def execVrsqrt (h : VHdr) (d a : Desc) : State → Out := velem1 h d a fun m => eFun m Num.rsqrt

/-- vrcp (R198). -/
def execVrcp (h : VHdr) (d a : Desc) : State → Out := velem1 h d a fun m => eFun m Num.rcp

/-- vexp2 (R198). -/
def execVexp2 (h : VHdr) (d a : Desc) : State → Out := velem1 h d a fun m => eElem m fExp2

/-- vlog2 (R198). -/
def execVlog2 (h : VHdr) (d a : Desc) : State → Out := velem1 h d a fun m => eElem m fLog2

/-- vtanh (R198). -/
def execVtanh (h : VHdr) (d a : Desc) : State → Out := velem1 h d a fun m => eElem m fTanh

/-- vsigm (R198). -/
def execVsigm (h : VHdr) (d a : Desc) : State → Out := velem1 h d a fun m => eElem m fSigm

/-- vscale (R198): B is an integer (R191). -/
def execVscale (h : VHdr) (d a b : Desc) : State → Out :=
  vop2 h d (srcOf h.ty a) (srcInt h.ty b) (map2 (elemWidth h.ty) (eScale (vmode h)))

/-! ## Bits and selection (R199) -/

/-- vand (R199). -/
def execVand (h : VHdr) (d a b : Desc) : State → Out := vop2 h d (srcOf h.ty a) (srcOf h.ty b) (· &&& ·)

/-- vor (R199). -/
def execVor (h : VHdr) (d a b : Desc) : State → Out := vop2 h d (srcOf h.ty a) (srcOf h.ty b) (· ||| ·)

/-- vxor (R199). -/
def execVxor (h : VHdr) (d a b : Desc) : State → Out := vop2 h d (srcOf h.ty a) (srcOf h.ty b) (· ^^^ ·)

/-- vandn (R199). -/
def execVandn (h : VHdr) (d a b : Desc) : State → Out := vop2 h d (srcOf h.ty a) (srcOf h.ty b) fun x y => x &&& ~~~y

/-- vsll (R199). -/
def execVsll (h : VHdr) (d a b : Desc) : State → Out := velem2 h d a b eSll

/-- vsrl (R199). -/
def execVsrl (h : VHdr) (d a b : Desc) : State → Out := velem2 h d a b eSrl

/-- vsra (R199). -/
def execVsra (h : VHdr) (d a b : Desc) : State → Out := velem2 h d a b eSra

/-- vclz (R199). -/
def execVclz (h : VHdr) (d a : Desc) : State → Out := velem1 h d a fun m x => clzOf x (elemWidth m.ty)

/-- vpopc (R199). -/
def execVpopc (h : VHdr) (d a : Desc) : State → Out := velem1 h d a fun m x => popOf x (elemWidth m.ty)

/-- vmov (R199). -/
def execVmov (h : VHdr) (d a : Desc) : State → Out := vop1 h d (srcOf h.ty a) id

/-- vsel (R199): A is read in the active lanes, B in the inactive ones, and every lane of D is written. -/
def execVsel (h : VHdr) (d a b : Desc) : State → Out :=
  vector h ⟨d, false, fun _ => .allOnes 64, .allOnes 2048, [srcOf h.ty a, ⟨b, h.ty, false, fun m => ~~~m⟩],
    fun act xs _ => maskIn (xs.getD 1 0) (laneMask act) (xs.getD 0 0)⟩

/-! ## Conversions (R203 to R205) -/

/-- vcvt (R203). -/
def execVcvt (h : VHdr) (src : ElemType) (d a : Desc) : State → Out :=
  vop1 h d (srcOf src a) (map1 (elemWidth h.ty) (cvtElem src (vmode h)))

/-- n elements of width w from position p of a slice on take a value; the bits of those positions. -/
def placeElems (w p : Nat) (es : List Nat) : Slice := ofElems w (List.replicate p 0 ++ es)

/-- The bits of n elements of width w from position p on. -/
def elemBits (w p n : Nat) : Slice := placeElems w p (List.replicate n (2 ^ w - 1))

/-- The lanes of A that a vpack reads: a lane is active for an element by the lane that holds its target (R203). -/
def packLanes (w ws part : Nat) (act : Word) : Word :=
  let n := elemCount ws
  .ofNat 64 (((List.range 64).map fun i =>
    ((List.range (32 / ws)).any fun k => act.getLsbD (w * (part * n + 32 / ws * i + k) / 32)).toNat * 2 ^ i).foldl (· + ·) 0)

/-- vpack (R203). -/
def execVpack (h : VHdr) (src : ElemType) (d a : Desc) (part : BitVec 3) : State → Out :=
  let w := elemWidth h.ty
  let n := elemCount (elemWidth src)
  vector h ⟨d, false, id, elemBits w (part.toNat * n) n, [⟨a, src, false, packLanes w (elemWidth src) part.toNat⟩], fun _ xs _ =>
    placeElems w (part.toNat * n) ((elems (elemWidth src) (xs.getD 0 0)).map (cvtElem src (vmode h)))⟩

/-- vunpack (R203). A target whose source lies in an inactive lane of a scratchpad A is free (log 28). -/
def execVunpack (h : VHdr) (src : ElemType) (d a : Desc) (part : BitVec 3) : State → Out :=
  let n := elemCount (elemWidth h.ty)
  vop1 h d (srcOf src a) fun x =>
    ofElems (elemWidth h.ty) (((elems (elemWidth src) x).drop (part.toNat * n)).take n |>.map (cvtElem src (vmode h)))

/-- vround (R203). -/
def execVround (h : VHdr) (d a : Desc) : State → Out := velem1 h d a eRound

/-- The E8M0 scale of element k: byte k / 32 of B's image (R204). -/
def vecScale (b : Slice) (k : Nat) : Nat := b.toNat / 2 ^ (8 * (k / 32)) % 256

/-- vcvtsc's elements: 64 are quantised from f32, or dequantised to f32 (R204). -/
def cvtScaled (src : ElemType) (m : VMode) (a b : Slice) : Slice :=
  ofElems (elemWidth m.ty) (((elems (elemWidth src) a).take 64).zipIdx.map fun x =>
    if src = .f32 then quantise m (vecScale b x.2) x.1 else dequantise src m (vecScale b x.2) x.1)

/-- vcvtsc (R204): a scalar B is its 64 bits, so bytes 0 and 1 are the two scales. A target whose source lies in
an inactive lane of a scratchpad A or B is free (log 28). -/
def execVcvtsc (h : VHdr) (src : ElemType) (d a b : Desc) (s : State) : Out :=
  let scales (c : Core) (x : Slice) : Slice := match b with
    | .scal r => (c.gs r).zeroExtend 2048
    | _ => x
  s.onMy fun c => vector h ⟨d, false, id, elemBits (elemWidth h.ty) 0 64, [srcOf src a, srcOf h.ty b],
    fun _ xs _ => cvtScaled src (vmode h) (xs.getD 0 0) (scales c (xs.getD 1 0))⟩ s

/-- One QL4 element: index k, block scale and super-scale in b (R205). -/
def ql4Elem (m : VMode) (b : Word) (k : Nat) : Nat :=
  roundTo F32 m.rnd m.sat (ql4Value k (b.toNat % 256) (F32.decode (b.toNat / 2 ^ 32)))

/-- vql4 (R205). A lane whose index lies in an inactive lane of a scratchpad A is free (log 28). -/
def execVql4 (h : VHdr) (d a b : Desc) (s : State) : Out :=
  let scale (c : Core) : Word := match b with
    | .scal r => c.gs r
    | _ => 0
  s.onMy fun c => vector h ⟨d, false, id, .allOnes 2048, [srcOf h.ty a, srcOf h.ty b],
    fun _ xs _ => ofElems 32 (((elems 4 (xs.getD 0 0)).take 64).map (ql4Elem (vmode h) (scale c)))⟩ s

end Sys2Proof.Machine
end

