-- ==== Sys2Proof/Machine/VectorLane.lean ====
section
/-! DEFINITION. Reductions and permutes of the vector engine (spec/08_vector_engine.md R206, R207). -/

namespace Sys2Proof.Machine

/-! ## Reductions (R206) -/

/-- One level of the fixed tree. -/
def pairUp (op : Nat → Nat → Nat) : List Nat → List Nat
  | x :: y :: r => op x y :: pairUp op r
  | r => r

/-- The fixed tree over at most 2^k leaves. -/
def treeFold (op : Nat → Nat → Nat) : Nat → List Nat → Nat
  | 0, xs => xs.headD 0
  | k + 1, xs => treeFold op k (pairUp op xs)

/-- Whether the lane of element j of width w is active. -/
def activeElem (act : Word) (w j : Nat) : Bool := act.getLsbD (laneOf w j)

/-- Elements, with those of inactive lanes replaced (R206). -/
def masked (act : Word) (w : Nat) (identity : Nat) (xs : List Nat) : List Nat :=
  xs.zipIdx.map fun x => if activeElem act w x.2 then x.1 else identity

/-- A reduction: its result stands in every element of D, whatever the predicate (R206). -/
def reduction (h : VHdr) (d : Desc) (srcs : List VSrc) (fn : Word → List Slice → Slice) : State → Out :=
  vector h ⟨d, false, fun _ => .allOnes 64, .allOnes 2048, srcs, fun act xs _ => fn act xs⟩

/-- The tree of a floating type. -/
def floatTree (m : VMode) (op : VMode → Nat → Nat → Nat) (act : Word) (w identity : Nat) (xs : List Nat) : Nat :=
  treeFold (op m) 9 (masked act w identity xs)

/-- The exact sum of integers of the active lanes. -/
def intTotal (act : Word) (w : Nat) (xs : List Int) : Int :=
  (xs.zipIdx.filterMap fun x => if activeElem act w x.2 then some x.1 else none).foldl (· + ·) 0

/-- vrsum (R206). -/
def rsum (m : VMode) (act : Word) (a : Slice) : Slice :=
  let w := elemWidth m.ty
  let xs := elems w a
  broadcast w (if isF m.ty then floatTree m eAdd act w ((ffmt m.ty).code true 0) xs
    else fit m.ty m.sat (intTotal act w (xs.map (intOf m.ty))))

/-- vrsum (R206). -/
def execVrsum (h : VHdr) (d a : Desc) : State → Out :=
  reduction h d [srcOf h.ty a] fun act xs => rsum (vmode h) act (xs.getD 0 0)

/-- The identity of vrmax or vrmin (R206). -/
def extreme (t : ElemType) (greatest : Bool) : Nat :=
  if isF t then (ffmt t).code (!greatest) ((ffmt t).inf.getD 0)
  else fit t false (if greatest then intMax t else intMin t)

/-- vrmax (R206). -/
def execVrmax (h : VHdr) (d a : Desc) : State → Out :=
  reduction h d [srcOf h.ty a] fun act xs =>
    broadcast (elemWidth h.ty) (floatTree (vmode h) eMax act (elemWidth h.ty) (extreme h.ty false)
      (elems (elemWidth h.ty) (xs.getD 0 0)))

/-- vrmin (R206). -/
def execVrmin (h : VHdr) (d a : Desc) : State → Out :=
  reduction h d [srcOf h.ty a] fun act xs =>
    broadcast (elemWidth h.ty) (floatTree (vmode h) eMin act (elemWidth h.ty) (extreme h.ty true)
      (elems (elemWidth h.ty) (xs.getD 0 0)))

/-- The leaf of a floating vrdot: a product rounded to f32 (R206). -/
def dotLeaf (m : VMode) (x y : Nat) : Nat := roundTo F32 m.rnd m.sat ((valueOf m.ty x).mul (valueOf m.ty y))

/-- vrdot (R206): an f32 tree, or an exact total fitted to 32 bits. -/
def rdot (m : VMode) (act : Word) (a b : Slice) : Slice :=
  let w := elemWidth m.ty
  let xs := elems w a
  let ys := elems w b
  broadcast 32 (if isF m.ty then
      floatTree { m with ty := .f32 } eAdd act w (F32.code true 0) (List.zipWith (dotLeaf m) xs ys)
    else fit (wide32 m.ty) m.sat (intTotal act w (List.zipWith (fun x y => intOf m.ty x * intOf m.ty y) xs ys)))

/-- vrdot (R206). -/
def execVrdot (h : VHdr) (d a b : Desc) : State → Out :=
  reduction h d [srcOf h.ty a, srcOf h.ty b] fun act xs => rdot (vmode h) act (xs.getD 0 0) (xs.getD 1 0)

/-- The inclusive prefix: element, and whether it is active (R206). -/
def scanFrom (op : Nat → Nat → Nat) : Nat → List (Nat × Bool) → List Nat
  | _, [] => []
  | run, (x, on) :: r => if on then op run x :: scanFrom op (op run x) r else 0 :: scanFrom op run r

/-- vscan (R206). -/
def scan (m : VMode) (act : Word) (a : Slice) : Slice :=
  let w := elemWidth m.ty
  ofElems w (scanFrom (eAdd m) (if isF m.ty then (ffmt m.ty).code true 0 else 0)
    ((elems w a).zipIdx.map fun x => (x.1, activeElem act w x.2)))

/-- vscan (R206). -/
def execVscan (h : VHdr) (d a : Desc) : State → Out :=
  vector h ⟨d, false, id, .allOnes 2048, [srcOf h.ty a], fun act xs _ => scan (vmode h) act (xs.getD 0 0)⟩

/-- Whether an element qualifies for vargmax. -/
def numeric (t : ElemType) (x : Nat) : Bool := !(isF t && (ffmt t).isNan x)

/-- The order that vargmax compares by (R206). -/
def argKey (t : ElemType) (x : Nat) : Int := if isF t then orderKey (ffmt t) x else intOf t x

/-- The greatest of the elements that qualify, the lowest index among equals: the best so far, its index, and the rest. -/
def argmaxFrom (t : ElemType) : Option (Int × Nat) → List (Nat × Nat × Bool) → Option (Int × Nat)
  | best, [] => best
  | best, (x, j, on) :: r =>
    argmaxFrom t (if on && numeric t x then
      match best with
      | none => some (argKey t x, j)
      | some b => if b.1 < argKey t x then some (argKey t x, j) else best
      else best) r

/-- vargmax (R206). -/
def argmax (t : ElemType) (act : Word) (a : Slice) : Slice :=
  let w := elemWidth t
  broadcast 32 (((argmaxFrom t none ((elems w a).zipIdx.map fun x => (x.1, x.2, activeElem act w x.2))).map Prod.snd).getD
    0xFFFFFFFF)

/-- vargmax (R206). -/
def execVargmax (h : VHdr) (d a : Desc) : State → Out :=
  reduction h d [srcOf h.ty a] fun act xs => argmax h.ty act (xs.getD 0 0)

/-! ## Permutes (R207) -/

/-- D.elem[j] for every j of a width. -/
def elemsBy (w : Nat) (f : Nat → Nat) : Slice := ofElems w ((List.range (elemCount w)).map f)

/-- A permute of A by B: element j of D as a function of the elements. A target whose source lies in an inactive lane of a scratchpad A
or B is free (log 28). -/
def permute (h : VHdr) (d : Desc) (a b : VSrc) (f : List Nat → List Nat → Nat → Nat) : State → Out :=
  let w := elemWidth h.ty
  vop2 h d a b fun x y =>
    let xs := elems w x
    let ys := elems w y
    elemsBy w (f xs ys)

/-- vperm (R207). -/
def execVperm (h : VHdr) (d a b : Desc) : State → Out :=
  permute h d (srcOf h.ty a) (srcInt h.ty b) fun xs ys j => xs.getD (ys.getD j 0 % xs.length) 0

/-- vrot (R207). -/
def execVrot (h : VHdr) (d a b : Desc) : State → Out :=
  permute h d (srcOf h.ty a) (srcInt h.ty b) fun xs ys j => xs.getD ((j + ys.getD j 0) % xs.length) 0

/-- vshfl (R207). -/
def execVshfl (h : VHdr) (d a b : Desc) : State → Out :=
  permute h d (srcOf h.ty a) (srcInt h.ty b) fun xs ys j => xs.getD (Nat.xor j (ys.getD j 0 % xs.length)) 0

/-- vbcast (R207). -/
def execVbcast (h : VHdr) (d a b : Desc) : State → Out :=
  permute h d (srcOf h.ty a) (srcInt h.ty b) fun xs ys j => xs.getD (ys.getD j 0 % xs.length) 0

/-- vzip (R207). -/
def execVzip (h : VHdr) (d a b : Desc) : State → Out :=
  permute h d (srcOf h.ty a) (srcOf h.ty b) fun xs ys j => if j % 2 = 0 then xs.getD (j / 2) 0 else ys.getD (j / 2) 0

/-- vunzip (R207). -/
def execVunzip (h : VHdr) (d a b : Desc) : State → Out :=
  permute h d (srcOf h.ty a) (srcOf h.ty b) fun xs ys j => (xs ++ ys).getD (2 * j) 0

/-- vtrn (R207). -/
def execVtrn (h : VHdr) (d a b : Desc) : State → Out :=
  permute h d (srcOf h.ty a) (srcOf h.ty b) fun xs ys j => if j % 2 = 0 then xs.getD j 0 else ys.getD (j - 1) 0

/-- The active lanes of a slice, lowest first. -/
def activeLanes (act : Word) (x : Slice) : List Nat :=
  (elems 32 x).zipIdx.filterMap fun e => if act.getLsbD e.2 then some e.1 else none

/-- vcompress (R207): every lane of D is written. -/
def execVcompress (h : VHdr) (d a : Desc) : State → Out :=
  vector h ⟨d, false, fun _ => .allOnes 64, .allOnes 2048, [srcOf h.ty a],
    fun act xs _ => ofElems 32 (activeLanes act (xs.getD 0 0))⟩

/-- How many lanes below lane i are active. -/
def rankOf (act : Word) (i : Nat) : Nat := popOf (act.toNat % 2 ^ i) 64

/-- The lanes 0 to count - 1, for as many active lanes. -/
def lowLanes (act : Word) : Word := .ofNat 64 (2 ^ popOf act.toNat 64 - 1)

/-- vexpand (R207): as many low lanes of A are read as there are active lanes. -/
def execVexpand (h : VHdr) (d a : Desc) : State → Out :=
  vector h ⟨d, false, id, .allOnes 2048, [⟨a, h.ty, false, lowLanes⟩], fun act xs _ =>
    let ys := elems 32 (xs.getD 0 0)
    ofElems 32 ((List.range 64).map fun i => ys.getD (rankOf act i) 0)⟩

end Sys2Proof.Machine
end

