-- ==== Sys2Proof/Machine/VectorMem.lean ====
section
/-! DEFINITION. Memory words, access queues and conditional streams of the vector engine (spec/08_vector_engine.md R208,
R209, R213, R214; spec/10_memory_instructions.md R255 to R258). -/

namespace Sys2Proof.Machine

/-! ## Loads and stores of one element per lane (R208) -/

/-- Bytes of an element. -/
def elemBytes (t : ElemType) : Nat := elemWidth t / 8

/-- The signed value of a lane. -/
def laneInt (x : Nat) : Int := (BitVec.ofNat 32 x).toInt

/-- A word that loads one element per active lane. -/
def vload (h : VHdr) (d : Desc) (m : MemRef) (off : Core → Nat → Int) (s : State) (c : Core) : Out :=
  let act := c.readP s.fv h.pred
  let n := elemBytes h.ty
  match s.readLanes c (s.laneHits (recOf (c.gb m.b)) act n (off c)) n (widen h.ty) with
  | (t, .trap e) => t.trap e
  | (t, .wait) => .next t
  | (t, .got v) => t.vfinish c h ⟨d, false, id, .allOnes 2048, [], fun _ _ _ => v⟩ act []

/-- vld (R208). -/
def execVld (h : VHdr) (d a : Desc) (s : State) : Out :=
  s.onMy fun c =>
    match a with
    | .mem m =>
      if c.vready h [a] then vload h d m (fun x => x.laneOffset m (.elem (elemBytes h.ty))) s c else .next s
    | _ => .next s

/-- The offset of the element that lane i's index names (R208). -/
def indexed (h : VHdr) (m : MemRef) (idx : Slice) (c : Core) (i : Nat) : Int :=
  4 * m.off.toInt + c.loopAdvance (recOf (c.gb m.b)) m.sel (.elem (elemBytes h.ty)) + laneInt (laneAt idx i) * elemBytes h.ty

/-- vgath (R208). -/
def execVgath (h : VHdr) (d a b : Desc) (s : State) : Out :=
  s.onMy fun c =>
    match a, b with
    | .mem m, .reg vi =>
      if c.vready h [a, b] then vload h d m (indexed h m (c.readV (s.fv + 1) vi)) s c else .next s
    | _, _ => .next s

/-- A word that stores one element per active lane; the values are lanes. -/
def vstore (h : VHdr) (m : MemRef) (off : Core → Nat → Int) (v : Slice) (s : State) (c : Core) : Out :=
  let n := elemBytes h.ty
  let r := recOf (c.gb m.b)
  let hits := s.laneHits r (c.readP s.fv h.pred) n (off c)
  match s.writeLanes c hits n with
  | (t, .trap e) => t.trap e
  | (t, .wait) => .next t
  | (t, .go d) => .next (t.vissue d h [.mem (laneCells hits n ((elems 32 v).map (narrow (vmode h))))] r.colour false)

/-- vst (R208). -/
def execVst (h : VHdr) (d a : Desc) (s : State) : Out :=
  s.onMy fun c =>
    match d, a with
    | .mem m, .reg va =>
      if c.vready h [d, a] then
        vstore h m (fun x => x.laneOffset m (.elem (elemBytes h.ty))) (c.readV (s.fv + 1) va) s c
      else .next s
    | _, _ => .next s

/-- vscat (R208). -/
def execVscat (h : VHdr) (d a b : Desc) (s : State) : Out :=
  s.onMy fun c =>
    match d, a, b with
    | .mem m, .reg va, .reg vi =>
      if c.vready h [d, a, b] then vstore h m (indexed h m (c.readV (s.fv + 2) vi)) (c.readV (s.fv + 1) va) s c
      else .next s
    | _, _, _ => .next s

/-! ## Access queues (R209, R255, R258) -/

/-- The lanes of a register take values in the active lanes. -/
def spread (act : Word) (xs : List Nat) : Slice :=
  ofElems 32 ((List.range 64).map fun i => if act.getLsbD i then xs.getD (rankOf act i) 0 else 0)

/-- vdq (R209). -/
def execVdq (h : VHdr) (vd : BitVec 5) (n : BitVec 2) (s : State) : Out :=
  s.onMy fun c =>
    let act := c.readP s.fv h.pred
    let k := popOf act.toNat 64
    let q := c.dq.getD n.toNat []
    if c.vready h [] && decide (k ≤ q.length) then
      let v := spread act ((q.take k).map fun x => widen h.ty (x.toNat % 2 ^ elemWidth h.ty))
      match c.claimV vd (laneMask act) with
      | some d => .next (s.vissue { d with dq := d.dq.set n.toNat (q.drop k) } h [.reg vd (laneMask act) v] 0 true)
      | none => .next s
    else .next s

/-- The entry that lane i of a vaq pushes (R209, R255). -/
def aqPush (c : Core) (h : VHdr) (m : MemRef) (idx : Slice) (i : Nat) : AqEntry :=
  let r := recOf (c.gb m.b)
  let lane : Int := if h.ty = .s32 then laneInt (laneAt idx i) else laneAt idx i
  { base := r.base
    extent := r.extent
    bounds := r.bounds
    width := (match r.elem with
      | some t => elemWidth t / 8
      | none => 0)
    off := 4 * m.off.toInt + c.loopAdvance r m.sel .slice + lane
    bad := !r.ok || (match r.elem with
      | some t => elemWidth t == 4
      | none => true)
    user := !c.x.priv
    seq := c.seq
    held := none
    reported := false
    data := none }

/-- vaq (R209, R258): it waits for its index register's landing and for room; the ck that it waits for a vdq's result are counted as
time goes on. -/
def execVaq (h : VHdr) (m : MemRef) (vi : BitVec 5) (n : BitVec 2) (s : State) : Out :=
  s.onMy fun c =>
    let act := c.readP s.fv h.pred
    let q := c.aq.getD n.toNat []
    if !c.vready h [.mem m, .reg vi] then .next s
    else if c.landsIn vi then .next s
    else if 64 < q.length + popOf act.toNat 64 then .next s
    else
      let es := ((List.range 64).filter fun i => act.getLsbD i).map (aqPush c h m (c.gv vi))
      .next (s.fresh.done { c with aq := c.aq.set n.toNat (q ++ es) } 12 h.gap.toNat)

/-! ## Conditional streams (R213, R214) -/

/-- The stream after records are appended: those beyond 256 are discarded (R214). -/
def csAppend (q xs : List Lane) : List Lane := (q ++ xs).take 256

/-- Set the overflow bit of a stream. -/
def csOverflow (o : BitVec 4) (n : BitVec 2) (q xs : List Lane) : BitVec 4 :=
  if 256 < (q ++ xs).length then o ||| (1#4 <<< n.toNat) else o

/-- vcpush (R214). -/
def execVcpush (h : VHdr) (a : Desc) (n : BitVec 2) (s : State) : Out :=
  s.onMy fun c =>
    if c.vready h [a] then
      let act := c.readP s.fv h.pred
      match s.readSrc c (s.fv + 1) act (srcOf h.ty a) with
      | (t, .trap e) => t.trap e
      | (t, .wait) => .next t
      | (t, .got v) =>
        let xs := (activeLanes act v).map (BitVec.ofNat 32)
        let q := c.cs.getD n.toNat []
        .next (t.vissue { c with cs := c.cs.set n.toNat (csAppend q xs), csOvf := csOverflow c.csOvf n q xs } h [] 0 false)
    else .next s

/-- vcpop (R214): every lane of D is written. -/
def execVcpop (h : VHdr) (vd : BitVec 5) (n : BitVec 2) (s : State) : Out :=
  s.onMy fun c =>
    let q := c.cs.getD n.toNat []
    let v := ofElems 32 ((q.take 64).map BitVec.toNat)
    .next (s.vissue { c.present (.v vd) with cs := c.cs.set n.toNat (q.drop 64) } h [.reg vd (.allOnes 2048) v] 0 false)

/-- vcflush (R214). -/
def execVcflush (h : VHdr) (n : BitVec 2) (s : State) : Out :=
  s.onMy fun c =>
    .next (s.vissue { c with cs := c.cs.set n.toNat [], csOvf := c.csOvf &&& ~~~(1#4 <<< n.toNat) } h [] 0 false)

end Sys2Proof.Machine
end

