-- ==== Sys2Proof/Machine/Uses.lean ====
section
/-! DEFINITION. The registers that a word uses: those that it reads, and those that it does not replace whole
(spec/15_interruption.md R407), and what the first word to read a token waits for (spec/10_memory_instructions.md R271). -/

namespace Sys2Proof.Machine

/-- How a vector word writes D: in the active lanes, wholly, or in a part of its bits. -/
inductive Spread where
  | lanes | whole | part
  deriving DecidableEq, Repr

/-- What a vector word with descriptors uses: its header, its sources, D, and how it writes D. -/
structure VUse where
  hdr  : VHdr
  srcs : List Desc
  dst  : Desc
  how  : Spread

/-- The vector words with descriptors (R195 to R208). -/
def vuseOf : Instr → Option VUse
  | .vadd h d a b | .vsub h d a b | .vmul h d a b | .vmulh h d a b | .vmin h d a b | .vmax h d a b | .vdiv h d a b
  | .vscale h d a b | .vand h d a b | .vor h d a b | .vxor h d a b | .vandn h d a b | .vsll h d a b | .vsrl h d a b
  | .vsra h d a b => some ⟨h, [a, b], d, .lanes⟩
  | .vmac h d a b | .vdot4 h d a b | .vfma h d a b | .vfms h d a b | .vfnma h d a b => some ⟨h, [a, b, d], d, .lanes⟩
  | .vabs h d a | .vneg h d a | .vsqrt h d a | .vrsqrt h d a | .vrcp h d a | .vexp2 h d a | .vlog2 h d a | .vtanh h d a
  | .vsigm h d a | .vclz h d a | .vpopc h d a | .vmov h d a | .vround h d a | .vscan h d a | .vexpand h d a | .vld h d a
  | .vst h d a | .vcvt h _ d a | .vunpack h _ d a _ => some ⟨h, [a], d, .lanes⟩
  | .vpack h _ d a _ => some ⟨h, [a], d, .part⟩
  | .vcvtsc h _ d a b => some ⟨h, [a, b], d, .part⟩
  | .vperm h d a b | .vrot h d a b | .vshfl h d a b | .vbcast h d a b | .vzip h d a b | .vunzip h d a b | .vtrn h d a b
  | .vql4 h d a b | .vgath h d a b | .vscat h d a b => some ⟨h, [a, b], d, .lanes⟩
  | .vsel h d a b | .vrdot h d a b => some ⟨h, [a, b], d, .whole⟩
  | .vrsum h d a | .vrmax h d a | .vrmin h d a | .vargmax h d a | .vcompress h d a => some ⟨h, [a], d, .whole⟩
  | .vcmp h _ _ a b => some ⟨h, [a, b], .imm 0, .whole⟩
  | .pset h _ a | .vcpush h a _ => some ⟨h, [a], .imm 0, .whole⟩
  | .vdq h vd _ => some ⟨h, [], .reg vd, .lanes⟩
  | .vaq h m vi _ => some ⟨h, [.mem m, .reg vi], .imm 0, .whole⟩
  | _ => none

/-- Registers that a vector word with descriptors uses (R407). -/
def VUse.bank (u : VUse) (c : Core) : List BankReg :=
  predBank u.hdr.pred ++ u.srcs.flatMap descBank ++
  match u.dst with
  | .mem m => [.b m.b]
  | .reg n => if u.how = .part ∨ (u.how = .lanes ∧ c.gp u.hdr.pred ≠ .allOnes 64) then [.v n] else []
  | _ => []

/-- Scalar registers that a word other than a vector or an engine word reads. -/
def scalarsOf : Instr → List (BitVec 5)
  | .add _ a b | .sub _ a b | .and _ a b | .or _ a b | .xor _ a b | .andn _ a b | .sll _ a b | .srl _ a b | .sra _ a b
  | .rol _ a b | .ror _ a b | .slt _ a b | .sltu _ a b | .seq _ a b | .sne _ a b | .min _ a b | .max _ a b | .minu _ a b
  | .maxu _ a b | .mul _ a b | .mulh _ a b | .mulhu _ a b | .mulhsu _ a b | .div _ a b | .divu _ a b | .rem _ a b
  | .remu _ a b | .ptag _ a b | .padd _ a b | .psub _ a b | .beq a b _ | .bne a b _ | .blt a b _ | .bge a b _
  | .bltu a b _ | .bgeu a b _ => [a, b]
  | .clz _ a | .ctz _ a | .popc _ a | .sextB _ a | .sextH _ a | .sextW _ a | .zextB _ a | .zextH _ a | .zextW _ a
  | .cvtF64S64 _ a _ | .cvtF32S64 _ a _ | .cvtS64F64 _ a _ | .cvtS64F32 _ a _ | .cvtF64F32 _ a | .cvtF32F64 _ a _
  | .cvtF32F16 _ a | .cvtF16F32 _ a _ | .cvtF32Bf16 _ a | .cvtBf16F32 _ a _ | .pspace _ a | .prank _ a | .paddr _ a | .jr a
  | .callr _ a | .addi _ a _ | .andi _ a _ | .ori _ a _ | .xori _ a _ | .slli _ a _ | .srli _ a _ | .srai _ a _
  | .slti _ a _ | .sltiu _ a _ | .lset _ a _ | .gsetNe _ a | .gsetEq _ a | .pcancel _ a | .pgdec _ a | .xw a _ | .xset a _
  | .xclr a _ | .tlbinv a | .tlbinvall a => [a]
  | .stB s _ _ | .stH s _ _ | .stW s _ _ | .stD s _ _ | .amoaddW s _ _ | .amoandW s _ _ | .amoorW s _ _ | .amoxorW s _ _
  | .amominW s _ _ | .amomaxW s _ _ | .amominuW s _ _ | .amomaxuW s _ _ | .amoswapW s _ _ | .amofaddF32 s _ _
  | .amoaddD s _ _ | .amoandD s _ _ | .amoorD s _ _ | .amoxorD s _ _ | .amominD s _ _ | .amomaxD s _ _ | .amominuD s _ _
  | .amomaxuD s _ _ | .amoswapD s _ _ => [s]
  | .amocasW p _ _ | .amocasD p _ _ => [pairEven p, pairOdd p]
  | .spinw a _ b | .barr a _ b | .bwait a _ b | .pbarr a _ b | .pbwait a _ b => [a, b]
  | _ => []

/-- Buffer records that a word other than a vector or an engine word names. -/
def recordsOf : Instr → List (BitVec 4)
  | .ldB _ b _ | .ldBu _ b _ | .ldH _ b _ | .ldHu _ b _ | .ldW _ b _ | .ldWu _ b _ | .ldD _ b _ | .ldNr _ b _ | .stB _ b _
  | .stH _ b _ | .stW _ b _ | .stD _ b _ | .ldb _ b _ | .ldq _ b _ | .stq _ b _ | .amoaddW _ b _ | .amoandW _ b _
  | .amoorW _ b _ | .amoxorW _ b _ | .amominW _ b _ | .amomaxW _ b _ | .amominuW _ b _ | .amomaxuW _ b _ | .amoswapW _ b _
  | .amocasW _ b _ | .amofaddF32 _ b _ | .amoaddD _ b _ | .amoandD _ b _ | .amoorD _ b _ | .amoxorD _ b _ | .amominD _ b _
  | .amomaxD _ b _ | .amominuD _ b _ | .amomaxuD _ b _ | .amoswapD _ b _ | .amocasD _ b _ | .spinw _ b _ | .barr _ b _
  | .bwait _ b _ | .pbarr _ b _ | .pbwait _ b _ | .pgdec b _ => [b]
  | .stb n b _ => [n, b]
  | _ => []

/-- Registers that an engine word uses beside its header's (R266, R309, R343, R380). -/
def engineBank : Instr → List BankReg
  | .pcopy _ p => [.b p.sb, dstBank p] ++ pumpLoops p
  | .pgath _ p => [.b p.sb, dstBank p, .s p.tok] ++ pumpLoops p
  | .pscat _ p => [.b p.sb, .b p.db, .s p.tok] ++ pumpLoops p
  | .pfill _ p => [.b p.db, .s p.tok] ++ pumpLoops p
  | .pring _ p => [.q p.sb, .b p.db] ++ pumpLoops p
  | .ppage _ sb db _ _ => [.b sb, .b db]
  | i => matrixRegs i ++ ((wellStreams i).map fun x => BankReg.q x.1) ++ [.s (wellScalar i)] ++ collBank i

/-- Predicates, loop registers and system registers that a word uses. -/
def otherBank : Instr → List BankReg
  | .pand _ _ a b | .por _ _ a b | .pxor _ _ a b => predBank a ++ predBank b
  | .pnot _ _ a | .pfirst _ _ a | .pget _ _ a | .pcnt _ _ a => predBank a
  | .vloop _ _ n _ => (List.range n.toNat).map fun k => .l (.ofNat 3 k)
  | .stq n _ _ => [.q n]
  | .xr _ x | .xset _ x | .xclr _ x => [.x x]
  | .xret => [.x .xepc]
  | _ => []

/-- The registers that a word uses: it reads them, or it does not replace them whole (R407). -/
def Core.uses (c : Core) (i : Instr) : List BankReg :=
  match vuseOf i, ehdrOf i with
  | some u, _ => u.bank c
  | none, some h => hdrBank h ++ engineBank i
  | none, none => (scalarsOf i).map .s ++ (recordsOf i).map .b ++ otherBank i

/-- The registers that the next word of a core uses; none where the word is not at hand. -/
def State.nextUses (s : State) (h : Nat) (x : Core) : State × List BankReg :=
  match s.fetchNext h x with
  | (t, .word i _) => (t, x.uses i)
  | (t, _) => (t, [])

/-! ## The first read of a token (R271) -/

/-- Token registers that have landed and that a word reads, one bit each. -/
def Core.freshReads (c : Core) (i : Instr) : BitVec 32 :=
  c.tokens &&& (c.uses i).foldl (fun m r => match r with
    | .s n => m ||| (1#32 <<< n.toNat)
    | _ => m) 0

/-- The first word that reads a token is an acquire (R271): it waits for the earlier access-queue loads (R256, R361). Whether it may
issue; the tokens that it reads have then been read (log 65). -/
def State.readTokens (s : State) (h c : Nat) (i : Instr) : State × Bool :=
  match s.core? h c with
  | none => (s, true)
  | some x =>
    if x.freshReads i = 0 then (s, true)
    else if x.aqDone then (s.modCore h c fun y => { y with tokens := y.tokens &&& ~~~(x.freshReads i) }, true)
    else (s, false)

end Sys2Proof.Machine
end

