-- ==== Sys2Proof/Machine/Evict.lean ====
section
/-! DEFINITION. Eviction and resumption: the swap, quiescence, the spill, the restoration, register misses and rotation
(spec/15_interruption.md R407 to R426; spec/04_placement.md R103; spec/03_launching.md R75). -/

namespace Sys2Proof.Machine

/-! ## Save areas (R414) -/

/-- The offset, or the address, of a place in a save area. -/
def SaveRef.off : SaveRef → Nat
  | .virt _ a => a
  | .firm _ o => o

/-- Another place of the same area. -/
def SaveRef.at_ (r : SaveRef) (a : Nat) : SaveRef :=
  match r with
  | .virt p _ => .virt p a
  | .firm k _ => .firm k a

def SaveRef.isVirt : SaveRef → Bool
  | .virt _ _ => true
  | .firm _ _ => false

/-- The pieces of n bytes from a place up that lie in one 4 KiB page each. -/
def SaveRef.pieces (r : SaveRef) (n : Nat) : List (Nat × Nat) := pagePieces r.off n

/-- The location of a place in a save area: a driver's area is translated, the one that firmware keeps lies apart (log 26). -/
def State.saveLoc (s : State) (r : SaveRef) (write : Bool) : State × Xlat :=
  match r with
  | .virt p a => s.fwTranslate p a write
  | .firm k o => (s, .loc (2 ^ 61 + k * 2 ^ 31 + o) false)

/-- Whether every piece of a range of a save area can be reached. -/
def State.saveReach (s : State) (r : SaveRef) (write : Bool) : List (Nat × Nat) → State × Bool
  | [] => (s, true)
  | (a, _) :: ps =>
    match s.saveLoc (r.at_ a) write with
    | (t, .loc _ _) => t.saveReach r write ps
    | (t, _) => (t, false)

/-- Write the pieces of a range. -/
def State.saveWrite (s : State) (r : SaveRef) : List (Nat × Nat) → List Byte → State
  | [], _ => s
  | (a, n) :: ps, bs =>
    (match s.saveLoc (r.at_ a) true with
      | (t, .loc l _) => t.writeLoc l (bs.take n)
      | (t, _) => t).saveWrite r ps (bs.drop n)

/-- Read the pieces of a range, with what cannot be read as zeros, and whether there was any of it. -/
def State.saveRead (s : State) (r : SaveRef) : List (Nat × Nat) → List Byte × Bool → State × List Byte × Bool
  | [], acc => (s, acc)
  | (a, n) :: ps, acc =>
    match s.saveLoc (r.at_ a) false with
    | (t, .loc l _) =>
      let x := t.copyRead l n
      x.1.saveRead r ps (acc.1 ++ x.2.1, acc.2 || !x.2.2.isEmpty)
    | (t, _) => t.saveRead r ps (acc.1 ++ .replicate n 0, true)

/-- Bytes of a core's context (R418). -/
def coreBytes (fp : Nat) : Nat := 40960 + 4096 * fp

/-- Bytes of the context of the herd that holds a node (R418). -/
def Held.bytes (n : Held) : Nat := 8 * coreBytes n.fp + 65536 * n.acc

/-! ## PREEMPT's area (R422, R423) -/

/-- Up to the next 4 KiB boundary. -/
def pageUp (n : Nat) : Nat := (n + 4095) / 4096 * 4096

/-- The state in which a node is saved (R75, R423). -/
def Node.savedState (n : Node) : Nat :=
  if n.state = .retired then 5
  else if n.kind = .copy then
    match n.state with
    | .waiting => 0
    | .reserving => 2
    | _ => 1
  else match n.state, n.saved with
    | .triggered, _ => 4
    | .running, _ => 3
    | _, some _ => if n.back = .triggered then 4 else 3
    | .waiting, none => 0
    | .reserving, none => 2
    | _, none => 1

/-- Whether a node has a context to be saved. -/
def Node.hasContext (n : Node) : Bool := n.savedState == 3 || n.savedState == 4

/-- Bytes of a node's gang contexts and rectangle state (R418). -/
def Node.contextBytes (n : Node) : Nat :=
  if n.hasContext then pageUp (herdBytes n.hdr * n.hdr.gang + if n.kind = .well then rectBytes n.hdr else 0) else 0

/-- A launch's save: its offset in the area, the offset of each node's context from the descriptor, and its bytes. -/
structure Saved where
  launch : Launch
  start  : Nat
  ctxs   : List Nat
  bytes  : Nat

/-- The places of the contexts of nodes that follow one another. -/
def layNodes (off : Nat) : List Node → List Nat × Nat
  | [] => ([], off)
  | n :: r =>
    let x := layNodes (off + n.contextBytes) r
    ((if n.hasContext then off else 0) :: x.1, x.2)

/-- The places of launches' saves. -/
def layLaunches (off : Nat) : List Launch → List Saved
  | [] => []
  | l :: r =>
    let x := layNodes (pageUp (64 + 16 * l.nodes.length)) l.nodes
    ⟨l, off, x.1, x.2⟩ :: layLaunches (off + x.2) r

/-- The layout of a save area: the queue block stands alone on the first page. -/
def layArea (ls : List Launch) : List Saved × Nat :=
  let xs := layLaunches 4096 ls
  (xs, xs.foldl (fun _ x => x.start + x.bytes) 64)

/-- Outstanding launches of a queue, those abandoned under R102 aside (log 55). -/
def State.launchesOf (s : State) (qid : Nat) : List Launch := s.tahr.launches.filter fun l => l.qid == qid && !l.abandoned

/-- A context descriptor (R423). -/
def Saved.image (x : Saved) (next : Nat) : List Byte :=
  leBytes 8 (1 + x.launch.nodes.length * 2 ^ 16) ++ leBytes 8 x.launch.record.toNat ++ leBytes 8 x.bytes ++
  leBytes 8 x.launch.gtrig.toNat ++ leBytes 8 next ++ .replicate 24 0 ++
  (x.launch.nodes.zip x.ctxs).flatMap fun n =>
    leBytes 8 (n.1.savedState + n.1.count * 2 ^ 3 + n.1.ntrig.toNat * 2 ^ 13) ++ leBytes 8 n.2

/-- The descriptors of the launches of an area, each with its offset. -/
def descriptors : List Saved → List (Nat × List Byte)
  | [] => []
  | x :: r => (x.start, x.image ((r.head?.map Saved.start).getD 0)) :: descriptors r

/-- The queue block (R422). -/
def Queue.block (q : Queue) (launches first : Nat) : List Byte :=
  leBytes 8 (1 + q.qid * 2 ^ 16 + launches * 2 ^ 32) ++ leBytes 8 (q.head.toNat + q.tail.toNat * 2 ^ 32) ++
  leBytes 8 (q.level + q.strict.toNat * 2 ^ 8) ++ leBytes 8 first ++ .replicate 32 0

/-- A PREEMPT completes when every spill has reached the save area: the queue block is written, the launches are gone and the
queue stops (R75). -/
def State.finishPreempt (s : State) : State :=
  match s.tahr.mgmt with
  | some (.preempt qid area first total) =>
    let ls := s.launchesOf qid
    match s.queue? qid with
    | none => s
    | some q =>
      if !(ls.all fun l => l.nodes.all fun n => n.state == .saved || n.state == .retired) then s
      else
        let r : SaveRef := .virt q.pasid area
        match s.saveReach r true (r.pieces 64) with
        | (t, false) => t
        | (t, true) =>
          let u := (t.saveWrite r (r.pieces 64) (q.block ls.length first)).modTahr fun x => { x with
            launches := x.launches.filter fun l => !(l.qid == qid && !l.abandoned) }
          ((u.modQueue qid fun x => { x with hold := none }).stopQueue qid .preempted (valueDetail 0)).finishCommand .ok total
  | _ => s

/-! ## The swap (R410, R412) -/

/-- The word that a core waits in is withdrawn, so that it runs again (R410). A reported branch stays, as state of the front
end. -/
def Core.withdraw (c : Core) : Core :=
  { c with block := c.block.filter fun b => b == .branch || !b.withdrawn }

/-- Whether an access-queue entry holds a store back (R254, R412). -/
def State.aqBefore (s : State) (h c : Nat) (x : Core) (e : AqEntry) : Bool :=
  e.held.isNone && e.data.isNone && x.sq.any fun y =>
    decide (e.seq < y.seq) && match y.op.range, (s.aqReach h c e).2 with
      | some (l, n), .at_ _ (.loc a _) => overlap a e.width l n
      | some _, .wait => true
      | _, _ => false

/-- Entry j of access queue q performs with no room asked for, and keeps its data (R412); whether it need not wait. -/
def State.aqKeep (s : State) (h c : Nat) (p : Nat × Nat) : State × Bool :=
  match s.core? h c with
  | none => (s, true)
  | some x =>
    match (x.aq.getD p.1 [])[p.2]? with
    | none => (s, true)
    | some e =>
      if !s.aqBefore h c x e then (s, true)
      else
        let put (t : State) (f : AqEntry → AqEntry) : State :=
          t.modCore h c fun y => { y with aq := y.aq.modify p.1 fun q => q.modify p.2 f }
        match s.aqLoad h c x e with
        | (t, .data v) => (put t fun y => { y with data := some v }, true)
        | (t, .hold k) => (put t fun y => { y with held := some k, reported := false }, true)
        | (t, .wait) => (t, false)

/-- Every access-queue entry that holds a store back performs, in program order. -/
def State.aqKeepAll (s : State) (h c : Nat) : List (Nat × Nat) → State × Bool
  | [] => (s, true)
  | p :: r =>
    match s.aqKeep h c p with
    | (t, true) => t.aqKeepAll h c r
    | (t, false) => (t, false)

/-- A core takes the swap once its vector results have landed (R410). -/
def State.swapCore (s : State) (h c : Nat) : State :=
  match s.core? h c with
  | none => s
  | some x =>
    if x.swapped || !x.vlands.isEmpty then s
    else match s.aqKeepAll h c x.aqOrder with
      | (t, false) => t
      | (t, true) => t.modCore h c fun y => { y.withdraw with swapped := true }

/-- All eight cores have swapped: the banks are exchanged, and the old context spills (R410, R426). -/
def Herd.leave (x : Herd) (r : SaveRef) : Herd :=
  { x with
    old := some { x.act with evicts := x.act.evicts + 1, lease := none }
    act := .idle
    evict := none
    spill := some ⟨r, false⟩
    phys := x.phys.map fun p => { p with bank := !p.bank } }

/-- CONTEXT_SWAP (R410); it waits for a bank that still spills (R416). -/
def execContextSwap (herd core : Nat) (s : State) : Out :=
  s.onCore herd core fun _ => .next (match s.herds[herd]? with
    | some x => match x.evict, x.old with
      | some r, none =>
        let t := s.swapCore herd core
        if (((t.ctx? herd).map HerdCtx.cores).getD []).all Core.swapped then t.modHerd herd fun y => y.leave r else t
      | _, _ => s
    | none => s)

/-! ## Quiescence (R413) -/

/-- Whether a core's part of the old context is quiescent (R411, R413). -/
def Core.still (c : Core) : Bool :=
  [Engine.pump, .matrix, .well, .coll].all (fun g => !c.ending g) && c.sq.isEmpty && c.vlands.isEmpty && c.landings.isEmpty &&
  (c.block.map Block.withdrawn).getD true && c.freeReq.isNone && c.cancelRd.isEmpty

/-- The units granted to heads that have not started. -/
def Core.grants (c : Core) : List (BitVec 8 × Nat) :=
  [Engine.pump, .matrix, .well, .coll].filterMap fun g => (c.head g).bind fun e =>
    if e.granted && e.run.isNone then some (e.hdr.wsem, e.hdr.wcnt.toNat) else none

/-- An entry waits for its units anew. -/
def Entry.again (e : Entry) : Entry := { e with granted := false, age := none }

/-- Units that were granted to heads that have not started go back; and each saturation that this makes (R180, R185; log 18). -/
def HerdCtx.giveBack (x : HerdCtx) : HerdCtx × Nat :=
  (x.cores.flatMap Core.grants).foldl (fun z g =>
    (z.1.signal g.1 g.2, z.2 + (decide (65535 < (z.1.sem g.1).toNat + g.2)).toNat)) (x, 0)

/-- The heads that had been granted units wait for them anew (R185). -/
def HerdCtx.regain (x : HerdCtx) : HerdCtx :=
  let y := x.giveBack.1
  { y with cores := y.cores.map fun c => { c with eq := c.eq.map fun q => q.map Entry.again } }

/-- Saturations are counted in a herd's health counters (R180, R435). -/
def State.countSat (s : State) (h n : Nat) : State := if n = 0 then s else s.bump (.semSat h) 0 n

/-- HERD_QUIESCENCE (R413). -/
def execHerdQuiescence (herd : Nat) (s : State) : Out :=
  match s.herds[herd]? with
  | none => .fault .noSuchUnit
  | some x =>
    .next (match x.old, x.spill with
      | some o, some ⟨r, false⟩ =>
        if o.cores.all Core.still then
          (s.modHerd herd fun y => { y with old := some o.regain, spill := some ⟨r, true⟩ }).countSat herd o.giveBack.2
        else s
      | _, _ => s)

/-! ## The spill (R414) -/

/-- The images of cores with their footprints, and the footprint rows that could not be read (R231). -/
def State.spillCores (s : State) (h : Nat) (o : HerdCtx) (fp : Nat) : List (Core × Nat) → State × List Byte × Nat
  | [] => (s, [], 0)
  | (c, i) :: r =>
    let x := s.engineRead (scratchLoc h i 0) (4096 * fp)
    let y := x.1.spillCores h o fp r
    (y.1, s.coreImage o h i c ++ (x.2.1 ++ y.2.1), x.2.2 + y.2.2)

/-- The accumulator tiles of a context (R421). -/
def HerdCtx.tileBytes (x : HerdCtx) (n : Nat) : List Byte := (List.range n).flatMap fun i => tileImage (x.readTile i).1

/-- The spill reads the tiles: single-bit errors are corrected and counted (R300). -/
def State.noteTiles (s : State) (h n : Nat) : State := s.inOld h fun t => (List.range n).foldl (fun u i => u.noteTile h i) t

/-- The rectangle state that goes with a herd's context: PREEMPT's, for a well node (R351). -/
def State.rectOut (s : State) (o : HerdCtx) (n : Held) (r : SaveRef) : List Byte :=
  if r.isVirt ∧ n.well then ((s.rectFor o).map rectImage).getD [] else []

/-- A node whose gang is evicted goes on: to its pool for a rotation, else it is saved (R75, R103). -/
def State.evicted (s : State) (lseq node h : Nat) (r : SaveRef) : State :=
  let t := s.modNode lseq node fun m => { m with moving := m.moving.erase h }
  match t.node? lseq node with
  | none => t
  | some m =>
    if !m.moving.isEmpty then t
    else if r.isVirt then ((t.dropRect lseq node).modNode lseq node fun x => { x with state := .saved, herds := [] }).finishPreempt
    else t.modNode lseq node fun x => { x with
      back := x.state, state := .ready, first := true, herds := [], saved := some (.firm (lseq * 2048 + node) 0) }

/-- The old context is in its save area: its herd's scratchpad is free, and retired groups are passed round (R232, R414). -/
def State.spilled (s : State) (h : Nat) (n : Held) : State :=
  (((List.range 8).foldl (fun t c => t.forget (scratchLoc h c 0) (scratchLoc h c (4096 * n.fp))) s).modHerd h fun x =>
    { x with old := none, spill := none }).redirect h

/-- The part keeps the numbers of a saved context's collectives (R381; log 69). -/
def State.keepNums (s : State) (o : HerdCtx) (r : SaveRef) : State :=
  { s with collSaves := s.collSaves.filter (fun x => x.ref != r) ++ [⟨r, o.cores.map Core.nums⟩] }

/-- A quiescent context is written to its save area (R414). -/
def State.spillHerd (s : State) (h : Nat) (o : HerdCtx) (n : Held) (r : SaveRef) : State :=
  let z := s.rectOut o n r
  let ps := r.pieces (n.bytes + z.length)
  match s.saveReach r true ps with
  | (t, false) => t
  | (t, true) =>
    let x := (t.noteTiles h n.acc).spillCores h o n.fp o.cores.zipIdx
    let u := x.1.saveWrite r ps (x.2.1 ++ (o.tileBytes n.acc ++ z))
    let v := if x.2.2 = 0 then u else u.record (h / 16) 5 (u.qidOf o) (.ofNat 64 n.node) (.ofNat 64 x.2.2) 0
    ((v.keepNums o r).spilled h n).evicted n.lseq n.node h r

/-- CONTEXT_SPILL_COMPLETE (R414). -/
def execContextSpillComplete (herd : Nat) (s : State) : Out :=
  match s.herds[herd]? with
  | none => .fault .noSuchUnit
  | some x =>
    .next (match x.old, x.spill with
      | some o, some ⟨r, true⟩ => match o.held with
        | some n => s.spillHerd herd o n r
        | none => s
      | _, _ => s)

/-! ## The restoration (R415) -/

/-- Bytes of one page-wise read of a save area. -/
def State.saveBytes (s : State) (r : SaveRef) (n : Nat) : State × List Byte × Bool := s.saveRead r (r.pieces n) ([], false)

/-- The cores' images and footprints are read; a footprint is written to its scratchpad. -/
def State.restoreCores (s : State) (h fp : Nat) (base : SaveRef) : List Nat → State × List (List Byte × Option SaveRef)
  | [] => (s, [])
  | i :: r =>
    let ref := base.add (i * coreBytes fp)
    let x := s.saveBytes ref 40960
    let y := x.1.saveBytes (ref.add 40960) (4096 * fp)
    let z := (y.1.writeLoc (scratchLoc h i 0) y.2.1).restoreCores h fp base r
    (z.1, (x.2.1, some ref) :: z.2)

/-- The tiles of a saved context. -/
def tilesOf (n : Nat) (bs : List Byte) : List (List Lane) :=
  (List.range n).map fun i => (List.range 16384).map fun k => bv 32 bs (65536 * i + 4 * k)

/-- A gang that is restored whole begins to issue, its drift rebuilt (R94, R153, R415). -/
def State.wakeGang (s : State) (n : Node) : State :=
  n.herds.foldl (fun t h => (t.modCtx h fun x =>
    HerdCtx.settle { x with cores := x.cores.map fun c => Core.noteHeads { c with swapped := false, issueAt := s.now + 1 } (s.waitCk h) }).refill h |>.1) s

/-- A herd of a resumed node has its context; with the last one the gang goes on. -/
def State.resumed (s : State) (lseq node h : Nat) : State :=
  let t := s.modNode lseq node fun m => { m with moving := m.moving.erase h }
  match t.node? lseq node with
  | none => t
  | some m => if m.moving.isEmpty then (t.wakeGang m).modNode lseq node fun x => { x with saved := none } else t

/-- The rectangle state of a well node that PREEMPT saved (R351). -/
def State.restoreRect (s : State) (h : Nat) (n : Held) (base : SaveRef) : State :=
  match s.rect? h with
  | some x =>
    if base.isVirt ∧ n.well then
      let y := s.saveBytes (base.add n.bytes) (67072 * n.rows + 4608 * n.cols)
      y.1.putRect (x.restore y.2.1)
    else s
  | none => s

/-- The numbers kept of the context saved at a place. -/
def State.numsAt (s : State) (r : SaveRef) : List (List Nat × List Nat) :=
  ((s.collSaves.find? fun x => x.ref == r).map CollSave.cores).getD []

/-- A saved context is read back (R415). -/
def State.restoreHerd (s : State) (h : Nat) (n : Held) (base : SaveRef) : State :=
  let total := n.bytes + if base.isVirt ∧ n.well then 67072 * n.rows + 4608 * n.cols else 0
  match s.saveReach base false (base.pieces total) with
  | (t, false) => t
  | (t, true) =>
    let x := t.restoreCores h n.fp base (List.range 8)
    let y := x.1.saveBytes (base.add (8 * coreBytes n.fp)) (65536 * n.acc)
    let u := { y.1 with collSaves := y.1.collSaves.filter fun z => z.ref != base }
    ((u.modHerd h fun z => { z with act := ctxOf n x.2 (tilesOf n.acc y.2.1) (s.numsAt base) s.now }).restoreRect h n base).resumed
      n.lseq n.node h

/-- CONTEXT_RESTORE (R415): once the herd's old context is out of the way. -/
def execContextRestore (herd : Nat) (s : State) : Out :=
  match s.herds[herd]? with
  | none => .fault .noSuchUnit
  | some x =>
    .next (match x.act.held, x.act.cores.head?, x.old with
      | some n, some c, none => match c.saved with
        | some r => if c.swapped && x.evict.isNone then s.restoreHerd herd n r else s
        | none => s
      | _, _, _ => s)

/-! ## Register misses (R407) -/

/-- Where a register stands in a core's image, and its bytes (R419). -/
def regPlace : BankReg → Nat × Nat
  | .s n => (8 * n.toNat, 8)
  | .p n => (0x100 + 8 * n.toNat, 8)
  | .l n => (0x140 + 4 * n.toNat, 4)
  | .g n => (0x160 + n.toNat, 1)
  | .b n => (0x200 + 32 * n.toNat, 32)
  | .q n => (0x400 + 32 * n.toNat, 32)
  | .v n => (0x800 + 256 * n.toNat, 256)
  | .x r => (0x600 + 8 * xregs.idxOf r, 8)

/-- A trap register takes a value. -/
def XRegs.load (x : XRegs) (r : XReg) (w : Word) : XRegs :=
  match r with
  | .xvec => { x with xvec := w }
  | .xepc => { x with xepc := w }
  | .xcause => { x with xcause := w }
  | .xtval => { x with xtval := w }
  | .xscr0 => { x with xscr0 := w }
  | .xscr1 => { x with xscr1 := w }
  | .xfres => { x with xfres := w }
  | _ => x

/-- A register takes the bytes of its image. -/
def Core.fetched (c : Core) (r : BankReg) (bs : List Byte) : Core :=
  let x := c.present r
  match r with
  | .s n => { x with s := x.s.set n.toNat (bv 64 bs 0) }
  | .p n => { x with p := x.p.set n.toNat (bv 64 bs 0) }
  | .l n => { x with l := x.l.set n.toNat (bv 32 bs 0) }
  | .g n => { x with g := x.g.set n.toNat (guardOf (fieldAt bs 0 1)) }
  | .b n => { x with b := x.b.set n.toNat (bv 256 bs 0) }
  | .q n => { x with q := x.q.set n.toNat (bv 256 bs 0) }
  | .v n => { x with v := x.v.set n.toNat (bv 2048 bs 0) }
  | .x k =>
    let w := bv 64 bs 0
    { x with x := x.x.load k w }

/-- Registers that engines and the trap machinery may have changed since the restoration; they stand in the core already. -/
def eagerReg : BankReg → Bool
  | .q _ | .x _ => true
  | _ => false

/-- The number of a register, as xtval reports it (R393). -/
def regNumber : BankReg → Nat
  | .s n => n.toNat
  | .p n => n.toNat
  | .l n => n.toNat
  | .g n => n.toNat
  | .b n => n.toNat
  | .q n => n.toNat
  | .v n => n.toNat
  | .x r => xregNum r

/-- A core fetches a register (R407); one that cannot be read is zero, and the word takes the reconstruction trap. -/
def State.missReg (s : State) (h c : Nat) (reg : BankReg) (base : SaveRef) : State :=
  let p := regPlace reg
  let r := base.add p.1
  match s.saveReach r false (r.pieces p.2) with
  | (t, false) => t
  | (t, true) =>
    let y := t.saveBytes r p.2
    if y.2.2 then
      (y.1.modCore h c fun z => z.fetched reg (.replicate p.2 0)).enterTrap h c (.reconstruction 2 (.ofNat 64 (regNumber reg))) false
    else y.1.modCore h c fun z => if eagerReg reg then z.present reg else z.fetched reg y.2.1

/-- REGISTER_MISS (R407): a core that comes to a word which uses an absent register fetches it. -/
def execRegisterMiss (herd core : Nat) (reg : BankReg) (s : State) : Out :=
  s.onCore herd core fun c =>
    .next (match c.saved with
      | some base =>
        if c.isAbsent reg && s.mayIssue herd c && c.boundary.isNone && c.block.isNone && c.join.isNone then
          match s.nextUses herd c with
          | (t, rs) => if rs.contains reg then t.missReg herd core reg base else t
        else s
      | none => s)

/-! ## Rotation (R103, R444) -/

/-- An eviction request reaches a gang: each herd has its place in an area (R409). -/
def State.requestGang (s : State) (n : Node) (base : SaveRef) : State :=
  n.herds.zipIdx.foldl (fun t x => t.modHerd x.1 fun y => { y with evict := some (base.add (x.2 * herdBytes n.hdr)) }) s

/-- Whether a node is to be rotated now (R103, R444). One of an abandoned launch runs on where it is (R102; log 79). -/
def State.mayRotate (s : State) (l : Launch) (n : Node) : Bool :=
  n.runs && n.hdr.reloc && !l.abandoned && !s.preempting l.qid &&
  ((n.turned.map fun t => decide (t + 4194304 ≤ s.now)).getD true) &&
  n.herds.any (fun h => ((s.herds[h]?).map fun x => decide (256 ≤ x.hot)).getD false) &&
  (s.chooseHerds n fun h => !s.isHot h && (s.herdFree h || n.herds.contains h)).2

/-- NODE_ROTATION (R103). -/
def execNodeRotation (lseq node : Nat) (s : State) : Out :=
  .next (match s.launch? lseq, s.node? lseq node with
    | some l, some n =>
      if s.mayRotate l n then
        (s.requestGang n (.firm (lseq * 2048 + node) 0)).modNode lseq node fun m => { m with
          moving := m.herds, turned := some s.now }
      else s
    | _, _ => s)

end Sys2Proof.Machine
end

