-- ==== Sys2Proof/Machine/Commands.lean ====
section
/-! DEFINITION. Management commands on queues and PASIDs, and PREEMPT (spec/03_launching.md R69 to R75). -/

namespace Sys2Proof.Machine

/-! ## Reading a command (R69, R70) -/

/-- Whether the fields that every command has are as R69 asks. -/
def commandBad (bs : List Byte) : Bool :=
  let d := dwAt bs 0
  !decide (1 ≤ Word.fieldAt d 7 0 ∧ Word.fieldAt d 7 0 ≤ 10) || Word.fieldAt d 15 9 != 0 || Word.fieldAt d 63 32 != 0 ||
  dwAt bs 0x30 != 0 || dwAt bs 0x38 != 0

/-- Whether firmware may take the next command: the ring holds a slot, and no command is under way (R68, R69). -/
def State.mayCommand (s : State) : Bool :=
  s.powered && s.tahr.ready && s.tahr.mgmt.isNone && s.tahr.mqhead != s.tahr.mqtail && s.slotState mgmtQid == some .serving

/-- The next command is read and, if it has the code, acted on. A malformed one is rejected whatever its code (R69, R70). -/
def State.command (s : State) (code : Nat) (k : State → List Byte → State) : State :=
  if !s.mayCommand then s
  else match s.commandLoc with
    | none => s
    | some l =>
      let x := s.copyRead l 64
      if commandBad x.2.1 then x.1.finishCommand .invalidField 0
      else if Word.fieldAt (dwAt x.2.1 0) 7 0 ≠ code then s else k x.1 x.2.1

/-- Reject a command whose operands break R70. -/
def State.operands (s : State) (bad : Bool) (k : State) : State := if bad then s.finishCommand .invalidField 0 else k

/-- Whether operand doublewords that a command does not list hold anything (R70). -/
def unlisted (bs : List Byte) (lo : Nat) : Bool := [0x08, 0x10, 0x18, 0x20, 0x28].any fun o => decide (lo ≤ o) && dwAt bs o != 0

/-- Act on the queue that a command names (R82). -/
def State.named (s : State) (bs : List Byte) (k : Queue → State) : State :=
  match s.queue? (Word.fieldAt (dwAt bs 8) 11 0) with
  | none => s.finishCommand .noSuchQueue 0
  | some q => k q

/-! ## Queues and PASIDs (R52, R64, R71, R74) -/

/-- The queue that a MAPQ makes: its tail register keeps its value (R4), and its ring is empty, so that its head stands there too
(log 73). -/
def queueOfCommand (bs : List Byte) (now : Nat) (tail : BitVec 32) : Queue :=
  let d := dwAt bs 8
  { qid := Word.fieldAt d 11 0
    cls := Word.fieldAt d 13 12
    level := Word.fieldAt d 19 14
    strict := false
    n := Word.fieldAt d 23 20 + 4
    vector := Word.fieldAt d 34 24
    pasid := d.extractLsb' 44 20
    base := dwAt bs 0x10
    srec := dwAt bs 0x18
    head := tail
    tail := tail
    tag := 0
    status := 0
    detail := 0
    done := 0
    since := now
    held := none
    hold := none
    wait := none
    fence := false
    ptag := 0
    pirq := false
    seen := []
    unbound := false
    owed := none }

/-- A queue comes to exist, with its tail register (R52). -/
def Tahr.mapped (t : Tahr) (q : Queue) : Tahr :=
  { t with queues := t.queues ++ [q], tails := t.tails.filter fun x => x.1 != q.qid }

/-- A queue ceases to exist; its tail register keeps its value (R4, R52). -/
def Tahr.unmapped (t : Tahr) (q : Queue) : Tahr :=
  { t with
    queues := t.queues.filter fun y => y.qid != q.qid
    tails := (if q.tail = 0 then [] else [(q.qid, q.tail)]) ++ t.tails.filter fun x => x.1 != q.qid }

/-- Whether a MAPQ's operands break R52, R54, R64 or R70. -/
def mapqBad (bs : List Byte) (q : Queue) : Bool :=
  Word.fieldAt (dwAt bs 8) 43 35 != 0 || unlisted bs 0x20 || decide (16 < q.n) || q.level / 12 != q.cls ||
  !ptrOk q.base [0] (64 * 2 ^ q.n) || !ptrOk q.srec [0] 16

/-- MAPQ (R71). -/
def execMapq (s : State) : Out :=
  .next (s.command 1 fun t bs =>
    let q := queueOfCommand bs t.now (t.tahr.tailOf (Word.fieldAt (dwAt bs 8) 11 0))
    t.operands (mapqBad bs q) (
      if (t.queue? q.qid).isSome then t.finishCommand .queueBusy 0
      else if !(t.roots.any fun r => r.pasid == q.pasid) then t.finishCommand .pasidUnbound 0
      else (t.modTahr fun x => x.mapped q).finishCommand .ok 0))

/-- UNMAPQ (R71). Launches of a queue in error that still run, run on (log 56), and an update of its status record that is owed
is made first. -/
def execUnmapq (s : State) : Out :=
  .next (s.command 2 fun t bs =>
    t.operands (Word.fieldAt (dwAt bs 8) 63 12 != 0 || unlisted bs 0x10) (t.named bs fun q =>
      if q.needsSlot then t.finishCommand .queueBusy 0
      else if q.owed.isSome then t
      else ((t.freeSlot q.qid).modTahr fun x => x.unmapped q).finishCommand .ok 0))

/-- PASID_BIND (R71). -/
def execPasidBind (s : State) : Out :=
  .next (s.command 4 fun t bs =>
    let p : BitVec 20 := (dwAt bs 8).truncate 20
    let root := (dwAt bs 0x10).toNat
    t.operands (Word.fieldAt (dwAt bs 8) 63 20 != 0 || root % 256 != 0 || decide (Config.dramBytes ≤ root) || unlisted bs 0x18) (
      if t.roots.any fun r => r.pasid == p then t.finishCommand .pasidBound 0
      else if 256 ≤ t.roots.length then t.finishCommand .resources 0
      else ({ t with roots := t.roots ++ [⟨p, root⟩] } : State).finishCommand .ok 0))

/-- Whether a queue has a packet read outstanding: its thread serves it and its next packet is due (R74). -/
def State.reading (s : State) (q : Queue) : Bool :=
  q.status == 0 && s.slotState q.qid == some .serving && q.head != q.tail && q.hold.isNone && q.held.isNone && q.wait.isNone && !q.fence

/-- PASID RETIRE is accepted (R74): the queues that read stop, the others at their next read, and from now on every request to
the host is refused, those on their way with them. The kind that space_retired reports is 0 (log 46). -/
def State.beginRetire (s : State) (p : BitVec 20) : State :=
  let qs := s.tahr.queues.filter fun q => q.pasid == p && s.reading q
  let t := (({ s with pages := s.pages.filter fun g => !(g.pasid == p && g.host.isNone) } : State).modTahr fun x =>
    { x with mgmt := some (.retire p qs.length) })
  let u := t.modTahr fun x => { x with queues := x.queues.map fun q => if q.pasid = p then { q with unbound := true } else q }
  (qs.foldl (fun v q => v.stopQueue q.qid .spaceRetired (valueDetail 0)) u).tellOwed

/-- PASID RETIRE completes (R74, R451): the root is unbound and every cached translation goes. -/
def State.endRetire (s : State) (p : BitVec 20) (n : Nat) : State :=
  ((({ s with
    roots := s.roots.filter fun r => r.pasid != p
    pages := s.pages.filter fun g => g.pasid != p } : State).dropTlb (some p) none).retraceAll).finishCommand .ok n

/-- PASID_RETIRE (R74, R451): acceptance, and at its next move completion. A PASID that is not bound is rejected with
pasid_unbound (log 53). -/
def execPasidRetire (s : State) : Out :=
  .next (match s.tahr.mgmt with
    | some (.retire p n) => s.endRetire p n
    | _ => s.command 5 fun t bs =>
      let p : BitVec 20 := (dwAt bs 8).truncate 20
      t.operands (Word.fieldAt (dwAt bs 8) 63 20 != 0 || unlisted bs 0x10) (
        if !(t.roots.any fun r => r.pasid == p) then t.finishCommand .pasidUnbound 0 else t.beginRetire p))

/-! ## QRESET (R72, R73) -/

/-- The header of an engine word that performs no completion action. -/
def hdrNone : EHdr := ⟨none, 0, 0, 0, 0, 0, none⟩

/-- An engine word without its completion actions (R73). -/
def silent : Instr → Instr
  | .pcopy _ p => .pcopy hdrNone p
  | .pgath _ p => .pgath hdrNone p
  | .pscat _ p => .pscat hdrNone p
  | .pfill _ p => .pfill hdrNone p
  | .pring _ p => .pring hdrNone p
  | .ppage _ sb db tok hreg => .ppage hdrNone sb db tok hreg
  | .mmul _ acc qa qb init => .mmul hdrNone acc qa qb init
  | .msl _ acc qa qb init slm1 => .msl hdrNone acc qa qb init slm1
  | .mkat _ acc qa qb init crc => .mkat hdrNone acc qa qb init crc
  | .mst _ acc ob kind sat ooff => .mst hdrNone acc ob kind sat ooff
  | .mld _ acc ob ooff => .mld hdrNone acc ob ooff
  | .mzero _ acc => .mzero hdrNone acc
  | .mrel _ => .mrel hdrNone
  | .wload _ r latch off sn => .wload hdrNone r latch off sn
  | .wswap _ r latch => .wswap hdrNone r latch
  | .wfeed _ r src slot n part => .wfeed hdrNone r src slot n part
  | .wdrain _ rows q slot n kind sat => .wdrain hdrNone rows q slot n kind sat
  | .wmode _ rows fmt tr => .wmode hdrNone rows fmt tr
  | .wpipe _ rows fn sp dqb mlb rdb => .wpipe hdrNone rows fn sp dqb mlb rdb
  | .wchk _ r slot sb => .wchk hdrNone r slot sb
  | .cred _ db sb ty n op scope group => .cred hdrNone db sb ty n op scope group
  | .cbcast _ db sb ty n scope group => .cbcast hdrNone db sb ty n scope group
  | .cgath _ db sb ty n scope group => .cgath hdrNone db sb ty n scope group
  | .cscat _ db sb ty n scope group => .cscat hdrNone db sb ty n scope group
  | .csync _ scope group => .csync hdrNone scope group
  | i => i

/-- The Running entry of an engine is aborted: what it could have written is undefined, and it makes no completion action
(R72, R73). -/
def State.abortRun (s : State) (h c : Nat) (g : Engine) : State :=
  match (s.core? h c).bind fun x => x.head g with
  | some e =>
    if e.run.isSome then
      (s.modCore h c fun x => x.setHead g { e with word := silent e.word }).stopRun h c g .queueReset
    else s
  | none => s

/-- Every entry in progress of a herd's running context is aborted. -/
def State.abortHerd (s : State) (h : Nat) : State :=
  (List.range 8).foldl (fun t c => [Engine.pump, .matrix, .well, .coll].foldl (fun u g => u.abortRun h c g) t) s

/-- Whether a context is of a node of a launch. -/
def HerdCtx.isOf (x : HerdCtx) (lseq : Nat) : Bool := (x.held.map Held.lseq) == some lseq

/-- A change of ways goes on for a core that is gone. -/
def DspChange.forget (w : DspChange) (h : Nat) : DspChange :=
  if w.asker.map Prod.fst = some h then { w with asker := none } else w

/-- A herd's context goes, with what waits for it elsewhere. -/
def State.dropAsks (s : State) (h : Nat) : State :=
  ({ s with dies := s.dies.map fun d => { d with change := d.change.map fun w => w.forget h } } : State).modTahr fun t =>
    { t with notices := t.notices.filter fun n => n.1 != h }

/-- A herd discards the contexts that it holds of a launch: stores that have not performed are squashed (R72; log 43). -/
def State.discardHerd (s : State) (lseq h : Nat) : State :=
  match s.herds[h]? with
  | none => s
  | some x =>
    let t := if x.act.isOf lseq then
        ((s.abortHerd h).modHerd h fun y => { y with act := .idle, evict := none }).dropAsks h
      else s
    let u := match x.old with
      | some o => if o.isOf lseq then
          ((t.inOld h fun v => v.abortHerd h).modHerd h fun y => { y with old := none, spill := none })
        else t
      | none => t
    u.redirect h

/-- One node of a launch is discarded. -/
def State.discardNode (s : State) (l : Launch) (i : Nat) (n : Node) : State :=
  if n.copying then s.copyForget l.pasid n n.segments 0
  else s.dropRect l.lseq i

/-- Everything that a launch has started is discarded (R72). -/
def State.discardLaunch (s : State) (l : Launch) : State :=
  let t := (List.range s.herds.length).foldl (fun u h => u.discardHerd l.lseq h) s
  (l.nodes.zipIdx.foldl (fun u n => u.discardNode l n.2 n.1) t).modTahr fun x => { x with
    launches := x.launches.filter fun y => y.lseq != l.lseq }

/-- A queue returns to reading packets, its head at its tail; no message of its work is sent any more (R72, R73). -/
def State.restartQueue (s : State) (qid : Nat) : State :=
  let t := s.modQueue qid fun q => { q with
    head := q.tail, status := 0, detail := 0, held := none, hold := none, wait := none, fence := false, seen := [], owed := none }
  ((if (t.slotOf qid).isSome ∧ t.slotState qid ≠ some .unmapping then t.setSlot qid .serving else t).tellStatus qid []).settleSlot qid

/-- QRESET (R72, R73). -/
def execQreset (s : State) : Out :=
  .next (s.command 3 fun t bs =>
    t.operands (Word.fieldAt (dwAt bs 8) 63 12 != 0 || unlisted bs 0x10) (t.named bs fun q =>
      let u := (t.tahr.launches.filter fun l => l.qid == q.qid).foldl State.discardLaunch t
      (u.restartQueue q.qid).finishCommand .ok q.tail.toNat))

/-! ## PREEMPT (R75) -/

/-- The context of a node that waits for its executors, from where it was saved before. -/
def State.savedContext (s : State) (l : Launch) (i : Nat) (n : Node) (r : SaveRef) : State × List Byte :=
  let hb := herdBytes n.hdr * n.hdr.gang
  let wb := if n.kind = .well then rectBytes n.hdr else 0
  if r.isVirt then
    let x := s.saveBytes r (hb + wb)
    (x.1, x.2.1)
  else
    let x := s.saveBytes r hb
    (x.1, x.2.1 ++ if n.kind = .well then ((s.rects.find? fun y => y.isOf l.lseq i).map rectImage).getD [] else [])

/-- A node without units is saved: its earlier context moves to the new area. -/
def State.savePooled (s : State) (l : Launch) (i : Nat) (n : Node) (r : SaveRef) : State :=
  let t := match n.saved with
    | none => s
    | some a =>
      let x := s.savedContext l i n a
      (x.1.saveWrite r (r.pieces x.2.length) x.2).dropRect l.lseq i
  t.modNode l.lseq i fun m => { m with state := .saved, herds := [] }

/-- One node of a launch is evicted (R75, R409). -/
def State.evictNode (s : State) (l : Launch) (i : Nat) (n : Node) (r : SaveRef) : State :=
  if n.state = .retired then s
  else if n.copying then
    (s.copyForget l.pasid n n.segments 0).modNode l.lseq i fun m => { m with state := .saved, pump := none }
  else if n.state.onUnits then (s.requestGang n r).modNode l.lseq i fun m => { m with moving := m.herds }
  else s.savePooled l i n r

/-- Every node of a launch is evicted into its save. -/
def State.evictLaunch (s : State) (pasid : BitVec 20) (area : Nat) (x : Saved) : State :=
  (x.launch.nodes.zip x.ctxs).zipIdx.foldl (fun t n => t.evictNode x.launch n.2 n.1.1 (.virt pasid (area + x.start + n.1.2))) s

/-- Whether the contexts of nodes that wait for their executors can be read. -/
def State.savedReach (s : State) (ls : List Launch) : State × Bool :=
  (ls.flatMap fun l => l.nodes.filterMap fun n => n.saved.map fun r => (n, r)).foldl (fun x n =>
    if x.2 then x.1.saveReach n.2 false (n.2.pieces (herdBytes n.1.hdr * n.1.hdr.gang +
      if n.2.isVirt ∧ n.1.kind = .well then rectBytes n.1.hdr else 0)) else x) (s, true)

/-- PREEMPT goes ahead: the descriptors are written, and every gang is asked to leave. -/
def State.beginPreempt (s : State) (q : Queue) (area : Nat) (lay : List Saved × Nat) : State :=
  let r : SaveRef := .virt q.pasid area
  let t := (descriptors lay.1).foldl (fun u d => u.saveWrite (r.add d.1) ((r.add d.1).pieces d.2.length) d.2) s
  let u := (lay.1.foldl (fun v x => v.evictLaunch q.pasid area x) t).modTahr fun x => { x with
    mgmt := some (.preempt q.qid area (if lay.1.isEmpty then 0 else 4096) lay.2) }
  (u.modQueue q.qid fun x => { x with held := none, wait := none, fence := false, seen := [] }).finishPreempt

/-- The checks of a save area, and what follows (R75). A gang that another eviction is moving is waited for. -/
def State.preempt (s : State) (q : Queue) (area bytes : Nat) : State :=
  let ls := s.launchesOf q.qid
  if ls.any fun l => l.nodes.any fun n => !n.moving.isEmpty then s
  else
    let lay := layArea ls
    if bytes < lay.2 then s.finishCommand .resources 0
    else match s.fwProbe q.pasid true (pagePieces area bytes) with
      | (t, some (some k)) => t.finishCommand .translation k
      | (t, some none) => t
      | (t, none) => match t.savedReach ls with
        | (u, false) => u
        | (u, true) => u.beginPreempt q area lay

/-- PREEMPT (R75); one that is under way completes when its last spill has. -/
def execPreempt (s : State) : Out :=
  .next (match s.tahr.mgmt with
    | some (.preempt _ _ _ _) => s.finishPreempt
    | _ => s.command 6 fun t bs =>
      t.operands (Word.fieldAt (dwAt bs 8) 63 12 != 0 || !ptrOk (dwAt bs 0x10) [0] 4096 || unlisted bs 0x20) (t.named bs fun q =>
        t.preempt q (pAddr (dwAt bs 0x10)) (dwAt bs 0x18).toNat))

end Sys2Proof.Machine
end

