-- ==== Sys2Proof/Machine/Convert.lean ====
section
/-! DEFINITION. The scalar conversions (spec/07_scalar_and_issue.md R162, R163). -/

namespace Sys2Proof.Machine

/-- A conversion: its result takes more than 1 ck, and it reads a value that fills the low bits of rs1 (R157, R162). -/
def convert (rd rs1 : BitVec 5) (f : Word → Nat) : State → Out := scalarLate [rs1] rd fun c => .ofNat 64 (f (c.gs rs1))

/-- The low n bits of a register as a number. -/
def lowNat (n : Nat) (x : Word) : Nat := x.toNat % 2 ^ n

/-- A rounded value clamped to s64 (R163). -/
def toS64 (rnd : Rnd) (x : Num) : Nat := (BitVec.ofInt 64 (x.toIntClamp rnd (-2 ^ 63) (2 ^ 63 - 1))).toNat

/-- cvt.f64.s64 (R163). -/
def execCvtF64S64 (rd rs1 : BitVec 5) (rnd : Rnd) : State → Out :=
  convert rd rs1 fun x => roundTo F64 rnd false (.ofInt x.toInt)

/-- cvt.f32.s64 (R163). -/
def execCvtF32S64 (rd rs1 : BitVec 5) (rnd : Rnd) : State → Out :=
  convert rd rs1 fun x => roundTo F32 rnd false (.ofInt x.toInt)

/-- cvt.s64.f64 (R163). -/
def execCvtS64F64 (rd rs1 : BitVec 5) (rnd : Rnd) : State → Out :=
  convert rd rs1 fun x => toS64 rnd (F64.decode x.toNat)

/-- cvt.s64.f32 (R163). -/
def execCvtS64F32 (rd rs1 : BitVec 5) (rnd : Rnd) : State → Out :=
  convert rd rs1 fun x => toS64 rnd (F32.decode (lowNat 32 x))

/-- cvt.f64.f32, exact (R163). -/
def execCvtF64F32 (rd rs1 : BitVec 5) : State → Out := convert rd rs1 fun x => widenExact F32 F64 (lowNat 32 x)

/-- cvt.f32.f64 (R163). -/
def execCvtF32F64 (rd rs1 : BitVec 5) (rnd : Rnd) : State → Out :=
  convert rd rs1 fun x => roundTo F32 rnd false (F64.decode x.toNat)

/-- cvt.f32.f16, exact (R163). -/
def execCvtF32F16 (rd rs1 : BitVec 5) : State → Out := convert rd rs1 fun x => widenExact F16 F32 (lowNat 16 x)

/-- cvt.f16.f32 (R163). -/
def execCvtF16F32 (rd rs1 : BitVec 5) (rnd : Rnd) : State → Out :=
  convert rd rs1 fun x => roundTo F16 rnd false (F32.decode (lowNat 32 x))

/-- cvt.f32.bf16, exact (R163). -/
def execCvtF32Bf16 (rd rs1 : BitVec 5) : State → Out := convert rd rs1 fun x => widenExact BF16 F32 (lowNat 16 x)

/-- cvt.bf16.f32 (R163). -/
def execCvtBf16F32 (rd rs1 : BitVec 5) (rnd : Rnd) : State → Out :=
  convert rd rs1 fun x => roundTo BF16 rnd false (F32.decode (lowNat 32 x))

end Sys2Proof.Machine
end

