-- ==== Sys2Proof/Machine/Loop.lean ====
section
/-! DEFINITION. Loop nests of the vector engine (spec/08_vector_engine.md R210 to R212). -/

namespace Sys2Proof.Machine

/-- The core skips the body of a nest with a count of 0, or sets up its loop state (R211, R212). -/
def Core.enterLoop (c : Core) (counts : List Nat) (steps : List (BitVec 2)) (body : List (BitVec 56)) (after : BitVec 56) :
    Core :=
  if counts.contains 0 then { c with pc := after }
  else { c with
    pc := body.headD after
    loop := some ⟨c.pc, counts, steps, List.replicate counts.length 0, body, 0, after⟩ }

/-- vloop (R210, R211). -/
def execVloop (h : VHdr) (lenM1 : BitVec 4) (depth : BitVec 3) (ts : BitVec 12) (s : State) : Out :=
  s.onMy fun c =>
    let dims := List.range depth.toNat
    if c.here (dims.map fun k => BankReg.l (.ofNat 3 k)) then
      match s.loopBody s.cur.1 (!c.x.priv) c.pc (lenM1.toNat + 1) with
      | (t, .wait) => .next t
      | (t, .fail e) => t.trap e
      | (t, .bad) => t.trap (.illegal (firstGranule (.vloop h lenM1 depth ts)))
      | (t, .body ws after) =>
        let counts := dims.map fun k => (c.gl (.ofNat 3 k)).toNat
        let steps := dims.map fun k => (ts >>> (2 * k)).truncate 2
        .next (t.putMy { c.enterLoop counts steps ws after with
          buf := c.buf.drop 1
          seq := c.seq + 1
          issueAt := t.now + 1 + h.gap.toNat })
    else .next s

/-- The meaning of a vector word, as a body word of a nest; a vloop is never one (R210). -/
def vectorMeaning : Instr → Option (State → Out)
  | .vadd h d a b => some (execVadd h d a b)
  | .vsub h d a b => some (execVsub h d a b)
  | .vmul h d a b => some (execVmul h d a b)
  | .vmulh h d a b => some (execVmulh h d a b)
  | .vmin h d a b => some (execVmin h d a b)
  | .vmax h d a b => some (execVmax h d a b)
  | .vabs h d a => some (execVabs h d a)
  | .vneg h d a => some (execVneg h d a)
  | .vmac h d a b => some (execVmac h d a b)
  | .vdot4 h d a b => some (execVdot4 h d a b)
  | .vfma h d a b => some (execVfma h d a b)
  | .vfms h d a b => some (execVfms h d a b)
  | .vfnma h d a b => some (execVfnma h d a b)
  | .vdiv h d a b => some (execVdiv h d a b)
  | .vsqrt h d a => some (execVsqrt h d a)
  | .vrsqrt h d a => some (execVrsqrt h d a)
  | .vrcp h d a => some (execVrcp h d a)
  | .vexp2 h d a => some (execVexp2 h d a)
  | .vlog2 h d a => some (execVlog2 h d a)
  | .vtanh h d a => some (execVtanh h d a)
  | .vsigm h d a => some (execVsigm h d a)
  | .vscale h d a b => some (execVscale h d a b)
  | .vand h d a b => some (execVand h d a b)
  | .vor h d a b => some (execVor h d a b)
  | .vxor h d a b => some (execVxor h d a b)
  | .vandn h d a b => some (execVandn h d a b)
  | .vsll h d a b => some (execVsll h d a b)
  | .vsrl h d a b => some (execVsrl h d a b)
  | .vsra h d a b => some (execVsra h d a b)
  | .vclz h d a => some (execVclz h d a)
  | .vpopc h d a => some (execVpopc h d a)
  | .vmov h d a => some (execVmov h d a)
  | .vsel h d a b => some (execVsel h d a b)
  | .vcmp h cc d a b => some (execVcmp h cc d a b)
  | .pand h pd pa pb => some (execPand h pd pa pb)
  | .por h pd pa pb => some (execPor h pd pa pb)
  | .pxor h pd pa pb => some (execPxor h pd pa pb)
  | .pnot h pd pa => some (execPnot h pd pa)
  | .pset h pd a => some (execPset h pd a)
  | .pget h vd pa => some (execPget h vd pa)
  | .pcnt h vd pa => some (execPcnt h vd pa)
  | .pfirst h pd pa => some (execPfirst h pd pa)
  | .vcvt h src d a => some (execVcvt h src d a)
  | .vcvtsc h src d a b => some (execVcvtsc h src d a b)
  | .vpack h src d a part => some (execVpack h src d a part)
  | .vunpack h src d a part => some (execVunpack h src d a part)
  | .vround h d a => some (execVround h d a)
  | .vql4 h d a b => some (execVql4 h d a b)
  | .vrsum h d a => some (execVrsum h d a)
  | .vrmax h d a => some (execVrmax h d a)
  | .vrmin h d a => some (execVrmin h d a)
  | .vrdot h d a b => some (execVrdot h d a b)
  | .vscan h d a => some (execVscan h d a)
  | .vargmax h d a => some (execVargmax h d a)
  | .vperm h d a b => some (execVperm h d a b)
  | .vrot h d a b => some (execVrot h d a b)
  | .vshfl h d a b => some (execVshfl h d a b)
  | .vbcast h d a b => some (execVbcast h d a b)
  | .vzip h d a b => some (execVzip h d a b)
  | .vunzip h d a b => some (execVunzip h d a b)
  | .vtrn h d a b => some (execVtrn h d a b)
  | .vcompress h d a => some (execVcompress h d a)
  | .vexpand h d a => some (execVexpand h d a)
  | .vld h d a => some (execVld h d a)
  | .vst h d a => some (execVst h d a)
  | .vgath h d a b => some (execVgath h d a b)
  | .vscat h d a b => some (execVscat h d a b)
  | .vdq h vd n => some (execVdq h vd n)
  | .vaq h m vi n => some (execVaq h m vi n)
  | .vcpush h a n => some (execVcpush h a n)
  | .vcpop h vd n => some (execVcpop h vd n)
  | .vcflush h n => some (execVcflush h n)
  | _ => none

/-- VLOOP_BODY_ISSUE (R211): a core whose nest is under way issues the next body word from its loop buffer; what waits at the
boundary comes first (R212, R395). -/
def execVloopBodyIssue (herd core : Nat) (s : State) : Out :=
  s.onCore herd core fun x =>
    let t := { s with cur := (herd, core) }
    if t.mayIssue herd x && x.inLoop && x.boundary.isNone && x.block.isNone && x.join.isNone then
      match t.fetchNext herd x with
      | (u, .word i _) => match vectorMeaning i, u.readTokens herd core i with
        | some f, (v, true) => f v
        | some _, (v, false) => .next v
        | none, _ => u.trap (.illegal (firstGranule i))
      | (u, .bad k) => u.trap k
      | (u, .wait) => .next u
    else .next s

end Sys2Proof.Machine
end

