-- ==== Sys2Proof/Machine/Reports.lean ====
section
/-! DEFINITION. RESYNC, ATTEST, PATCH and DSP (spec/03_launching.md R76 to R81). -/

namespace Sys2Proof.Machine

/-! ## RESYNC (R76, R77) -/

/-- A slot state's code (R77). -/
def SlotState.code : SlotState → Nat
  | .free => 0 | .serving => 1 | .holding => 2 | .blocked => 3 | .idle => 4 | .unmapping => 5

/-- A log entry (R434). -/
def LogEntry.image (e : LogEntry) : List Byte :=
  leBytes 8 (e.time % 2 ^ 44 + e.die * 2 ^ 44 + e.kind * 2 ^ 47 + e.qid * 2 ^ 52) ++ leBytes 8 e.w1.toNat ++ leBytes 8 e.w2.toNat ++
  leBytes 8 e.w3.toNat

/-- The die map (R77). -/
def State.mapWord (s : State) : Nat := (s.dieMap.zipIdx.map fun d => d.1 * 2 ^ (3 * d.2)).sum

/-- The sequence number of the last patch applied. -/
def Tahr.lastPatch (t : Tahr) : Nat := ((t.patches.getLast?).map Prod.fst).getD 0

def State.sumHeader (s : State) : List Byte :=
  leBytes 8 (1 + s.tahr.queues.length * 2 ^ 32) ++ leBytes 8 (s.tahr.launches.length + s.log.length * 2 ^ 32) ++
  leBytes 8 s.mapWord ++ leBytes 8 (s.tahr.ready.toNat + 2 * s.tahr.patched.toNat + 4 * s.tahr.fatal.toNat) ++
  leBytes 8 s.tahr.lastPatch ++ leBytes 8 s.tahr.lseq ++ leBytes 8 s.logged ++
  leBytes 8 ((s.dies.zipIdx.map fun d => d.1.ways * 2 ^ (4 * d.2)).sum)

/-- A slot's record; the management ring holds one as a queue of class 3 at level 47 with no qid (R68; log 44). -/
def State.sumSlot (s : State) (x : Slot) (i : Nat) : List Byte :=
  let q := x.qid.bind s.holder?
  let qid := match q with
    | some h => if h.qid < 4096 then h.qid else 0xFFFF
    | none => 0xFFFF
  leBytes 8 (qid + slotOwner i * 2 ^ 16 + (q.map Holder.level).getD 0 * 2 ^ 20 + (q.map Holder.cls).getD 0 * 2 ^ 26 +
    x.state.code * 2 ^ 28) ++ leBytes 8 0

def State.sumPool (s : State) (d : Nat) : List Byte :=
  (List.range 4).flatMap fun c => leBytes 2 (s.nodes.filter fun x =>
    x.2.2.die == d && x.2.2.level / 12 == c && (x.2.2.state.pooled || x.2.2.state.onUnits)).length

def State.sumHerd (s : State) (x : Herd) (h : Nat) : List Byte :=
  let d := (s.dies[h / 16]?).getD .idle
  leBytes 8 (x.capacity + x.mstate * 2 ^ 21 + x.retired.toNat * 2 ^ 23 + d.budgets.getD (h % 16) 0 * 2 ^ 24 +
    ((d.zones[h % 16]?).map Zone.state).getD 0 * 2 ^ 28)

def Die.sumWells (d : Die) : List Byte :=
  (List.range 128).map fun i => .ofNat 8 (((List.range 8).map fun b => (d.wellsOut.contains (8 * i + b)).toNat * 2 ^ b).sum)

def State.sumQueue (s : State) (q : Queue) : List Byte :=
  leBytes 8 (q.qid + q.cls * 2 ^ 12 + q.level * 2 ^ 14 + q.strict.toNat * 2 ^ 20 + q.n * 2 ^ 24 + q.pasid.toNat * 2 ^ 44) ++
  leBytes 8 (q.head.toNat + q.tail.toNat * 2 ^ 32) ++
  leBytes 8 (q.status + (s.slotOf q.qid).getD 0x3F * 2 ^ 8 + q.done.toNat * 2 ^ 32) ++ leBytes 8 q.base.toNat

def Launch.count (l : Launch) (f : NodeState → Bool) : Nat := (l.nodes.filter fun n => f n.state).length

def Launch.summary (l : Launch) : List Byte :=
  leBytes 8 (l.qid + l.nodes.length * 2 ^ 16 + l.count (· == .retired) * 2 ^ 27 + l.gtrig.toNat * 2 ^ 38 +
    (l.nodes.all fun n => n.hdr.det).toNat * 2 ^ 39) ++
  leBytes 8 l.record.toNat ++ leBytes 8 l.lseq ++ leBytes 8 (l.count NodeState.onUnits + l.count NodeState.pooled * 2 ^ 11)

/-- The summary (R76). -/
def State.summary (s : State) : List Byte :=
  s.sumHeader ++ s.tahr.slots.zipIdx.flatMap (fun x => s.sumSlot x.1 x.2) ++ (List.range 8).flatMap s.sumPool ++
  s.herds.zipIdx.flatMap (fun x => s.sumHerd x.1 x.2) ++ s.dies.flatMap Die.sumWells ++
  (sortBy (fun a b => decide (a.qid < b.qid)) s.tahr.queues).flatMap s.sumQueue ++
  (sortBy (fun a b => decide (a.lseq < b.lseq)) s.tahr.launches).flatMap Launch.summary ++ s.log.reverse.flatMap LogEntry.image

/-- A command's buffer is reached under PASID 0, or the command waits or is rejected (log 44). -/
def State.buffer (s : State) (write : Bool) (a n : Nat) (k : State → State) : State :=
  match s.fwProbe 0 write (pagePieces a n) with
  | (t, some (some x)) => t.finishCommand .translation x
  | (t, some none) => t
  | (t, none) => k t

/-- RESYNC (R76): the first bytes that fit are written. -/
def execResync (s : State) : Out :=
  .next (s.command 7 fun t bs =>
    t.operands (!ptrOk (dwAt bs 8) [0] 4096 || unlisted bs 0x18) (
      let out := t.summary
      let n := min out.length (dwAt bs 0x10).toNat
      t.buffer true (pAddr (dwAt bs 8)) n fun u =>
        (u.fwWrite 0 (pAddr (dwAt bs 8)) (out.take n)).finishCommand (if n < out.length then .resources else .ok) n))

/-! ## ATTEST (R78, R79) -/

/-- A big-endian word (RFC 8554). -/
def beBytes (n x : Nat) : List Byte := (leBytes n x).reverse

/-- The identity key's public key. -/
def publicKey : List Byte := beBytes 4 7 ++ beBytes 4 3 ++ (List.range 48).map Config.identityKey

/-- An LMS signature as RFC 8554 lays it out: the leaf number, then the LM-OTS signature of type LMOTS_SHA256_N32_W4, 2,180
bytes, then the LMS typecode and the path, one hash of 32 bytes a level. What the signing key makes is free (log 13). -/
def lmsImage (leaf : List Byte) (typecode height : Nat) (made : Nat → Byte) : List Byte :=
  leaf ++ beBytes 4 3 ++ (List.range 2176).map made ++ beBytes 4 typecode ++
  (List.range (32 * height)).map fun i => made (2176 + i)

/-- The certificate: its body and its signature, with LMS_SHA256_M32_H20 (log 13). -/
def certificate : List Byte :=
  leBytes 2 1 ++ leBytes 2 0x5708 ++ [Config.stepping] ++ .replicate 11 0 ++ (List.range 16).map (fun i => Config.identityKey (48 + i)) ++
  publicKey ++ .replicate 40 0 ++
  lmsImage ((List.range 4).map fun i => Config.identityKey (64 + i)) 8 20 fun i => Config.identityKey (68 + i)

/-- The report (R79). -/
def State.report (s : State) (nonce : List Byte) : List Byte :=
  nonce ++ (List.range 32).map Config.romDigest ++ leBytes 4 s.tahr.patches.length ++ leBytes 4 s.mapWord ++ leBytes 2 0x5708 ++
  [Config.stepping] ++ .replicate 5 0 ++ s.tahr.patches.flatMap fun p => (List.range 32).map (Config.patchDigest p.2)

/-- Up to the next 64-byte boundary. -/
def line64 (n : Nat) : Nat := (n + 63) / 64 * 64

/-- The whole ATTEST buffer; the leaves are used in the order of their numbers (log 13). -/
def State.attestation (s : State) (nonce : List Byte) : List Byte :=
  let rep := s.report nonce
  let sig := line64 (3136 + rep.length)
  let total := sig + 2668
  let leaf := 32768 - s.tahr.leaves
  leBytes 8 (1 + total * 2 ^ 32) ++ leBytes 8 (64 + 56 * 2 ^ 32) ++ leBytes 8 (128 + 2956 * 2 ^ 32) ++
  leBytes 8 (3136 + rep.length * 2 ^ 32) ++ leBytes 8 (sig + 2668 * 2 ^ 32) ++ leBytes 8 (s.tahr.leaves - 1) ++ .replicate 16 0 ++
  padTo 64 publicKey ++ padTo 3008 certificate ++ padTo (sig - 3136) rep ++
  lmsImage (beBytes 4 leaf) 7 15 (Config.lmsSign rep leaf)

/-- ATTEST (R78, R79): a buffer too small, or no leaf left, writes nothing. -/
def execAttest (s : State) : Out :=
  .next (s.command 8 fun t bs =>
    t.operands (!ptrOk (dwAt bs 8) [0] 1 || !ptrOk (dwAt bs 0x10) [0] 1 || unlisted bs 0x20) (
      t.buffer false (pAddr (dwAt bs 8)) 32 fun t =>
        match t.fwRead 0 (pAddr (dwAt bs 8)) 32 with
        | (u, .bytes nonce) =>
          let out := u.attestation nonce
          if u.tahr.leaves = 0 ∨ (dwAt bs 0x18).toNat < out.length then u.finishCommand .resources 0
          else u.buffer true (pAddr (dwAt bs 0x10)) out.length fun v =>
            ((v.fwWrite 0 (pAddr (dwAt bs 0x10)) out).modTahr fun x => { x with leaves := x.leaves - 1 }).finishCommand .ok out.length
        | (u, .error _) => u.finishCommand .dataError 0
        | (u, _) => u))

/-! ## PATCH (R80) -/

/-- PATCH (R80). -/
def execPatch (s : State) : Out :=
  .next (s.command 9 fun t bs =>
    t.operands (!ptrOk (dwAt bs 8) [0] 1 || unlisted bs 0x18) (
      if t.tahr.queues.any Queue.needsSlot then t.finishCommand .queueBusy 0
      else t.buffer false (pAddr (dwAt bs 8)) (dwAt bs 0x10).toNat fun t =>
        match t.fwRead 0 (pAddr (dwAt bs 8)) (dwAt bs 0x10).toNat with
        | (u, .bytes img) =>
          let n := Config.patchSeq img
          if !Config.patchGood img || (u.tahr.patches.any fun p => decide (n < p.1)) then u.finishCommand .signatureBad 0
          else (u.modTahr fun x => { x with patches := x.patches ++ [(n, img)], patched := true }).finishCommand .ok n
        | (u, .error _) => u.finishCommand .dataError 0
        | (u, _) => u))

/-! ## DSP (R81, R234) -/

/-- DSP (R81): the change begins once no other is in progress on the die. -/
def execDsp (s : State) : Out :=
  .next (s.command 10 fun t bs =>
    let die := Word.fieldAt (dwAt bs 8) 2 0
    let ways := Word.fieldAt (dwAt bs 8) 6 3
    t.operands (Word.fieldAt (dwAt bs 8) 63 7 != 0 || decide (8 < ways) || unlisted bs 0x10) (
      match t.dies[die]? with
      | none => t.finishCommand .invalidField 0
      | some d =>
        if d.change.isSome then t
        else if d.ways = ways then (t.modDie die fun x => { x with waysSet := ways }).finishCommand .ok ways
        else (t.startDsp die ways none).modTahr fun x => { x with mgmt := some (.dsp die) }))

/-- DSP_CHANGE_COMPLETE (R81, R234): the change ends, and the command that began it. -/
def execDspChangeComplete (die : Nat) (s : State) : Out :=
  match s.dies[die]? with
  | none => .fault .noSuchUnit
  | some d =>
    .next (match d.change with
      | none => s
      | some w =>
        let t := s.finishDsp die
        if s.tahr.mgmt = some (.dsp die) ∧ w.asker = none then t.finishCommand .ok w.target else t)

end Sys2Proof.Machine
end

