-- ==== Sys2Proof/Machine/Reset.lean ====
section
/-! DEFINITION. Power, the three resets and bring-up (spec/00_scope.md R8, R20; spec/16_retirement_and_health.md R447, R448). -/

namespace Sys2Proof.Machine

/-- Everything is cleared (R447): device memory, the areas that firmware keeps in it among it (log 26), scratchpads and LLC are
undefined. What belongs to the host, to the abutting parts and to one-time storage stays: host memory, traffic and messages sent,
signature leaves (log 12, log 13, log 16). -/
def State.cleared (s : State) : State :=
  { State.reset with
    mem := (s.mem.forget 0 (2 ^ 60) s.fv).forget (2 ^ 61) (2 ^ 128) s.fv
    fv := s.fv + 1
    sent := s.sent
    agenda := s.agenda
    cur := s.cur
    tahr := { Tahr.idle with msix := s.tahr.msix, leaves := s.tahr.leaves } }

/-- POWER_ON_RESET (R447). -/
def execPowerOnReset (s : State) : Out := .next s.cleared

/-- FUNDAMENTAL_RESET (R447): as power-on. -/
def execFundamentalReset (s : State) : Out := .next (if s.powered then s.cleared else s)

/-- MAIN_POWER_LOSS (R20): nothing is kept, and nothing acts until power is applied. -/
def execMainPowerLoss (s : State) : Out := .next { s.cleared with powered := false }

/-- A herd after a function-level reset: no work, and its retirements as they were. -/
def Herd.discard (x : Herd) : Herd :=
  { x with act := .idle, old := none, evict := none, spill := none, tlb := [] }

/-- A die after a function-level reset: xtherm takes its reset value, as after every reset (R6, R441). -/
def Die.discard (d : Die) : Die :=
  { d with
    change := none, stops := [], budgets := Die.idle.budgets, tlb := [], walks := [], served := Die.idle.served, nextPick := 0
    openRows := [] }

/-- FUNCTION_LEVEL_RESET (R447): the work is discarded as by QRESET, dirty lines are written back, and the Tahr starts again. DRAM,
counters, retirements and the log stay; errlog is a register of BAR0 and counts anew (R50). -/
def State.functionReset (s : State) : State :=
  let t := s.tahr.launches.foldl State.discardLaunch s
  let u : State := { t with
    mem := t.mem.clear (2 ^ 41) (2 ^ 42)
    dirty := []
    marks := t.marks.filter fun e => !isDsp (e.row * 16)
    herds := t.herds.map Herd.discard
    dies := t.dies.map Die.discard
    roots := []
    pages := []
    rects := []
    collSaves := []
    logged := 0
    tahr := { Tahr.idle with
      msix := t.tahr.msix, leaves := t.tahr.leaves, allow := t.tahr.allow, warm := true } }
  (List.range u.herds.length).foldl State.redirect u

/-- FUNCTION_LEVEL_RESET (R447). -/
def execFunctionLevelReset (s : State) : Out := .next (if s.powered then s.functionReset else s)

/-- The die map with the die rows exchanged (R8). -/
def rowsExchanged : List Nat := [4, 5, 6, 7, 0, 1, 2, 3]

/-- The end of bring-up (R448): after a function-level reset the die map stays as it is. -/
def State.broughtUp (s : State) (exchanged : Bool) : State :=
  { s with
    dieMap := if s.tahr.warm then s.dieMap else if exchanged then rowsExchanged else State.reset.dieMap
    dies := s.dies.map fun d => { d with ways := 0, waysSet := 0 }
    tahr := { s.tahr with ready := true } }

/-- BRING_UP_COMPLETE (R448): ready, or fatal (R50). -/
def execBringUpComplete (result : BringUp) (s : State) : Out :=
  .next (if !s.powered || s.tahr.ready || s.tahr.fatal then s
    else match result with
      | .ready x => s.broughtUp x
      | .fatal => s.modTahr fun t => { t with fatal := true })

end Sys2Proof.Machine
end

