-- ==== Sys2Proof/Machine/Dispatch.lean ====
section
/-! DEFINITION. One arm for each constructor of Instr. -/

namespace Sys2Proof.Machine

/-- The meaning of an instruction, or of a step of the part. -/
def exec (i : Instr) (s : State) : Host.Outcome State Fault Refusal :=
  match i with
  | .add rd rs1 rs2 => Sys2Proof.Machine.execAdd rd rs1 rs2 s
  | .sub rd rs1 rs2 => Sys2Proof.Machine.execSub rd rs1 rs2 s
  | .and rd rs1 rs2 => Sys2Proof.Machine.execAnd rd rs1 rs2 s
  | .or rd rs1 rs2 => Sys2Proof.Machine.execOr rd rs1 rs2 s
  | .xor rd rs1 rs2 => Sys2Proof.Machine.execXor rd rs1 rs2 s
  | .andn rd rs1 rs2 => Sys2Proof.Machine.execAndn rd rs1 rs2 s
  | .sll rd rs1 rs2 => Sys2Proof.Machine.execSll rd rs1 rs2 s
  | .srl rd rs1 rs2 => Sys2Proof.Machine.execSrl rd rs1 rs2 s
  | .sra rd rs1 rs2 => Sys2Proof.Machine.execSra rd rs1 rs2 s
  | .rol rd rs1 rs2 => Sys2Proof.Machine.execRol rd rs1 rs2 s
  | .ror rd rs1 rs2 => Sys2Proof.Machine.execRor rd rs1 rs2 s
  | .slt rd rs1 rs2 => Sys2Proof.Machine.execSlt rd rs1 rs2 s
  | .sltu rd rs1 rs2 => Sys2Proof.Machine.execSltu rd rs1 rs2 s
  | .seq rd rs1 rs2 => Sys2Proof.Machine.execSeq rd rs1 rs2 s
  | .sne rd rs1 rs2 => Sys2Proof.Machine.execSne rd rs1 rs2 s
  | .min rd rs1 rs2 => Sys2Proof.Machine.execMin rd rs1 rs2 s
  | .max rd rs1 rs2 => Sys2Proof.Machine.execMax rd rs1 rs2 s
  | .minu rd rs1 rs2 => Sys2Proof.Machine.execMinu rd rs1 rs2 s
  | .maxu rd rs1 rs2 => Sys2Proof.Machine.execMaxu rd rs1 rs2 s
  | .clz rd rs1 => Sys2Proof.Machine.execClz rd rs1 s
  | .ctz rd rs1 => Sys2Proof.Machine.execCtz rd rs1 s
  | .popc rd rs1 => Sys2Proof.Machine.execPopc rd rs1 s
  | .sextB rd rs1 => Sys2Proof.Machine.execSextB rd rs1 s
  | .sextH rd rs1 => Sys2Proof.Machine.execSextH rd rs1 s
  | .sextW rd rs1 => Sys2Proof.Machine.execSextW rd rs1 s
  | .zextB rd rs1 => Sys2Proof.Machine.execZextB rd rs1 s
  | .zextH rd rs1 => Sys2Proof.Machine.execZextH rd rs1 s
  | .zextW rd rs1 => Sys2Proof.Machine.execZextW rd rs1 s
  | .mul rd rs1 rs2 => Sys2Proof.Machine.execMul rd rs1 rs2 s
  | .mulh rd rs1 rs2 => Sys2Proof.Machine.execMulh rd rs1 rs2 s
  | .mulhu rd rs1 rs2 => Sys2Proof.Machine.execMulhu rd rs1 rs2 s
  | .mulhsu rd rs1 rs2 => Sys2Proof.Machine.execMulhsu rd rs1 rs2 s
  | .div rd rs1 rs2 => Sys2Proof.Machine.execDiv rd rs1 rs2 s
  | .divu rd rs1 rs2 => Sys2Proof.Machine.execDivu rd rs1 rs2 s
  | .rem rd rs1 rs2 => Sys2Proof.Machine.execRem rd rs1 rs2 s
  | .remu rd rs1 rs2 => Sys2Proof.Machine.execRemu rd rs1 rs2 s
  | .cvtF64S64 rd rs1 rnd => Sys2Proof.Machine.execCvtF64S64 rd rs1 rnd s
  | .cvtF32S64 rd rs1 rnd => Sys2Proof.Machine.execCvtF32S64 rd rs1 rnd s
  | .cvtS64F64 rd rs1 rnd => Sys2Proof.Machine.execCvtS64F64 rd rs1 rnd s
  | .cvtS64F32 rd rs1 rnd => Sys2Proof.Machine.execCvtS64F32 rd rs1 rnd s
  | .cvtF64F32 rd rs1 => Sys2Proof.Machine.execCvtF64F32 rd rs1 s
  | .cvtF32F64 rd rs1 rnd => Sys2Proof.Machine.execCvtF32F64 rd rs1 rnd s
  | .cvtF32F16 rd rs1 => Sys2Proof.Machine.execCvtF32F16 rd rs1 s
  | .cvtF16F32 rd rs1 rnd => Sys2Proof.Machine.execCvtF16F32 rd rs1 rnd s
  | .cvtF32Bf16 rd rs1 => Sys2Proof.Machine.execCvtF32Bf16 rd rs1 s
  | .cvtBf16F32 rd rs1 rnd => Sys2Proof.Machine.execCvtBf16F32 rd rs1 rnd s
  | .ptag rd rs1 rs2 => Sys2Proof.Machine.execPtag rd rs1 rs2 s
  | .pspace rd rs1 => Sys2Proof.Machine.execPspace rd rs1 s
  | .prank rd rs1 => Sys2Proof.Machine.execPrank rd rs1 s
  | .padd rd rs1 rs2 => Sys2Proof.Machine.execPadd rd rs1 rs2 s
  | .psub rd rs1 rs2 => Sys2Proof.Machine.execPsub rd rs1 rs2 s
  | .paddr rd rs1 => Sys2Proof.Machine.execPaddr rd rs1 s
  | .jr rs1 => Sys2Proof.Machine.execJr rs1 s
  | .callr rd rs1 => Sys2Proof.Machine.execCallr rd rs1 s
  | .addi rd rs1 imm => Sys2Proof.Machine.execAddi rd rs1 imm s
  | .andi rd rs1 imm => Sys2Proof.Machine.execAndi rd rs1 imm s
  | .ori rd rs1 imm => Sys2Proof.Machine.execOri rd rs1 imm s
  | .xori rd rs1 imm => Sys2Proof.Machine.execXori rd rs1 imm s
  | .slli rd rs1 sh => Sys2Proof.Machine.execSlli rd rs1 sh s
  | .srli rd rs1 sh => Sys2Proof.Machine.execSrli rd rs1 sh s
  | .srai rd rs1 sh => Sys2Proof.Machine.execSrai rd rs1 sh s
  | .slti rd rs1 imm => Sys2Proof.Machine.execSlti rd rs1 imm s
  | .sltiu rd rs1 imm => Sys2Proof.Machine.execSltiu rd rs1 imm s
  | .lui rd imm => Sys2Proof.Machine.execLui rd imm s
  | .auipc rd imm => Sys2Proof.Machine.execAuipc rd imm s
  | .lset n rs1 imm => Sys2Proof.Machine.execLset n rs1 imm s
  | .gsetOpen n => Sys2Proof.Machine.execGsetOpen n s
  | .gsetNe n rs1 => Sys2Proof.Machine.execGsetNe n rs1 s
  | .gsetEq n rs1 => Sys2Proof.Machine.execGsetEq n rs1 s
  | .beq rs1 rs2 disp => Sys2Proof.Machine.execBeq rs1 rs2 disp s
  | .bne rs1 rs2 disp => Sys2Proof.Machine.execBne rs1 rs2 disp s
  | .blt rs1 rs2 disp => Sys2Proof.Machine.execBlt rs1 rs2 disp s
  | .bge rs1 rs2 disp => Sys2Proof.Machine.execBge rs1 rs2 disp s
  | .bltu rs1 rs2 disp => Sys2Proof.Machine.execBltu rs1 rs2 disp s
  | .bgeu rs1 rs2 disp => Sys2Proof.Machine.execBgeu rs1 rs2 disp s
  | .j disp => Sys2Proof.Machine.execJ disp s
  | .call disp => Sys2Proof.Machine.execCall disp s
  | .ldB rd b off => Sys2Proof.Machine.execLdB rd b off s
  | .ldBu rd b off => Sys2Proof.Machine.execLdBu rd b off s
  | .ldH rd b off => Sys2Proof.Machine.execLdH rd b off s
  | .ldHu rd b off => Sys2Proof.Machine.execLdHu rd b off s
  | .ldW rd b off => Sys2Proof.Machine.execLdW rd b off s
  | .ldWu rd b off => Sys2Proof.Machine.execLdWu rd b off s
  | .ldD rd b off => Sys2Proof.Machine.execLdD rd b off s
  | .ldNr rd b off => Sys2Proof.Machine.execLdNr rd b off s
  | .stB rd b off => Sys2Proof.Machine.execStB rd b off s
  | .stH rd b off => Sys2Proof.Machine.execStH rd b off s
  | .stW rd b off => Sys2Proof.Machine.execStW rd b off s
  | .stD rd b off => Sys2Proof.Machine.execStD rd b off s
  | .ldb n b off => Sys2Proof.Machine.execLdb n b off s
  | .stb n b off => Sys2Proof.Machine.execStb n b off s
  | .ldq n b off => Sys2Proof.Machine.execLdq n b off s
  | .stq n b off => Sys2Proof.Machine.execStq n b off s
  | .amoaddW rd b off => Sys2Proof.Machine.execAmoaddW rd b off s
  | .amoandW rd b off => Sys2Proof.Machine.execAmoandW rd b off s
  | .amoorW rd b off => Sys2Proof.Machine.execAmoorW rd b off s
  | .amoxorW rd b off => Sys2Proof.Machine.execAmoxorW rd b off s
  | .amominW rd b off => Sys2Proof.Machine.execAmominW rd b off s
  | .amomaxW rd b off => Sys2Proof.Machine.execAmomaxW rd b off s
  | .amominuW rd b off => Sys2Proof.Machine.execAmominuW rd b off s
  | .amomaxuW rd b off => Sys2Proof.Machine.execAmomaxuW rd b off s
  | .amoswapW rd b off => Sys2Proof.Machine.execAmoswapW rd b off s
  | .amocasW pair b off => Sys2Proof.Machine.execAmocasW pair b off s
  | .amofaddF32 rd b off => Sys2Proof.Machine.execAmofaddF32 rd b off s
  | .amoaddD rd b off => Sys2Proof.Machine.execAmoaddD rd b off s
  | .amoandD rd b off => Sys2Proof.Machine.execAmoandD rd b off s
  | .amoorD rd b off => Sys2Proof.Machine.execAmoorD rd b off s
  | .amoxorD rd b off => Sys2Proof.Machine.execAmoxorD rd b off s
  | .amominD rd b off => Sys2Proof.Machine.execAmominD rd b off s
  | .amomaxD rd b off => Sys2Proof.Machine.execAmomaxD rd b off s
  | .amominuD rd b off => Sys2Proof.Machine.execAmominuD rd b off s
  | .amomaxuD rd b off => Sys2Proof.Machine.execAmomaxuD rd b off s
  | .amoswapD rd b off => Sys2Proof.Machine.execAmoswapD rd b off s
  | .amocasD pair b off => Sys2Proof.Machine.execAmocasD pair b off s
  | .fenceC mask scope => Sys2Proof.Machine.execFenceC mask scope s
  | .spinw rd b rs2 => Sys2Proof.Machine.execSpinw rd b rs2 s
  | .barr rd b rs2 => Sys2Proof.Machine.execBarr rd b rs2 s
  | .bwait rd b rs2 => Sys2Proof.Machine.execBwait rd b rs2 s
  | .pbarr rd b rs2 => Sys2Proof.Machine.execPbarr rd b rs2 s
  | .pbwait rd b rs2 => Sys2Proof.Machine.execPbwait rd b rs2 s
  | .ksig k count => Sys2Proof.Machine.execKsig k count s
  | .kwait k count => Sys2Proof.Machine.execKwait k count s
  | .pcancel rd rs1 => Sys2Proof.Machine.execPcancel rd rs1 s
  | .pgdec b rs2 => Sys2Proof.Machine.execPgdec b rs2 s
  | .xr rd x => Sys2Proof.Machine.execXr rd x s
  | .xw rs x => Sys2Proof.Machine.execXw rs x s
  | .xset rs x => Sys2Proof.Machine.execXset rs x s
  | .xclr rs x => Sys2Proof.Machine.execXclr rs x s
  | .trap code => Sys2Proof.Machine.execTrap code s
  | .xret => Sys2Proof.Machine.execXret s
  | .halt => Sys2Proof.Machine.execHalt s
  | .ebreak => Sys2Proof.Machine.execEbreak s
  | .herdid rd => Sys2Proof.Machine.execHerdid rd s
  | .join => Sys2Proof.Machine.execJoin s
  | .detach => Sys2Proof.Machine.execDetach s
  | .qstat rd eng => Sys2Proof.Machine.execQstat rd eng s
  | .iflush => Sys2Proof.Machine.execIflush s
  | .tlbinv rs1 => Sys2Proof.Machine.execTlbinv rs1 s
  | .tlbinvall rs1 => Sys2Proof.Machine.execTlbinvall rs1 s
  | .wait => Sys2Proof.Machine.execWait s
  | .triggerN => Sys2Proof.Machine.execTriggerN s
  | .triggerG => Sys2Proof.Machine.execTriggerG s
  | .vadd h d a b => Sys2Proof.Machine.execVadd h d a b s
  | .vsub h d a b => Sys2Proof.Machine.execVsub h d a b s
  | .vmul h d a b => Sys2Proof.Machine.execVmul h d a b s
  | .vmulh h d a b => Sys2Proof.Machine.execVmulh h d a b s
  | .vmin h d a b => Sys2Proof.Machine.execVmin h d a b s
  | .vmax h d a b => Sys2Proof.Machine.execVmax h d a b s
  | .vabs h d a => Sys2Proof.Machine.execVabs h d a s
  | .vneg h d a => Sys2Proof.Machine.execVneg h d a s
  | .vmac h d a b => Sys2Proof.Machine.execVmac h d a b s
  | .vdot4 h d a b => Sys2Proof.Machine.execVdot4 h d a b s
  | .vfma h d a b => Sys2Proof.Machine.execVfma h d a b s
  | .vfms h d a b => Sys2Proof.Machine.execVfms h d a b s
  | .vfnma h d a b => Sys2Proof.Machine.execVfnma h d a b s
  | .vdiv h d a b => Sys2Proof.Machine.execVdiv h d a b s
  | .vsqrt h d a => Sys2Proof.Machine.execVsqrt h d a s
  | .vrsqrt h d a => Sys2Proof.Machine.execVrsqrt h d a s
  | .vrcp h d a => Sys2Proof.Machine.execVrcp h d a s
  | .vexp2 h d a => Sys2Proof.Machine.execVexp2 h d a s
  | .vlog2 h d a => Sys2Proof.Machine.execVlog2 h d a s
  | .vtanh h d a => Sys2Proof.Machine.execVtanh h d a s
  | .vsigm h d a => Sys2Proof.Machine.execVsigm h d a s
  | .vscale h d a b => Sys2Proof.Machine.execVscale h d a b s
  | .vand h d a b => Sys2Proof.Machine.execVand h d a b s
  | .vor h d a b => Sys2Proof.Machine.execVor h d a b s
  | .vxor h d a b => Sys2Proof.Machine.execVxor h d a b s
  | .vandn h d a b => Sys2Proof.Machine.execVandn h d a b s
  | .vsll h d a b => Sys2Proof.Machine.execVsll h d a b s
  | .vsrl h d a b => Sys2Proof.Machine.execVsrl h d a b s
  | .vsra h d a b => Sys2Proof.Machine.execVsra h d a b s
  | .vclz h d a => Sys2Proof.Machine.execVclz h d a s
  | .vpopc h d a => Sys2Proof.Machine.execVpopc h d a s
  | .vmov h d a => Sys2Proof.Machine.execVmov h d a s
  | .vsel h d a b => Sys2Proof.Machine.execVsel h d a b s
  | .vcmp h cc d a b => Sys2Proof.Machine.execVcmp h cc d a b s
  | .pand h pd pa pb => Sys2Proof.Machine.execPand h pd pa pb s
  | .por h pd pa pb => Sys2Proof.Machine.execPor h pd pa pb s
  | .pxor h pd pa pb => Sys2Proof.Machine.execPxor h pd pa pb s
  | .pnot h pd pa => Sys2Proof.Machine.execPnot h pd pa s
  | .pset h pd a => Sys2Proof.Machine.execPset h pd a s
  | .pget h vd pa => Sys2Proof.Machine.execPget h vd pa s
  | .pcnt h vd pa => Sys2Proof.Machine.execPcnt h vd pa s
  | .pfirst h pd pa => Sys2Proof.Machine.execPfirst h pd pa s
  | .vcvt h src d a => Sys2Proof.Machine.execVcvt h src d a s
  | .vcvtsc h src d a b => Sys2Proof.Machine.execVcvtsc h src d a b s
  | .vpack h src d a part => Sys2Proof.Machine.execVpack h src d a part s
  | .vunpack h src d a part => Sys2Proof.Machine.execVunpack h src d a part s
  | .vround h d a => Sys2Proof.Machine.execVround h d a s
  | .vql4 h d a b => Sys2Proof.Machine.execVql4 h d a b s
  | .vrsum h d a => Sys2Proof.Machine.execVrsum h d a s
  | .vrmax h d a => Sys2Proof.Machine.execVrmax h d a s
  | .vrmin h d a => Sys2Proof.Machine.execVrmin h d a s
  | .vrdot h d a b => Sys2Proof.Machine.execVrdot h d a b s
  | .vscan h d a => Sys2Proof.Machine.execVscan h d a s
  | .vargmax h d a => Sys2Proof.Machine.execVargmax h d a s
  | .vperm h d a b => Sys2Proof.Machine.execVperm h d a b s
  | .vrot h d a b => Sys2Proof.Machine.execVrot h d a b s
  | .vshfl h d a b => Sys2Proof.Machine.execVshfl h d a b s
  | .vbcast h d a b => Sys2Proof.Machine.execVbcast h d a b s
  | .vzip h d a b => Sys2Proof.Machine.execVzip h d a b s
  | .vunzip h d a b => Sys2Proof.Machine.execVunzip h d a b s
  | .vtrn h d a b => Sys2Proof.Machine.execVtrn h d a b s
  | .vcompress h d a => Sys2Proof.Machine.execVcompress h d a s
  | .vexpand h d a => Sys2Proof.Machine.execVexpand h d a s
  | .vld h d a => Sys2Proof.Machine.execVld h d a s
  | .vst h d a => Sys2Proof.Machine.execVst h d a s
  | .vgath h d a b => Sys2Proof.Machine.execVgath h d a b s
  | .vscat h d a b => Sys2Proof.Machine.execVscat h d a b s
  | .vdq h vd n => Sys2Proof.Machine.execVdq h vd n s
  | .vaq h m vi n => Sys2Proof.Machine.execVaq h m vi n s
  | .vloop h lenM1 depth ts => Sys2Proof.Machine.execVloop h lenM1 depth ts s
  | .vcpush h a n => Sys2Proof.Machine.execVcpush h a n s
  | .vcpop h vd n => Sys2Proof.Machine.execVcpop h vd n s
  | .vcflush h n => Sys2Proof.Machine.execVcflush h n s
  | .pcopy h p => Sys2Proof.Machine.execPcopy h p s
  | .pgath h p => Sys2Proof.Machine.execPgath h p s
  | .pscat h p => Sys2Proof.Machine.execPscat h p s
  | .pfill h p => Sys2Proof.Machine.execPfill h p s
  | .pring h p => Sys2Proof.Machine.execPring h p s
  | .ppage h sb db tok hreg => Sys2Proof.Machine.execPpage h sb db tok hreg s
  | .mmul h acc qa qb init => Sys2Proof.Machine.execMmul h acc qa qb init s
  | .msl h acc qa qb init slm1 => Sys2Proof.Machine.execMsl h acc qa qb init slm1 s
  | .mkat h acc qa qb init crc => Sys2Proof.Machine.execMkat h acc qa qb init crc s
  | .mst h acc ob kind sat ooff => Sys2Proof.Machine.execMst h acc ob kind sat ooff s
  | .mld h acc ob ooff => Sys2Proof.Machine.execMld h acc ob ooff s
  | .mzero h acc => Sys2Proof.Machine.execMzero h acc s
  | .mrel h => Sys2Proof.Machine.execMrel h s
  | .wload h r latch off sn => Sys2Proof.Machine.execWload h r latch off sn s
  | .wswap h r latch => Sys2Proof.Machine.execWswap h r latch s
  | .wfeed h r src slot countM1 part => Sys2Proof.Machine.execWfeed h r src slot countM1 part s
  | .wdrain h rows q slot countM1 kind sat => Sys2Proof.Machine.execWdrain h rows q slot countM1 kind sat s
  | .wmode h rows fmt tr => Sys2Proof.Machine.execWmode h rows fmt tr s
  | .wpipe h rows fn sp dqb mlb rdb => Sys2Proof.Machine.execWpipe h rows fn sp dqb mlb rdb s
  | .wchk h r slot sb => Sys2Proof.Machine.execWchk h r slot sb s
  | .cred h db sb ty count op scope group => Sys2Proof.Machine.execCred h db sb ty count op scope group s
  | .cbcast h db sb ty count scope group => Sys2Proof.Machine.execCbcast h db sb ty count scope group s
  | .cgath h db sb ty count scope group => Sys2Proof.Machine.execCgath h db sb ty count scope group s
  | .cscat h db sb ty count scope group => Sys2Proof.Machine.execCscat h db sb ty count scope group s
  | .csync h scope group => Sys2Proof.Machine.execCsync h scope group s
  | .qtailWrite qid value => Sys2Proof.Machine.execQtailWrite qid value s
  | .mqtailWrite value => Sys2Proof.Machine.execMqtailWrite value s
  | .registerWrite off size value => Sys2Proof.Machine.execRegisterWrite off size value s
  | .bar2Access access => Sys2Proof.Machine.execBar2Access access s
  | .atsInvalidation pasid va len => Sys2Proof.Machine.execAtsInvalidation pasid va len s
  | .pageRequestResponse pasid va grant => Sys2Proof.Machine.execPageRequestResponse pasid va grant s
  | .launchPacket qid => Sys2Proof.Machine.execLaunchPacket qid s
  | .copyPacket qid => Sys2Proof.Machine.execCopyPacket qid s
  | .waitPacket qid => Sys2Proof.Machine.execWaitPacket qid s
  | .signalPacket qid => Sys2Proof.Machine.execSignalPacket qid s
  | .modePacket qid => Sys2Proof.Machine.execModePacket qid s
  | .fencePacket qid => Sys2Proof.Machine.execFencePacket qid s
  | .waitSatisfied qid => Sys2Proof.Machine.execWaitSatisfied qid s
  | .fencePacketComplete qid => Sys2Proof.Machine.execFencePacketComplete qid s
  | .poolRoomAdmit qid => Sys2Proof.Machine.execPoolRoomAdmit qid s
  | .mapq => Sys2Proof.Machine.execMapq s
  | .unmapq => Sys2Proof.Machine.execUnmapq s
  | .qreset => Sys2Proof.Machine.execQreset s
  | .pasidBind => Sys2Proof.Machine.execPasidBind s
  | .pasidRetire => Sys2Proof.Machine.execPasidRetire s
  | .preempt => Sys2Proof.Machine.execPreempt s
  | .resync => Sys2Proof.Machine.execResync s
  | .attest => Sys2Proof.Machine.execAttest s
  | .patch => Sys2Proof.Machine.execPatch s
  | .dsp => Sys2Proof.Machine.execDsp s
  | .slotGrant => Sys2Proof.Machine.execSlotGrant s
  | .slotIdleRelease slot => Sys2Proof.Machine.execSlotIdleRelease slot s
  | .forcedUnmapping => Sys2Proof.Machine.execForcedUnmapping s
  | .queueContextSaved slot => Sys2Proof.Machine.execQueueContextSaved slot s
  | .nodeDispatch die => Sys2Proof.Machine.execNodeDispatch die s
  | .reservingClaim => Sys2Proof.Machine.execReservingClaim s
  | .levelAging lseq node => Sys2Proof.Machine.execLevelAging lseq node s
  | .nodeTriggerFire lseq node => Sys2Proof.Machine.execNodeTriggerFire lseq node s
  | .graphTriggerFire lseq => Sys2Proof.Machine.execGraphTriggerFire lseq s
  | .nodeRetirement lseq node => Sys2Proof.Machine.execNodeRetirement lseq node s
  | .copyNodeRetirement lseq node => Sys2Proof.Machine.execCopyNodeRetirement lseq node s
  | .graphRetirement lseq => Sys2Proof.Machine.execGraphRetirement lseq s
  | .nodeRotation lseq node => Sys2Proof.Machine.execNodeRotation lseq node s
  | .branchResolution herd => Sys2Proof.Machine.execBranchResolution herd s
  | .vloopBodyIssue herd core => Sys2Proof.Machine.execVloopBodyIssue herd core s
  | .scalarResultLanding herd core reg => Sys2Proof.Machine.execScalarResultLanding herd core reg s
  | .vectorResultLanding herd core => Sys2Proof.Machine.execVectorResultLanding herd core s
  | .storePerform herd core idx => Sys2Proof.Machine.execStorePerform herd core idx s
  | .accessQueueEntryPerform herd core n => Sys2Proof.Machine.execAccessQueueEntryPerform herd core n s
  | .parityUpdate herd core group row => Sys2Proof.Machine.execParityUpdate herd core group row s
  | .bankRebuild herd core bank => Sys2Proof.Machine.execBankRebuild herd core bank s
  | .tlbMissWalk die pasid va => Sys2Proof.Machine.execTlbMissWalk die pasid va s
  | .xdspWrite herd core => Sys2Proof.Machine.execXdspWrite herd core s
  | .dspChangeComplete die => Sys2Proof.Machine.execDspChangeComplete die s
  | .freePagePop herd core => Sys2Proof.Machine.execFreePagePop herd core s
  | .freePagePush herd core => Sys2Proof.Machine.execFreePagePush herd core s
  | .zeroFill herd core => Sys2Proof.Machine.execZeroFill herd core s
  | .reportPost herd core => Sys2Proof.Machine.execReportPost herd core s
  | .reportPostEnd herd core => Sys2Proof.Machine.execReportPostEnd herd core s
  | .semaphoreGrant herd k => Sys2Proof.Machine.execSemaphoreGrant herd k s
  | .engineEntryStart herd core eng => Sys2Proof.Machine.execEngineEntryStart herd core eng s
  | .engineEntryCompletion herd core eng => Sys2Proof.Machine.execEngineEntryCompletion herd core eng s
  | .leaseGrant herd => Sys2Proof.Machine.execLeaseGrant herd s
  | .leaseEnd herd => Sys2Proof.Machine.execLeaseEnd herd s
  | .collectiveStart herd core => Sys2Proof.Machine.execCollectiveStart herd core s
  | .pumpCancelAck herd core => Sys2Proof.Machine.execPumpCancelAck herd core s
  | .fillRowActivation die well latch => Sys2Proof.Machine.execFillRowActivation die well latch s
  | .fillComplete die well latch => Sys2Proof.Machine.execFillComplete die well latch s
  | .bankRefresh die well bank => Sys2Proof.Machine.execBankRefresh die well bank s
  | .cisternArrival herd => Sys2Proof.Machine.execCisternArrival herd s
  | .barrierWaiterWake herd core => Sys2Proof.Machine.execBarrierWaiterWake herd core s
  | .shortBarrierWake herd core => Sys2Proof.Machine.execShortBarrierWake herd core s
  | .spinwWake herd core => Sys2Proof.Machine.execSpinwWake herd core s
  | .hostBarrierPoll qid => Sys2Proof.Machine.execHostBarrierPoll qid s
  | .trapEntry herd core => Sys2Proof.Machine.execTrapEntry herd core s
  | .registerMiss herd core reg => Sys2Proof.Machine.execRegisterMiss herd core reg s
  | .noticePost herd core code => Sys2Proof.Machine.execNoticePost herd core code s
  | .contextSwap herd core => Sys2Proof.Machine.execContextSwap herd core s
  | .herdQuiescence herd => Sys2Proof.Machine.execHerdQuiescence herd s
  | .contextSpillComplete herd => Sys2Proof.Machine.execContextSpillComplete herd s
  | .contextRestore herd => Sys2Proof.Machine.execContextRestore herd s
  | .unitRetirement unit => Sys2Proof.Machine.execUnitRetirement unit s
  | .sensorSample sample => Sys2Proof.Machine.execSensorSample sample s
  | .xthermUpdate die => Sys2Proof.Machine.execXthermUpdate die s
  | .thermalEmergencyStop die zone => Sys2Proof.Machine.execThermalEmergencyStop die zone s
  | .remoteAccessReceived port op => Sys2Proof.Machine.execRemoteAccessReceived port op s
  | .peerPortDown port => Sys2Proof.Machine.execPeerPortDown port s
  | .powerOnReset => Sys2Proof.Machine.execPowerOnReset s
  | .fundamentalReset => Sys2Proof.Machine.execFundamentalReset s
  | .functionLevelReset => Sys2Proof.Machine.execFunctionLevelReset s
  | .bringUpComplete result => Sys2Proof.Machine.execBringUpComplete result s
  | .mainPowerLoss => Sys2Proof.Machine.execMainPowerLoss s
  | .peerPortUp port => Sys2Proof.Machine.execPeerPortUp port s
  | .tlbInvalidationComplete herd core => Sys2Proof.Machine.execTlbInvalidationComplete herd core s

end Sys2Proof.Machine
end

