-- ==== Sys2Proof/Machine/Issue.lean ====
section
/-! DEFINITION. How a core issues its next word (spec/06_herd_front_end.md R138 to R142; spec/05_formats_and_opcode_map.md R118;
spec/15_interruption.md R395). -/

namespace Sys2Proof.Machine

/-- The word at the pc is delivered and executed; the first to read a token waits for the earlier access-queue loads (R271). -/
def State.runWord (s : State) (h c : Nat) (x : Core) : Out :=
  match s.fetchNext h x with
  | (t, .wait) => .next t
  | (t, .bad k) => t.trap k
  | (t, .word i n) =>
    if strayBody x i then t.trap (.illegal (firstGranule i))
    else match t.deliver h c x i n with
      | (u, true) => match u.readTokens h c i with
        | (v, true) => exec i v
        | (v, false) => .next v
      | (u, false) => .next u

/-- A core comes to its next word: what waits at the boundary is taken first (R395); a core that waits in a word or at a join
does nothing. -/
def State.issueWord (s : State) (h c : Nat) : Out :=
  let t := { s with cur := (h, c) }
  match t.core? h c with
  | none => .fault .noSuchUnit
  | some x =>
    if !t.mayIssue h x then .next t
    else match x.boundary with
      | some (k, q) => .next (t.takeBoundary h c k q)
      | none => if x.block.isSome || x.join.isSome then .next t else t.runWord h c x

end Sys2Proof.Machine
end

