-- ==== Sys2Proof/Machine/Schedule.lean ====
section
/-! DEFINITION. What the part does next (log 5): the choices that are its own, and a round of moves for when no agenda is given.
An agenda is the order and the time in which the moves of the part, of its host and of its surroundings come; a statement about
every state holds for every agenda. -/

namespace Sys2Proof.Machine

/-! ## Choices -/

/-- Whether an error may arise in a unit of memory (R229, R450; log 17). -/
def State.markable (s : State) (row : Nat) (k : ErrKind) : Bool :=
  if isScratch (row * 16) then k != .soft
  else row % 4 == 0 && (isDsp (row * 16) || isDram (row * 16)) &&
    (k != .soft || (isDram (row * 16) && s.dirty.all fun d => d.line != row / 4))

/-- How far an error outranks another: it takes more to end it (R229, R450). -/
def ErrKind.rank : ErrKind → Nat
  | .single => 0 | .soft => 1 | .double => 2

/-- An error arises in a doubleword of a unit of memory; a worse one that lies in the unit already stays (R450). -/
def State.upset (s : State) (row : Nat) (k : ErrKind) (dw : Nat) : State :=
  if s.markable row k && s.marks.all fun e => e.row != row || decide (e.kind.rank < k.rank) then
    { s with marks := ⟨row, k, dw % if isScratch (row * 16) then 2 else 8⟩ :: s.marks.filter fun e => e.row != row }
  else s

/-- An error stops the Tahr: fatal is 1, and firmware does nothing more until a reset (R50; log 75). -/
def Tahr.failed (t : Tahr) : Tahr := { t with ready := false, fatal := true }

/-- The code that a front end holds goes; the loop buffer of a nest under way stays (R148, R211). -/
def HerdCtx.dropCode (x : HerdCtx) : HerdCtx := if x.cores.any Core.inLoop then x else { x with code := [] }

/-- What the part does of itself. -/
def State.choose (s : State) : Choice → State
  | .writeBack line => { s with dirty := s.dirty.filter fun d => d.line != line }
  | .dropHerdTlb h i => s.modHerd h fun x => { x with tlb := x.tlb.eraseIdx i }
  | .dropDieTlb d i => s.modDie d fun x => { x with tlb := x.tlb.eraseIdx i }
  | .dropWalk d i => s.modDie d fun x => { x with walks := x.walks.eraseIdx i }
  | .dropCode h => s.modCtx h HerdCtx.dropCode
  | .upset row k dw => s.upset row k dw
  | .parityUpset h c g r k =>
    if k = .soft ∨ 8 ≤ g ∨ 2048 ≤ r then s
    else s.modHerd h fun x => { x with phys := x.phys.modify c fun p => { p with
      perrs := ((g, r), k) :: p.perrs.filter fun e => e.1 != (g, r) } }
  | .reconMiss row => { s with misses := row :: s.misses }
  | .reconFail h c => s.modCore h c fun x => { x with recon := true }
  | .fetchAhead h c => s.fetchAhead h c
  | .landLater h c i => s.landLater h c i
  | .pumpSegment h c => s.either h c (Core.runs · .pump) fun t => t.stepPump h c
  | .copySegment l n => s.copySegment l n
  | .fieldRead q a => s.readField q a
  | .tahrFails => if s.powered then s.modTahr Tahr.failed else s
  | .hostWrite a bs => s.writeLoc (hostLoc (a % 2 ^ 59)) bs
  | .regRead off size => s.readControl off size
  | .barResize n => s.resizeBar2 n
  | .invalSend => s.sendInval
  | .dieAhead d n => if s.tahr.ready || s.tahr.warm then s else s.modDie d fun x => { x with ahead := max x.ahead n }
  | .fillBeat d w li => s.fillBeat d w li
  | .residue h c again => s.either h c (Core.runs · .matrix) fun t => t.replay h c again
  | .accUpset h g k => if k = .soft then s else s.modCtx h fun x => { x with accErr := (g, k) :: x.accErr.filter fun e => e.1 != g }
  | .cisternUpset l n row slot i k => s.cisternUpset l n row slot i k
  | .wellFault l n row col i d => s.wellFault l n row col i d
  | .peerReset p => s.peerReset p
  | .unitUpset u => match u with
    | .herd _ | .diePump _ _ => if s.hasUnit u then s.bump (.unit u) 1 0 else s
    | _ => s

/-! ## A move -/

/-- What every ck of a running lease brings (R306). -/
def State.noteLeases (s : State) : State := s.busyHerds.foldl State.noteLease s

/-- What follows each move. -/
def afterMove (o : Out) : Out :=
  match o with
  | .next s => .next s.noteLeases
  | x => x

/-- Events that firmware brings about by itself; those that follow a command or a packet wait for ready already. They end when an error
stops the Tahr (R18, R50; log 75). -/
def byFirmware : Instr → Bool
  | .waitSatisfied _ | .fencePacketComplete _ | .poolRoomAdmit _ | .slotGrant | .slotIdleRelease _ | .forcedUnmapping
  | .queueContextSaved _ | .nodeDispatch _ | .reservingClaim | .levelAging _ _ | .nodeTriggerFire _ _ | .graphTriggerFire _
  | .nodeRetirement _ _ | .copyNodeRetirement _ _ | .graphRetirement _ | .nodeRotation _ _ | .reportPost _ _ | .reportPostEnd _ _
  | .hostBarrierPoll _ | .noticePost _ _ _ | .unitRetirement _ | .sensorSample _ | .xthermUpdate _ => true
  | _ => false

/-- A move. Words are executed by the cores that issue them, every other row of the opcode table as an event. -/
def State.doMove (s : State) : Move → Out
  | .issue h c => s.issueWord h c
  | .event i => if (encode i).isEmpty && !(s.tahr.fatal && byFirmware i) then exec i s else .next s
  | .choice c => .next (s.choose c)

/-- A turn: time goes on to it, if it lies ahead, and its move is made. -/
def State.takeTurn (s : State) (t : Turn) : Out := afterMove ((s.advanceTo t.ck).doMove t.move)

/-! ## A round

With no agenda, a step is a round: one ck in which every move that may be due is made, in one order. A move that is not due
changes nothing. -/

/-- A move of a round. -/
abbrev Task := State → Out

def engines : List Engine := [.pump, .matrix, .well, .coll]

/-- Moves of firmware: none once the Tahr has stopped (R50; log 75). -/
def State.firmware (s : State) (ts : List Task) : List Task := if s.tahr.fatal then [] else ts

/-- Moves of the Tahr for its slots and its management ring. -/
def State.tahrRound (s : State) : List Task :=
  let t := s.tahr
  (if !t.ready then [execBringUpComplete (.ready false)] else []) ++
  (if s.waiting.isEmpty then [] else [execSlotGrant, execForcedUnmapping]) ++
  (t.slots.zipIdx.flatMap fun x => match x.1.state with
    | .idle => [execSlotIdleRelease x.2]
    | .unmapping => [execQueueContextSaved x.2]
    | _ => []) ++
  (if t.mqhead ≠ t.mqtail then
    [execMapq, execUnmapq, execQreset, execPasidBind, execPasidRetire, execPreempt, execResync, execAttest, execPatch, execDsp]
  else [])

/-- Moves of a queue. -/
def Queue.round (q : Queue) : List Task :=
  if q.status ≠ 0 then []
  else if q.wait.isSome then [execWaitSatisfied q.qid, execHostBarrierPoll q.qid]
  else if q.fence then [execFencePacketComplete q.qid]
  else if q.held.isSome then [execPoolRoomAdmit q.qid]
  else if q.head ≠ q.tail then
    [execLaunchPacket q.qid, execWaitPacket q.qid, execSignalPacket q.qid, execModePacket q.qid, execFencePacket q.qid,
      execCopyPacket q.qid]
  else []

/-- Moves of a node. -/
def nodeRound (l : Launch) (i : Nat) (n : Node) : List Task :=
  match n.state with
  | .running | .triggered =>
    if n.kind = .copy then [execCopyNodeRetirement l.lseq i]
    else [execNodeTriggerFire l.lseq i, execNodeRetirement l.lseq i, execNodeRotation l.lseq i]
  | .ready => [execLevelAging l.lseq i]
  | _ => []

/-- Moves of a launch. -/
def Launch.round (l : Launch) : List Task :=
  l.nodes.zipIdx.flatMap (fun n => nodeRound l n.2 n.1) ++ [execGraphTriggerFire l.lseq, execGraphRetirement l.lseq]

/-- Moves of a die. -/
def State.dieRound (s : State) (d : Die) (i : Nat) : List Task :=
  (if (s.nodesIn .ready).any fun x => x.2.2.die == i then s.firmware [execNodeDispatch i] else []) ++
  (if d.change.isSome then [execDspChangeComplete i] else []) ++
  (d.stops.map fun z => execThermalEmergencyStop i z) ++
  (if d.budgets = d.zones.map (fun z => min (min (zoneCap z.state) s.tahr.allow) 15) then [] else s.firmware [execXthermUpdate i])

/-- Moves of what a core has on its way, in a running context or a spilling one. -/
def State.workRound (s : State) (h i : Nat) (c : Core) : List Task :=
  (c.landings.map fun e => execScalarResultLanding h i e.reg) ++ (if c.sq.isEmpty then [] else [execStorePerform h i 0]) ++
  (engines.filterMap fun g => if (c.queue g).isEmpty then none else some (execEngineEntryCompletion h i g)) ++
  (if c.cancelRd.isEmpty then [] else [execPumpCancelAck h i]) ++
  (match c.freeReq with
    | some r => [if r.push then execFreePagePush h i else execFreePagePop h i]
    | none => []) ++
  (match c.block with
    | some (.tlbinv _ _) => [execTlbInvalidationComplete h i]
    | some (.xdsp _ _) => [execXdspWrite h i]
    | some (.report _ e _ _ _) => s.firmware [if e then execReportPostEnd h i else execReportPost h i]
    | _ => [])

/-- The next word of a core fetches an absent register that it uses (R407). -/
def fetchTask (h i : Nat) : Task := fun t =>
  let r : Option BankReg := (t.core? h i).bind fun x => (t.nextUses h x).2.find? fun r => x.isAbsent r
  match r with
  | some r => execRegisterMiss h i r t
  | none => .next t

/-- Moves of what a core of a running context waits for. -/
def waitRound (h i : Nat) (c : Core) : List Task :=
  (if c.aq.all List.isEmpty then []
    else execZeroFill h i :: (List.range 4).map fun n => execAccessQueueEntryPerform h i (.ofNat 2 n)) ++
  (engines.filterMap fun g => if (c.head g).map Entry.step = some .ready then
    some (if g = .coll then execCollectiveStart h i else execEngineEntryStart h i g) else none) ++
  (match c.block with
    | some (.bwait _ _ _ _) => [execBarrierWaiterWake h i]
    | some (.pbwait _ _ _ _) => [execShortBarrierWake h i]
    | some (.spinw _ _ _) => [execSpinwWake h i]
    | _ => []) ++
  (if (c.block.isSome || c.join.isSome) && c.boundary.isSome then [execTrapEntry h i] else []) ++
  (if c.absent.isEmpty then [] else [fetchTask h i])

/-- The issue of a core of a running context. -/
def State.issueRound (s : State) (h i : Nat) (c : Core) : List Task :=
  if s.mayIssue h c && c.block.isNone && c.join.isNone then [fun t => t.issueWord h i] else []

/-- Semaphores that a herd's cores wait on. -/
def HerdCtx.wanted (x : HerdCtx) : List (BitVec 8) :=
  (x.cores.flatMap fun c =>
    (match c.block with
      | some (.kwait k _ _) => [k]
      | _ => []) ++
    engines.filterMap fun g => (c.head g).bind fun e => if e.step = .semWaiting then some e.hdr.wsem else none).eraseDups

/-- The grants of a ck: each semaphore's waiters as they come to it (R177). -/
def State.grantAll (s : State) (h : Nat) : State :=
  match s.ctx? h with
  | some x => x.wanted.foldl (fun t k => (x.waiters k).foldl (fun u _ => u.modCtx h fun y => y.grant u.now k) t) s
  | none => s

/-- Moves of a herd as a whole. -/
def Herd.round (x : Herd) (h : Nat) : List Task :=
  (if x.act.diverge.isSome then [execBranchResolution h] else []) ++
  (if x.act.cores.any fun c => !(c.queue .matrix).isEmpty then [execLeaseEnd h, execLeaseGrant h] else []) ++
  (if x.act.cores.any fun c => c.runs .well then [execCisternArrival h] else []) ++
  (if x.evict.isSome then (List.range 8).map fun c => execContextSwap h c else []) ++
  (if x.old.isSome then [execHerdQuiescence h, execContextSpillComplete h] else []) ++
  (if x.act.held.isSome && x.act.cores.any Core.swapped && x.evict.isNone then [execContextRestore h] else [])

/-- Moves for the scratchpads of a herd. -/
def Herd.bankRound (x : Herd) (h : Nat) : List Task :=
  x.phys.zipIdx.flatMap fun p =>
    (p.1.stale.map fun y => execParityUpdate h p.2 y.1 y.2) ++
    (p.1.groups.filterMap fun g => g.rebuild.map fun b => execBankRebuild h p.2 b)

/-- Moves of a spilling context. -/
def State.oldRound (s : State) (x : Herd) (h : Nat) : List Task :=
  match x.old with
  | some o => o.cores.zipIdx.flatMap fun c => s.workRound h c.2 c.1
  | none => []

/-- Moves of a rectangle: its fills. -/
def Rect.round (x : Rect) : List Task :=
  x.wells.zipIdx.flatMap fun r => r.1.zipIdx.flatMap fun w =>
    let p := x.place r.2 w.2
    [false, true].flatMap fun li => match (w.1.latch li).fill with
      | some f => [if f.beats then execFillComplete p.1 p.2 li else execFillRowActivation p.1 p.2 li]
      | none => []

/-- Units that have reached their threshold (R435). -/
def State.dueUnits (s : State) : List Task :=
  s.counters.filterMap fun k => match k.key with
    | .unit u => if (s.reached u).isSome && !s.unitOut u then some (execUnitRetirement u) else none
    | .beats d w => if (s.reached (.well d w)).isSome && !s.unitOut (.well d w) then some (execUnitRetirement (.well d w)) else none
    | _ => none

/-- What is to be done for each core of a herd's running context, by rank. -/
def State.eachCore (s : State) (h : Nat) (f : Nat → Core → List Task) : List Task :=
  match s.ctx? h with
  | some x => x.cores.zipIdx.flatMap fun c => f c.2 c.1
  | none => []

/-- Every move that the part may have to make in the next ck: a herd's engine signals, then its cores' words by rank, then its
grants (R179). -/
def State.tasks (s : State) : List Task :=
  if !s.powered then []
  else
    s.firmware (s.tahrRound ++ s.tahr.queues.flatMap Queue.round ++ s.tahr.launches.flatMap Launch.round) ++
    s.dies.zipIdx.flatMap (fun d => s.dieRound d.1 d.2) ++
    s.firmware ((if (s.nodesIn .reserving).isEmpty then [] else [execReservingClaim]) ++
      s.tahr.notices.map fun n => execNoticePost n.1 n.2.1 n.2.2) ++ s.rects.flatMap Rect.round ++
    s.herds.zipIdx.flatMap (fun x => x.1.round x.2 ++ x.1.bankRound x.2 ++ s.oldRound x.1 x.2) ++ s.firmware s.dueUnits ++
    s.busyHerds.flatMap fun h =>
      s.eachCore h (fun i c => s.workRound h i c ++ waitRound h i c) ++ s.eachCore h (s.issueRound h) ++ [fun t => .next (t.grantAll h)]

/-- The moves are made one after the other. -/
def runTasks : List Task → State → Out
  | [], s => .next s
  | f :: r, s =>
    match afterMove (f s) with
    | .next t => runTasks r t
    | x => x

/-- A round: time goes on by one ck, and the moves are made. -/
def State.round (s : State) : Out :=
  let t := (s.advanceTo (s.now + 1)).noteLeases
  runTasks t.tasks t

/-! ## Placing one word (log 7) -/

/-- A page of code that herd 0's TLB maps: readable, writable and executable at both levels. -/
def codePage : TlbEntry := ⟨0, 0x1000, 4096, .ofNat 64 (1 + 0x40 + 0x80 + 0x100 + 0x1000 * 16), none⟩

/-- A one-herd node that runs nothing else. -/
def codeNode : Held := ⟨0, 0, 0, 1, 0, true, 4, 256, true, false, 0, 0, 0, 0, 0⟩

/-- A core that issues what stands at 0x1000 next. -/
def Core.fetcher (c : Core) : Core :=
  { c with
    front := .stray, pc := 0x1000, buf := [], join := none, block := none, loop := none, issueAt := 0, aq := .replicate 4 []
    absent := [], swapped := false, x := { c.x with np := false } }

/-- Bytes stand at 0x1000, and core 0 of herd 0 issues next. -/
def State.fetchSetup (s : State) (bs : List Byte) : State :=
  { s with
    mem := s.mem.write 0x1000 bs
    herds := s.herds.modify 0 fun h => { h with
      evict := none
      tlb := codePage :: h.tlb
      act := { h.act with
        held := some codeNode
        code := []
        cores := h.act.cores.modify 0 Core.fetcher } }
    agenda := [⟨s.now, .issue 0 0⟩] }

end Sys2Proof.Machine
end

