-- ==== Sys2Proof/Machine/Step.lean ====
section
/-! DEFINITION. The step: the next turn of the agenda, or a round of the part's own (log 5). -/

namespace Sys2Proof.Machine

/-- One step. -/
def step (s : State) : Host.Outcome State Fault Refusal :=
  match s.agenda with
  | t :: r => { s with agenda := r }.takeTurn t
  | [] => s.round

/-- The state in which core 0 of herd 0 issues next what stands at an address (log 7). -/
def State.withFetchWord (s : State) (nbits w : Nat) : State := s.fetchSetup (bytesOf (splitGranules 6 (w % 2 ^ nbits)))

end Sys2Proof.Machine
end

