-- ==== Sys2Proof/Safety.lean ====
section
/-! DEFINITION. What counts as a safe run: one in which no step stops. -/

namespace Sys2Proof.Machine

/-- n steps lead from one state to another. -/
def State.Reaches : State → Nat → State → Prop
  | s, 0, t => s = t
  | s, n + 1, t => ∃ u, step s = .next u ∧ u.Reaches n t

/-- No run from the state stops: every step of it answers a next state. -/
def State.Safe (s : State) : Prop := ∀ n, ∃ t, s.Reaches n t

/-- The core that executes is c. -/
def State.Runs (s : State) (c : Core) : Prop := s.core? s.cur.1 s.cur.2 = some c

/-- Core c of herd h exists and holds x. -/
def State.Has (s : State) (h c : Nat) (x : Core) : Prop := s.core? h c = some x

end Sys2Proof.Machine
end

