-- ==== Sys2Proof/Certificates/Slice0/Obligations.lean ====
section
/-! DEFINITION. The statements for the provers. A table under Sys2Proof.Spec names the words of one shape and writes what each of
them does from the rule's own text; a statement then says it for all of them at once. -/

namespace Sys2Proof.Spec

open Sys2Proof.Machine

/-! ## Tables of the scalar words -/

/-- 1 when the condition holds, else 0. -/
def one (p : Prop) [Decidable p] : Word := if p then 1 else 0

/-- The words of R158 and R164 with two sources: rd, rs1, rs2 and the value that rd receives. -/
def twoSource : Instr → Option (BitVec 5 × BitVec 5 × BitVec 5 × (Word → Word → Word))
  | .add d a b => some (d, a, b, fun x y => .ofNat 64 (x.toNat + y.toNat))
  | .sub d a b => some (d, a, b, fun x y => .ofInt 64 (x.toInt - y.toInt))
  | .and d a b => some (d, a, b, fun x y => x &&& y)
  | .or d a b => some (d, a, b, fun x y => x ||| y)
  | .xor d a b => some (d, a, b, fun x y => x ^^^ y)
  | .andn d a b => some (d, a, b, fun x y => x &&& ~~~y)
  | .sll d a b => some (d, a, b, fun x y => .ofNat 64 (x.toNat * 2 ^ (y.toNat % 64)))
  | .srl d a b => some (d, a, b, fun x y => .ofNat 64 (x.toNat / 2 ^ (y.toNat % 64)))
  | .sra d a b => some (d, a, b, fun x y => .ofInt 64 (x.toInt / 2 ^ (y.toNat % 64)))
  | .rol d a b => some (d, a, b, fun x y => x <<< (y.toNat % 64) ||| x >>> (64 - y.toNat % 64))
  | .ror d a b => some (d, a, b, fun x y => x >>> (y.toNat % 64) ||| x <<< (64 - y.toNat % 64))
  | .slt d a b => some (d, a, b, fun x y => one (x.toInt < y.toInt))
  | .sltu d a b => some (d, a, b, fun x y => one (x.toNat < y.toNat))
  | .seq d a b => some (d, a, b, fun x y => one (x = y))
  | .sne d a b => some (d, a, b, fun x y => one (x ≠ y))
  | .min d a b => some (d, a, b, fun x y => if x.toInt ≤ y.toInt then x else y)
  | .max d a b => some (d, a, b, fun x y => if x.toInt ≤ y.toInt then y else x)
  | .minu d a b => some (d, a, b, fun x y => if x.toNat ≤ y.toNat then x else y)
  | .maxu d a b => some (d, a, b, fun x y => if x.toNat ≤ y.toNat then y else x)
  | .ptag d a b => some (d, a, b, fun x y => y.extractLsb' 0 8 ++ x.extractLsb' 0 56)
  | .padd d a b => some (d, a, b, fun x y => x.extractLsb' 56 8 ++ (x.extractLsb' 0 56 + y.extractLsb' 0 56))
  | .psub d a b => some (d, a, b, fun x y => (x.extractLsb' 0 56 - y.extractLsb' 0 56).signExtend 64)
  | _ => none

/-- The words of R158, R159 and R164 with one register source: rd, rs1 and the value that rd receives. -/
def oneSource : Instr → Option (BitVec 5 × BitVec 5 × (Word → Word))
  | .clz d a => some (d, a, fun x => .ofNat 64 (((List.range 64).find? fun i => x.getMsbD i).getD 64))
  | .ctz d a => some (d, a, fun x => .ofNat 64 (((List.range 64).find? fun i => x.getLsbD i).getD 64))
  | .popc d a => some (d, a, fun x => .ofNat 64 ((List.range 64).countP fun i => x.getLsbD i))
  | .sextB d a => some (d, a, fun x => .ofInt 64 (BitVec.ofNat 8 x.toNat).toInt)
  | .sextH d a => some (d, a, fun x => .ofInt 64 (BitVec.ofNat 16 x.toNat).toInt)
  | .sextW d a => some (d, a, fun x => .ofInt 64 (BitVec.ofNat 32 x.toNat).toInt)
  | .zextB d a => some (d, a, fun x => .ofNat 64 (x.toNat % 2 ^ 8))
  | .zextH d a => some (d, a, fun x => .ofNat 64 (x.toNat % 2 ^ 16))
  | .zextW d a => some (d, a, fun x => .ofNat 64 (x.toNat % 2 ^ 32))
  | .addi d a i => some (d, a, fun x => .ofInt 64 (x.toInt + i.toInt))
  | .andi d a i => some (d, a, fun x => x &&& .ofNat 64 i.toNat)
  | .ori d a i => some (d, a, fun x => x ||| .ofNat 64 i.toNat)
  | .xori d a i => some (d, a, fun x => x ^^^ .ofNat 64 i.toNat)
  | .slli d a i => some (d, a, fun x => .ofNat 64 (x.toNat * 2 ^ i.toNat))
  | .srli d a i => some (d, a, fun x => .ofNat 64 (x.toNat / 2 ^ i.toNat))
  | .srai d a i => some (d, a, fun x => .ofInt 64 (x.toInt / 2 ^ i.toNat))
  | .slti d a i => some (d, a, fun x => one (x.toInt < i.toInt))
  | .sltiu d a i => some (d, a, fun x => one (x.toNat < (BitVec.ofInt 64 i.toInt).toNat))
  | .pspace d a => some (d, a, fun x => .ofNat 64 (x.toNat / 2 ^ 61))
  | .prank d a => some (d, a, fun x => .ofNat 64 (x.toNat / 2 ^ 56 % 2 ^ 5))
  | .paddr d a => some (d, a, fun x => .ofNat 64 (x.toNat % 2 ^ 56))
  | _ => none

/-- The words of R161: rd, rs1, rs2 and the value that arrives. -/
def productOrQuotient : Instr → Option (BitVec 5 × BitVec 5 × BitVec 5 × (Word → Word → Word))
  | .mul d a b => some (d, a, b, fun x y => .ofNat 64 (x.toNat * y.toNat))
  | .mulh d a b => some (d, a, b, fun x y => .ofInt 64 (x.toInt * y.toInt / 2 ^ 64))
  | .mulhu d a b => some (d, a, b, fun x y => .ofNat 64 (x.toNat * y.toNat / 2 ^ 64))
  | .mulhsu d a b => some (d, a, b, fun x y => .ofInt 64 (x.toInt * (y.toNat : Int) / 2 ^ 64))
  | .div d a b => some (d, a, b, fun x y => if y = 0 then .allOnes 64 else x.sdiv y)
  | .divu d a b => some (d, a, b, fun x y => if y = 0 then .allOnes 64 else x / y)
  | .rem d a b => some (d, a, b, fun x y => if y = 0 then x else x.srem y)
  | .remu d a b => some (d, a, b, fun x y => if y = 0 then x else x % y)
  | _ => none

/-- The conversions of R163 that round or clamp: rd, rs1, and the value that arrives, in the terms of R280. -/
def conversion : Instr → Option (BitVec 5 × BitVec 5 × (Word → Word))
  | .cvtF64S64 d a r => some (d, a, fun x => .ofNat 64 (roundTo F64 r false (.ofInt x.toInt)))
  | .cvtF32S64 d a r => some (d, a, fun x => .ofNat 64 (roundTo F32 r false (.ofInt x.toInt)))
  | .cvtS64F64 d a r => some (d, a, fun x => .ofInt 64 ((F64.decode x.toNat).toIntClamp r (-2 ^ 63) (2 ^ 63 - 1)))
  | .cvtS64F32 d a r => some (d, a, fun x => .ofInt 64 ((F32.decode (x.toNat % 2 ^ 32)).toIntClamp r (-2 ^ 63) (2 ^ 63 - 1)))
  | .cvtF64F32 d a => some (d, a, fun x => .ofNat 64 (widenExact F32 F64 (x.toNat % 2 ^ 32)))
  | .cvtF32F64 d a r => some (d, a, fun x => .ofNat 64 (roundTo F32 r false (F64.decode x.toNat)))
  | .cvtF32F16 d a => some (d, a, fun x => .ofNat 64 (widenExact F16 F32 (x.toNat % 2 ^ 16)))
  | .cvtF16F32 d a r => some (d, a, fun x => .ofNat 64 (roundTo F16 r false (F32.decode (x.toNat % 2 ^ 32))))
  | .cvtF32Bf16 d a => some (d, a, fun x => .ofNat 64 (widenExact BF16 F32 (x.toNat % 2 ^ 16)))
  | .cvtBf16F32 d a r => some (d, a, fun x => .ofNat 64 (roundTo BF16 r false (F32.decode (x.toNat % 2 ^ 32))))
  | _ => none

/-- The words whose result takes more than 1 ck among R161 and R163: sources, rd and the value. -/
def late (i : Instr) : Option (List (BitVec 5) × BitVec 5 × (Core → Word)) :=
  match productOrQuotient i, conversion i with
  | some (d, a, b, f), _ => some ([a, b], d, fun c => f (c.gs a) (c.gs b))
  | none, some (d, a, f) => some ([a], d, fun c => f (c.gs a))
  | none, none => none

/-- The conditional branches of R165: rs1, rs2, the displacement and when it is taken. -/
def branchOf : Instr → Option (BitVec 5 × BitVec 5 × BitVec 14 × (Word → Word → Bool))
  | .beq a b i => some (a, b, i, fun x y => decide (x = y))
  | .bne a b i => some (a, b, i, fun x y => decide (x ≠ y))
  | .blt a b i => some (a, b, i, fun x y => decide (x.toInt < y.toInt))
  | .bge a b i => some (a, b, i, fun x y => decide (y.toInt ≤ x.toInt))
  | .bltu a b i => some (a, b, i, fun x y => decide (x.toNat < y.toNat))
  | .bgeu a b i => some (a, b, i, fun x y => decide (y.toNat ≤ x.toNat))
  | _ => none

end Sys2Proof.Spec

open Sys2Proof Sys2Proof.Machine Sys2Proof.Spec

/-! ## Encoding and the step -/

/-- R106, R109 to R133: the decoder reads back every well-formed word that the encoder writes, every operand at every value,
whatever bytes follow it. -/
def Obligations.DecodeAfterEncode : Prop :=
  ∀ (i : Instr) (rest : List Byte), i.wf = true → encode i ≠ [] → decodeBytes (bytesOf (encode i) ++ rest) = .ok i

/-- R109: no point of any map is ignored. Granules that decode are those that the encoder writes for the instruction, which is
well-formed, so no bit of an accepted word is dropped. -/
def Sys2Proof.Spec.EncodeAfterDecode : Prop :=
  ∀ (gs : List Granule) (i : Instr), decodeGranules gs = .ok i → i.wf = true ∧ ∃ rest, gs = encode i ++ rest ∧ encode i ≠ []

namespace Sys2Proof.Spec

/-- The assembled fragment of spec/05_formats_and_opcode_map.md, and words assembled in spec/07_scalar_and_issue.md, granule by
granule, with what each stands for. -/
def fragment : List (List Granule × Instr) :=
  [([0x08180064#32], .addi 3 0 100),
   ([0x44078800#32, 0x00400001#32, 0x00000C00#32], .vfma ⟨0, 15, 0, .f32, .rne, false, false⟩ (.reg 1) (.reg 2) (.reg 3)),
   ([0x26397FF8#32], .ldD 7 2 (-8)),
   ([0x1808BFFB#32], .beq 1 2 (-5)),
   ([0x40078200#32, 0x00800004#32, 0x40000C00#32], .vadd ⟨0, 15, 0, .s32, .rne, false, false⟩ (.reg 4) (.reg 4) (.scal 3)),
   ([0x0020CE00#32], .add 4 3 7),
   ([0x2B210000#32], .stD 4 2 0),
   ([0x90008144#32, 0x061A0002#32, 0x00000132#32, 0#32, 0#32, 0#32], .mmul ⟨none, 2, 5, 1, 6, 1, some ⟨4, 2⟩⟩ 1 2 3 false),
   ([0x13190010#32], .lset 3 4 16),
   ([0x14100000#32], .gsetOpen 2),
   ([0x14114001#32], .gsetNe 2 5),
   ([0x32030206#32], .ksig 3 1),
   ([0x32040207#32], .kwait 4 1),
   ([0x3F48400B#32], .qstat 9 .matrix)]

end Sys2Proof.Spec

/-- The words that the spec's own worked examples assemble decode to the instructions they stand for, and the encoder writes
them so. -/
def Obligations.WorkedWordsDecode : Prop :=
  ∀ p ∈ Spec.fragment, decodeGranules p.1 = .ok p.2 ∧ encode p.2 = p.1

/-- R106, R109, R126: a granule of class 0b11, and a scalar word of an unassigned major, are no instruction, whatever follows. -/
def Sys2Proof.Spec.UnassignedWordsAreRefused : Prop :=
  ∀ (g : Granule) (rest : List Granule),
    (g.toNat / 2 ^ 30 = 3 ∨
      g.toNat / 2 ^ 30 = 0 ∧ g.toNat / 2 ^ 24 ∈ [0x05, 0x06, 0x07, 0x15, 0x16, 0x17, 0x33, 0x34, 0x35, 0x36, 0x37, 0x38, 0x39, 0x3A,
        0x3B, 0x3C, 0x3D, 0x3E]) →
    ∃ e, decodeGranules (g :: rest) = .error e

/-- R107 to R109, R138, R271, R395: a turn in which core c of herd h issues, with nothing at its boundary, outside a nest's loop
buffer. A word that stands in its issue buffer is executed from there. Else the granules at its pc are fetched: if they are a word
that ends in its 64-byte block, the step executes that word once it is delivered; otherwise the core takes the illegal-encoding
trap, and nothing of the word takes effect. The word that reads a landed token first waits for the core's access-queue loads. -/
def Obligations.StepRunsTheWord : Prop :=
  ∀ (s v : State) (r : List Turn) (h c l k : Nat) (host : Bool) (x : Core) (y : HerdCtx),
    s.agenda = ⟨s.now, .issue h c⟩ :: r →
    let u : State := { ({ s with agenda := r } : State).advanceTo s.now with cur := (h, c) }
    u.core? h c = some x → u.mayIssue h x = true → x.boundary = none → x.block = none → x.join = none → x.inLoop = false →
    (∀ w ws, x.buf = w :: ws → w.addr = x.pc → strayBody x w.word = false → x.tokens = 0 → step s = afterMove (exec w.word u)) ∧
    ((∀ w ∈ x.buf, w.addr ≠ x.pc) →
      u.translate h (u.pasidOf h) x.pc.toNat ⟨!x.x.priv, false, true⟩ = (v, .loc l host) → v.ctx? h = some y →
      let g := y.granule v (u.pasidOf h) x.pc l
      let gs := y.granulesAt v (u.pasidOf h) x.pc l k
      let w := (v.linesSeen (y.granuleLocs (u.pasidOf h) x.pc l k)).modCtx h fun z =>
        { z with code := holdCode z.code (u.pasidOf h) x.pc gs }
      (∀ i, granules g = some k → x.pc.toNat % 64 / 4 + k ≤ 16 → decodeGranules gs = .ok i → strayBody x i = false → ∀ p,
        (w.deliver h c x i (4 * k) = (p, false) → step s = afterMove (.next p)) ∧
        (w.deliver h c x i (4 * k) = (p, true) → ∀ q,
          (p.readTokens h c i = (q, true) → step s = afterMove (exec i q)) ∧
          (p.readTokens h c i = (q, false) → step s = afterMove (.next q)) ∧
          (x.tokens = 0 → p.readTokens h c i = (p, true)))) ∧
      (∀ i, granules g = some k → x.pc.toNat % 64 / 4 + k ≤ 16 → decodeGranules gs = .ok i → strayBody x i = true →
        step s = afterMove (w.trap (.illegal (firstGranule i)))) ∧
      (∀ e, granules g = some k → x.pc.toNat % 64 / 4 + k ≤ 16 → decodeGranules gs = .error e →
        step s = afterMove (w.trap (.illegal g))) ∧
      ((granules g = none ∨ granules g = some k ∧ 16 < x.pc.toNat % 64 / 4 + k) →
        step s = afterMove (((v.linesSeen (y.granuleLocs (u.pasidOf h) x.pc l 1)).modCtx h fun z =>
          { z with code := holdCode z.code (u.pasidOf h) x.pc [g] }).trap (.illegal g))))

/-- R106: the class bits of its first granule say how long a word is; class 0b11 is no instruction. -/
def Sys2Proof.Spec.WordClasses : Prop :=
  ∀ (g : Granule) (rest : List Granule) (i : Instr), decodeGranules (g :: rest) = .ok i →
    g.toNat / 2 ^ 30 ≠ 3 ∧
    (encode i).length = (if g.toNat / 2 ^ 30 = 0 then 1 else if g.toNat / 2 ^ 30 = 1 then 3 else 6)

/-! ## Scalar registers -/

/-- R158, R164: a two-source function of the integers or of tagged pointers writes rd with the value the rule gives, once no
register it reads or writes is pending, and does nothing else. -/
def Sys2Proof.Spec.TwoSourceFunctions : Prop :=
  ∀ (s : State) (c : Core) (i : Instr) (d a b : BitVec 5) (f : Word → Word → Word),
    Spec.twoSource i = some (d, a, b, f) → s.Runs c → c.free [a, b] [d] = true →
    exec i s = .next (s.fin (c.ps d (f (c.gs a) (c.gs b))))

/-- R158, R159, R164: the functions of one register, immediate forms among them. -/
def Sys2Proof.Spec.OneSourceFunctions : Prop :=
  ∀ (s : State) (c : Core) (i : Instr) (d a : BitVec 5) (f : Word → Word),
    Spec.oneSource i = some (d, a, f) → s.Runs c → c.free [a] [d] = true →
    exec i s = .next (s.fin (c.ps d (f (c.gs a))))

/-- R160: lui writes a multiple of 8,192, and auipc adds it to the word's own address; a space-0 address has a zero top byte. -/
def Sys2Proof.Spec.UpperImmediates : Prop :=
  ∀ (s : State) (c : Core) (d : BitVec 5) (imm : BitVec 19), s.Runs c → c.free [] [d] = true →
    exec (.lui d imm) s = .next (s.fin (c.ps d (.ofInt 64 (imm.toInt * 2 ^ 13)))) ∧
    exec (.auipc d imm) s = .next (s.fin (c.ps d (.ofNat 64 (((c.pc.toNat : Int) + imm.toInt * 2 ^ 13) % 2 ^ 56).toNat)))

/-- R156, R157, R161 to R163: multiply, divide and conversion set rd's pending bit at issue and send the rule's value; the result
reaches rd, and the bit clears, when it lands. A result for s0 goes nowhere. -/
def Sys2Proof.Spec.LateResultsArePosted : Prop :=
  ∀ (s : State) (c : Core) (i : Instr) (rs : List (BitVec 5)) (d : BitVec 5) (f : Core → Word),
    Spec.late i = some (rs, d, f) → s.Runs c → c.free rs [d] = true →
    exec i s = .next (s.fin (c.post d (f c))) ∧
    (d = 0 → c.post d (f c) = c) ∧
    (d ≠ 0 → (c.post d (f c)).isPend d = true ∧ (c.post d (f c)).landings = c.landings ++ [⟨d, f c⟩])

/-- R156: a word whose register, read or written, is pending does not issue: it leaves the state as it is. -/
def Sys2Proof.Spec.PendingRegistersHoldAWord : Prop :=
  ∀ (s : State) (c : Core) (i : Instr) (reads writes : List (BitVec 5)),
    (∃ d a b f, Spec.twoSource i = some (d, a, b, f) ∧ reads = [a, b] ∧ writes = [d]) ∨
    (∃ d a f, Spec.oneSource i = some (d, a, f) ∧ reads = [a] ∧ writes = [d]) ∨
    (∃ d f, Spec.late i = some (reads, d, f) ∧ writes = [d]) →
    s.Runs c → c.free reads writes = false → exec i s = .next s

/-- R156, R411: SCALAR_RESULT_LANDING writes the oldest result on its way to a register of a core and clears the pending bit; a
result of a context that is being spilled lands in that context's bank. With no such result it changes nothing. -/
def Sys2Proof.Spec.ScalarResultLands : Prop :=
  ∀ (s : State) (h c : Nat) (x : Core) (y : Herd) (r : BitVec 5), s.Has h c x → s.herds[h]? = some y →
    let landed (z : Core) (e : Landing) (rest : List Landing) : Core := (({ z with landings := rest } : Core).setPend r false).ps r e.val
    (∀ e rest, y.old = none → takeLanding r x.landings = some (e, rest) →
      exec (.scalarResultLanding h c r) s = .next (s.modCore h c fun _ => landed x e rest)) ∧
    (y.old = none → takeLanding r x.landings = none → exec (.scalarResultLanding h c r) s = .next s) ∧
    (∀ o z e rest, y.old = some o → o.cores[c]? = some z → takeLanding r z.landings = some (e, rest) →
      exec (.scalarResultLanding h c r) s =
        .next (s.modHerd h fun w => { w with old := some { o with cores := o.cores.modify c fun _ => landed z e rest } }))

/-- R154: s0 reads as zero and discards writes; another register of a full bank reads back what was written, and every other
register keeps its value. -/
def Sys2Proof.Spec.RegisterReadAfterWrite : Prop :=
  ∀ (c : Core) (d r : BitVec 5) (v : Word), c.s.length = 32 →
    (c.ps d v).gs r = (if r = 0 then 0 else if r = d then v else c.gs r) ∧
    (c.ps d v).s.length = 32 ∧ (d = 0 → c.ps d v = c) ∧
    { c.ps d v with s := c.s, absent := c.absent } = c

/-- R159 to R163: the scalar functions of two sources and of one, and the upper immediates. -/
def Obligations.ScalarFunctions : Prop := Spec.TwoSourceFunctions ∧ Spec.OneSourceFunctions ∧ Spec.UpperImmediates

/-- R154, R156: a result on its way holds its register until it lands, and a register reads what was written to it last. -/
def Obligations.PendingRegisters : Prop := Spec.LateResultsArePosted ∧ Spec.PendingRegistersHoldAWord ∧ Spec.ScalarResultLands ∧ Spec.RegisterReadAfterWrite

/-- R106, R109, R113: a word that decodes is the word that its instruction encodes to, and no unassigned word decodes. -/
def Obligations.WordsHaveOneMeaning : Prop := Spec.EncodeAfterDecode ∧ Spec.WordClasses ∧ Spec.UnassignedWordsAreRefused
/-! ## Control transfer -/

/-- R141, R165: a conditional branch goes to its target, counted in granules from itself, or on. An attached core reports the
address and waits for the resolution; a stray goes there at once. No register is written. -/
def Sys2Proof.Spec.ConditionalBranches : Prop :=
  ∀ (s : State) (c : Core) (i : Instr) (a b : BitVec 5) (disp : BitVec 14) (taken : Word → Word → Bool),
    Spec.branchOf i = some (a, b, disp, taken) → s.Runs c → c.free [a, b] [] = true →
    let next := if taken (c.gs a) (c.gs b) then c.pc + .ofInt 56 (4 * disp.toInt) else c.pc + 4
    exec i s = .next (s.putMy { c with
      pc := next, buf := c.buf.drop 1, seq := c.seq + 1, issueAt := s.now + 1
      block := if c.front = .attached then some .branch else c.block })

/-- R140, R166, R167: j and call go to the target in the word, and call links through s31; jr and callr take their target from
rs1 without its tag, and callr links through rd after rs1 is read. A target off a granule boundary traps and writes nothing. -/
def Sys2Proof.Spec.Jumps : Prop :=
  ∀ (s : State) (c : Core), s.Runs c →
    (∀ d : BitVec 24, encode (.j d) = [.ofNat 32 (0x1E000000 + d.toNat)] ∧ encode (.call d) = [.ofNat 32 (0x1F000000 + d.toNat)]) ∧
    (∀ d : BitVec 24, exec (.j d) s = .next (s.jump c (c.pc + .ofInt 56 (4 * d.toInt)))) ∧
    (∀ d : BitVec 24, c.free [] [31] = true →
      exec (.call d) s = .next (s.jump (c.ps 31 (.ofNat 64 (c.pc + 4).toNat)) (c.pc + .ofInt 56 (4 * d.toInt)))) ∧
    (∀ a : BitVec 5, c.free [a] [] = true →
      exec (.jr a) s = if (c.gs a).toNat % 4 = 0 then .next (s.branchTo c (.ofNat 56 (c.gs a).toNat))
        else s.trap (.misalignment (.ofNat 64 ((c.gs a).toNat % 2 ^ 56)))) ∧
    (∀ d a : BitVec 5, c.free [a] [d] = true →
      exec (.callr d a) s = if (c.gs a).toNat % 4 = 0 then
          .next (s.branchTo (c.ps d (.ofNat 64 (c.pc + 4).toNat)) (.ofNat 56 (c.gs a).toNat))
        else s.trap (.misalignment (.ofNat 64 ((c.gs a).toNat % 2 ^ 56))))

/-- R141: once every attached core has reported, BRANCH_RESOLUTION leaves attached exactly those that report the address of the
lowest attached core, which the shared stream takes; every other core becomes a stray on its own. Before, it does nothing. -/
def Sys2Proof.Spec.BranchResolutionSplits : Prop :=
  ∀ (s : State) (h m : Nat) (x : HerdCtx) (low : Core), s.ctx? h = some x →
    (x.reported = false → exec (.branchResolution h) s = .next s) ∧
    (x.reported = true → x.cores[m]? = some low → low.front = .attached →
      (∀ n c, n < m → x.cores[n]? = some c → c.front ≠ .attached) →
      ∃ t, exec (.branchResolution h) s = .next t ∧
        (∃ y, t.ctx? h = some y ∧ y.stream = low.pc ∧ y.stopped = false ∧ y.diverge = none) ∧
        (∀ n c, x.cores[n]? = some c → t.Has h n (if c.front = .attached then
          { c with block := none, buf := [], front := if c.pc = low.pc then .attached else .stray } else c)) ∧
        (∀ k, k ≠ h → t.ctx? k = s.ctx? k) ∧ t.mem = s.mem)

/-! ## Loop registers and guard slots -/

/-- R168: lset writes the low 32 bits of a sum into a loop register. R173, R174: gset opens a slot, or resolves it and binds
every queued entry that is pending on it to the outcome; only the age of a head that begins to wait for its semaphore changes
beside. -/
def Obligations.LoopRegistersAndGuards : Prop :=
  ∀ (s : State) (c : Core), s.Runs c →
    (∀ (n : BitVec 3) (a : BitVec 5) (imm : BitVec 14), c.free [a] [] = true →
      exec (.lset n a imm) s = .next (s.fin { c with
        l := c.l.set n.toNat (.ofInt 32 ((c.gs a).toInt + imm.toInt)), absent := c.absent.filter (· != .l n) })) ∧
    (∀ n : BitVec 4, exec (.gsetOpen n) s = .next (s.fin { c with
        g := c.g.set n.toNat .opened, absent := c.absent.filter (· != .g n) })) ∧
    (∀ (n : BitVec 4) (a : BitVec 5) (ne : Bool), c.free [a] [] = true →
      let v := if ne then decide (c.gs a ≠ 0) else decide (c.gs a = 0)
      ∃ q, exec (if ne then .gsetNe n a else .gsetEq n a) s = .next (s.fin { c with
          g := c.g.set n.toNat (if v then .yes else .no), absent := c.absent.filter (· != .g n), eq := q }) ∧
        q.map (fun l => l.map fun e => { e with age := none }) =
          c.eq.map fun l => l.map fun e => if e.pending = some n then { e with outcome := some v, pending := none, age := none }
            else { e with age := none })

/-! ## Loads and stores -/

namespace Sys2Proof.Spec

/-- The scalar loads of R248: destination, record, offset, bytes, whether it is ld.nr, and what the register receives. -/
def loadOf : Instr → Option (BitVec 5 × BitVec 4 × BitVec 15 × Nat × Bool × (Nat → Word))
  | .ldB d b o => some (d, b, o, 1, false, fun m => .ofInt 64 (BitVec.ofNat 8 m).toInt)
  | .ldBu d b o => some (d, b, o, 1, false, fun m => .ofNat 64 m)
  | .ldH d b o => some (d, b, o, 2, false, fun m => .ofInt 64 (BitVec.ofNat 16 m).toInt)
  | .ldHu d b o => some (d, b, o, 2, false, fun m => .ofNat 64 m)
  | .ldW d b o => some (d, b, o, 4, false, fun m => .ofInt 64 (BitVec.ofNat 32 m).toInt)
  | .ldWu d b o => some (d, b, o, 4, false, fun m => .ofNat 64 m)
  | .ldD d b o => some (d, b, o, 8, false, fun m => .ofNat 64 m)
  | .ldNr d b o => some (d, b, o, 8, true, fun m => .ofNat 64 m)
  | _ => none

/-- The stores of R248 and R251: the registers read, record, offset, alignment, and the bytes stored, the least first. -/
def storeOf : Instr → Option (List (BitVec 5) × List BankReg × BitVec 4 × BitVec 15 × Nat × (Core → List Byte))
  | .stB r b o => some ([r], [], b, o, 1, fun c => leBytes 1 (c.gs r).toNat)
  | .stH r b o => some ([r], [], b, o, 2, fun c => leBytes 2 (c.gs r).toNat)
  | .stW r b o => some ([r], [], b, o, 4, fun c => leBytes 4 (c.gs r).toNat)
  | .stD r b o => some ([r], [], b, o, 8, fun c => leBytes 8 (c.gs r).toNat)
  | .stb n b o => some ([], [.b n], b, o, 32, fun c => leBytes 32 (c.gb n).toNat)
  | .stq n b o => some ([], [.q n], b, o, 32, fun c => leBytes 32 (c.gq n).toNat)
  | _ => none

/-- Whether a stq names a register that a queued entry names as a ring (R252). -/
def ringHeld (c : Core) : Instr → Bool
  | .stq n _ _ => c.ringBusy n
  | _ => false

/-- Whether the n bytes at a location hold no error, and no vector result to them is on its way. -/
def State.sound (s : State) (c : Core) (l n : Nat) : Prop :=
  s.readUnits false (unitsOf l n) = (s, []) ∧ s.readUnits true (unitsOf l n) = (s, []) ∧
    ∀ i, i < n → c.unlanded (l + i) = false

/-- Whether a store-queue entry writes one of the n bytes at a location of the part. -/
def overlaps (o : SqOp) (l n : Nat) : Prop :=
  match o with
  | .store a d => a < l + n ∧ l < a + d.length
  | .amo _ a m _ _ _ => a < l + n ∧ l < a + m
  | .remote _ _ _ => False

/-- Whether no store of the core's queue, and no vector result, is on its way to n bytes at a location (R358). -/
def settled (c : Core) (l n : Nat) : Prop := (∀ e ∈ c.sq, ¬ overlaps e.op l n) ∧ ∀ i, i < n → c.unlanded (l + i) = false

/-- A core has no access-queue entry left. -/
def aqEmpty (c : Core) : Prop := ∀ q ∈ c.aq, q = []

end Sys2Proof.Spec

/-- R222: the record, then its bounds mode, then the space. Trap faults on any byte outside the extent, zero gives no access,
wrap takes the offset modulo the extent, off checks nothing; the address wraps within 56 bits. That a misaligned access outside the
extent takes the bounds fault, and one that bounds mode zero would discard the misalignment fault, is the model's order of checks
(log 21). -/
def Sys2Proof.Spec.RecordChecks : Prop :=
  ∀ (s : State) (h c : Nat) (user : Bool) (r : Rec) (o : Int) (a : Ask),
    let ext : Int := r.extent.toNat
    let out : Prop := o < 0 ∨ ext < o + a.n
    (r.ok = false → s.through h c user r o a = (s, .fail (.bounds false 0))) ∧
    (r.ok = true → r.bounds = 0 → out → s.through h c user r o a = (s, .fail (.bounds false (ptrAt r.base o)))) ∧
    (r.ok = true → r.bounds = 1 → out → s.through h c user r o a =
      (s, if pAddr (ptrAt r.base o) % a.align = 0 then .none_ (ptrAt r.base o) else .fail (.misalignment (ptrAt r.base o)))) ∧
    (r.ok = true → r.bounds.toNat ≤ 1 → ¬ out → s.through h c user r o a = s.reach h c user (ptrAt r.base o) a) ∧
    (r.ok = true → r.bounds = 2 → ext ≠ 0 → o % ext + a.n ≤ ext →
      s.through h c user r o a = s.reach h c user (ptrAt r.base (o % ext)) a) ∧
    (r.ok = true → r.bounds = 2 → (ext = 0 ∨ ext < o % ext + a.n) →
      ∃ p, s.through h c user r o a = (s, .fail (.bounds false p))) ∧
    (r.ok = true → r.bounds = 3 → s.through h c user r o a = s.reach h c user (ptrAt r.base o) a) ∧
    (ptrAt r.base o).toNat / 2 ^ 56 = r.base.toNat / 2 ^ 56 ∧
    (((ptrAt r.base o).toNat % 2 ^ 56 : Nat) : Int) = ((r.base.toNat : Int) + o) % 2 ^ 56

/-- R216, R217: where an aligned pointer of each space leads. Spaces 1, 2 and 3 reach a scratchpad or a die scratchpad below its
size, space 0 goes to translation, space 4 takes stores alone, and every other pointer takes the bounds fault. -/
def Sys2Proof.Spec.SpaceChecks : Prop :=
  ∀ (s : State) (h c : Nat) (user : Bool) (p : Word) (a : Ask),
    let sp := p.toNat / 2 ^ 61
    let rank := p.toNat / 2 ^ 56 % 32
    let addr := p.toNat % 2 ^ 56
    addr % a.align = 0 → (∀ l, s.spillHolds l = false) →
    (∀ t x, sp = 0 → s.translate h (s.pasidOf h) addr ⟨user, a.write, false⟩ = (t, x) → s.reach h c user p a = (t, match x with
      | .loc l host => .at_ p (.loc l host)
      | .kind k => .fail (.translation k (.ofNat 64 addr))
      | .wait => .wait)) ∧
    (sp = 1 → addr + a.n ≤ s.capacity h c → s.reach h c user p a = (s, .at_ p (.loc (scratchLoc h c addr) false))) ∧
    (sp = 2 → rank ≤ 7 → addr + a.n ≤ s.capacity h rank →
      s.reach h c user p a = (s, .at_ p (.loc (scratchLoc h rank addr) false))) ∧
    (sp = 3 → rank ≤ 7 → addr + a.n ≤ s.dspSize rank →
      s.reach h c user p a = (s, .at_ p (.loc (dspLoc (s.physDie rank) addr) false))) ∧
    (sp = 4 → rank ≤ 1 → a.load = false → s.reach h c user p a = (s, .at_ p (.peer (decide (rank = 1)) addr))) ∧
    ((sp = 1 ∧ s.capacity h c < addr + a.n ∨ sp = 2 ∧ (7 < rank ∨ s.capacity h rank < addr + a.n) ∨
      sp = 3 ∧ (7 < rank ∨ s.dspSize rank < addr + a.n) ∨ sp = 4 ∧ (1 < rank ∨ a.load = true) ∨ 5 ≤ sp) →
      s.reach h c user p a = (s, .fail (.bounds false p)))

/-- R254: which entry of the store queue a load of n bytes takes its bytes from: the youngest that writes one of them, if that is a
store that writes them all; an atomic, or a store that writes only some, makes the load wait. -/
def Sys2Proof.Spec.StoreForwarding : Prop :=
  ∀ (l n : Nat),
    (∀ sq : List SqEntry, (∀ e ∈ sq, ¬ Spec.overlaps e.op l n) → forwardOf sq l n = .clear) ∧
    (∀ (p r : List SqEntry) (e : SqEntry), (∀ x ∈ r, ¬ Spec.overlaps x.op l n) → Spec.overlaps e.op l n →
      (∀ a d, e.op = .store a d → a ≤ l → l + n ≤ a + d.length → forwardOf (p ++ e :: r) l n = .bytes ((d.drop (l - a)).take n)) ∧
      ((∀ a d, e.op = .store a d → l < a ∨ a + d.length < l + n) → forwardOf (p ++ e :: r) l n = .wait))

/-- R248, R254, R358: a scalar load whose access passes its checks at a location takes the bytes of the youngest overlapping store of
its queue, if that store writes them all, or those of memory, extends them, and posts them to its register; an access-queue load that
came behind that store and may read a later write has to perform first; where the checks discard it, it takes zeros; where they fault,
it traps. Loads sample memory at issue (the model's choice, log 38). -/
def Sys2Proof.Spec.ScalarLoads : Prop :=
  ∀ (s t : State) (c : Core) (i : Instr) (d : BitVec 5) (b : BitVec 4) (o : BitVec 15) (n : Nat) (nr : Bool) (f : Nat → Word),
    Spec.loadOf i = some (d, b, o, n, nr, f) → s.Runs c → c.free [] [d] = true → c.here [.b b] = true → c.recon = false →
    let acc := s.through s.cur.1 s.cur.2 (!c.x.priv) (recOf (c.gb b)) o.toInt ⟨n, n, false, true⟩
    (∀ p l host, acc = (t, .at_ p (.loc l host)) → (∀ e ∈ c.sq, ¬ Spec.overlaps e.op l n) → Spec.aqEmpty c → Spec.State.sound t c l n →
      exec i s = .next (t.fin (c.post d (f (leNat (t.mem.read l n)))))) ∧
    (∀ p l host bs u, acc = (t, .at_ p (.loc l host)) → forwardOf c.sq l n = .bytes bs →
      (t.loadHolds t.cur.1 t.cur.2 c.seq l n c.sq c = (u, false) → exec i s = .next (u.fin (c.post d (f (leNat bs))))) ∧
      (t.loadHolds t.cur.1 t.cur.2 c.seq l n c.sq c = (u, true) → exec i s = .next u) ∧
      (Spec.aqEmpty c → t.loadHolds t.cur.1 t.cur.2 c.seq l n c.sq c = (t, false))) ∧
    (∀ p l host, acc = (t, .at_ p (.loc l host)) → forwardOf c.sq l n = .wait → exec i s = .next t) ∧
    (∀ p, acc = (t, .none_ p) → exec i s = .next (t.fin (c.post d 0))) ∧
    (∀ k, acc = (t, .fail k) → exec i s = t.trap k)

/-- R251, R252: ldb copies a 32-byte image into a record register as it stands; ldq does so with the ring head and tail, bits
[191:128], zero, once no queued entry names the register as a ring. -/
def Sys2Proof.Spec.ImageLoads : Prop :=
  ∀ (s t : State) (c : Core) (n b : BitVec 4) (o : BitVec 15) (p : Word) (l : Nat) (host : Bool),
    s.Runs c → c.here [.b b] = true → c.recon = false →
    s.through s.cur.1 s.cur.2 (!c.x.priv) (recOf (c.gb b)) o.toInt ⟨32, 32, false, true⟩ = (t, .at_ p (.loc l host)) →
    (∀ e ∈ c.sq, ¬ Spec.overlaps e.op l 32) → Spec.aqEmpty c → Spec.State.sound t c l 32 →
    let m := leNat (t.mem.read l 32)
    exec (.ldb n b o) s = .next (t.fin { c with b := c.b.set n.toNat (.ofNat 256 m), absent := c.absent.filter (· != .b n) }) ∧
    (c.ringBusy n = false → exec (.ldq n b o) s = .next (t.fin { c with
      q := c.q.set n.toNat (.ofNat 256 (m % 2 ^ 128 + m / 2 ^ 192 * 2 ^ 192)), absent := c.absent.filter (· != .q n)
      lapped := c.lapped &&& ~~~ .twoPow 16 n.toNat })) ∧
    (c.ringBusy n = true → exec (.ldq n b o) s = .next s)

/-- R248, R251, R253: a store that passes its checks enters the store queue with its location, its bytes and its record's
colour, or, through space 4, as a store to the peer; where bounds mode zero discards it, it has no effect; a full queue or a
busy ring holds it; a fault traps. It writes no byte of memory and no register at issue. -/
def Sys2Proof.Spec.ScalarStores : Prop :=
  ∀ (s t : State) (c : Core) (i : Instr) (rs : List (BitVec 5)) (bank : List BankReg) (b : BitVec 4) (o : BitVec 15) (n : Nat)
    (f : Core → List Byte),
    Spec.storeOf i = some (rs, bank, b, o, n, f) → s.Runs c → c.free rs [] = true → c.here (.b b :: bank) = true →
    let acc := s.through s.cur.1 s.cur.2 (!c.x.priv) (recOf (c.gb b)) o.toInt ⟨n, n, true, false⟩
    let colour := (recOf (c.gb b)).colour
    (64 ≤ c.sq.length ∨ Spec.ringHeld c i = true → exec i s = .next s) ∧
    (c.sq.length < 64 → Spec.ringHeld c i = false →
      (∀ p l host, acc = (t, .at_ p (.loc l host)) →
        exec i s = .next (t.fin { c with sq := c.sq ++ [⟨.store l (f c), colour, c.seq⟩] })) ∧
      (∀ p port a, acc = (t, .at_ p (.peer port a)) →
        exec i s = .next (t.fin { c with sq := c.sq ++ [⟨.remote port (.store a (f c)) 0, colour, c.seq⟩] })) ∧
      (∀ p, acc = (t, .none_ p) → exec i s = .next (t.fin c)) ∧
      (∀ k, acc = (t, .fail k) → exec i s = t.trap k))

/-- R231, R253, R357, R384: when a store-queue entry of a herd that spills nothing performs, it leaves the queue, and exactly the
bytes it stores change; bytes that lie in a retired group discard them. An entry that may not perform yet stays: an earlier
overlapping entry of its core's queue holds it back. -/
def Sys2Proof.Spec.StorePerforms : Prop :=
  ∀ (s u : State) (h c idx l : Nat) (x : Core) (y : Herd) (bs : List Byte) (colour : BitVec 3) (q : Nat),
    s.Has h c x → s.herds[h]? = some y → y.old = none → x.sq[idx]? = some ⟨.store l bs, colour, q⟩ →
    (l + bs.length - 1) / 2 ^ 20 = l / 2 ^ 20 →
    ((∃ e ∈ x.sq.take idx, Spec.overlaps e.op l bs.length) → exec (.storePerform h c idx) s = .next s) ∧
    (s.mayPerform h c x idx ⟨.store l bs, colour, q⟩ = (u, false) → exec (.storePerform h c idx) s = .next u ∧ u.mem = s.mem) ∧
    (s.mayPerform h c x idx ⟨.store l bs, colour, q⟩ = (u, true) →
      ∃ t, exec (.storePerform h c idx) s = .next t ∧ t.Has h c { x with sq := x.sq.eraseIdx idx } ∧
        (∀ a, (a < l ∨ l + bs.length ≤ a) → t.mem.byte a = s.mem.byte a) ∧
        (∀ i, i < bs.length → t.mem.byte (l + i) = if s.inDeadGroup (l + i) then s.mem.byte (l + i) else bs.getD i 0)) ∧
    ((∀ e ∈ x.sq.take idx, ¬ Spec.overlaps e.op l bs.length) → x.vlands = [] → Spec.aqEmpty x →
      s.mayPerform h c x idx ⟨.store l bs, colour, q⟩ = (s, true))

/-- R1: reading after a write gives the written bytes, and every other byte as before; a number of n bytes comes back from its
bytes, least significant first. -/
def Sys2Proof.Spec.MemoryReadAfterWrite : Prop :=
  (∀ (m : Mem) (a x : Nat) (bs : List Byte),
    (m.write a bs).byte x = if a ≤ x ∧ x < a + bs.length then bs.getD (x - a) 0 else m.byte x) ∧
  (∀ (m : Mem) (a : Nat) (bs : List Byte), (m.write a bs).read a bs.length = bs) ∧
  (∀ n x, leNat (leBytes n x) = x % 256 ^ n)

/-- R138 to R142, R165: branches, jumps and calls of strays and of attached cores, and the split of an attached set. -/
def Obligations.BranchesAndJumps : Prop := Spec.ConditionalBranches ∧ Spec.Jumps ∧ Spec.BranchResolutionSplits

/-- R217, R222: the checks of a record and of a space. -/
def Obligations.AccessChecks : Prop := Spec.RecordChecks ∧ Spec.SpaceChecks

/-- R248 to R252: scalar loads, and loads of records and streams. -/
def Obligations.Loads : Prop := Spec.StoreForwarding ∧ Spec.ScalarLoads ∧ Spec.ImageLoads

/-- R253, R254: stores enter the store queue, and memory holds what performs. -/
def Obligations.Stores : Prop := Spec.ScalarStores ∧ Spec.StorePerforms ∧ Spec.MemoryReadAfterWrite
/-! ## Atomics -/

namespace Sys2Proof.Spec

/-- The atomics of R367: operation, result register, record, offset in units, bytes, operand and compare value. -/
def atomicOf : Instr → Option (AmoOp × BitVec 5 × BitVec 4 × BitVec 10 × Nat × (Core → Word) × (Core → Word))
  | .amoaddW s b o => some (.add, s, b, o, 4, fun c => c.gs s, fun _ => 0)
  | .amoandW s b o => some (.and, s, b, o, 4, fun c => c.gs s, fun _ => 0)
  | .amoorW s b o => some (.or, s, b, o, 4, fun c => c.gs s, fun _ => 0)
  | .amoxorW s b o => some (.xor, s, b, o, 4, fun c => c.gs s, fun _ => 0)
  | .amominW s b o => some (.min, s, b, o, 4, fun c => c.gs s, fun _ => 0)
  | .amomaxW s b o => some (.max, s, b, o, 4, fun c => c.gs s, fun _ => 0)
  | .amominuW s b o => some (.minu, s, b, o, 4, fun c => c.gs s, fun _ => 0)
  | .amomaxuW s b o => some (.maxu, s, b, o, 4, fun c => c.gs s, fun _ => 0)
  | .amoswapW s b o => some (.swap, s, b, o, 4, fun c => c.gs s, fun _ => 0)
  | .amocasW p b o => some (.cas, p ++ 0#1, b, o, 4, fun c => c.gs (p ++ 1#1), fun c => c.gs (p ++ 0#1))
  | .amofaddF32 s b o => some (.fadd, s, b, o, 4, fun c => c.gs s, fun _ => 0)
  | .amoaddD s b o => some (.add, s, b, o, 8, fun c => c.gs s, fun _ => 0)
  | .amoandD s b o => some (.and, s, b, o, 8, fun c => c.gs s, fun _ => 0)
  | .amoorD s b o => some (.or, s, b, o, 8, fun c => c.gs s, fun _ => 0)
  | .amoxorD s b o => some (.xor, s, b, o, 8, fun c => c.gs s, fun _ => 0)
  | .amominD s b o => some (.min, s, b, o, 8, fun c => c.gs s, fun _ => 0)
  | .amomaxD s b o => some (.max, s, b, o, 8, fun c => c.gs s, fun _ => 0)
  | .amominuD s b o => some (.minu, s, b, o, 8, fun c => c.gs s, fun _ => 0)
  | .amomaxuD s b o => some (.maxu, s, b, o, 8, fun c => c.gs s, fun _ => 0)
  | .amoswapD s b o => some (.swap, s, b, o, 8, fun c => c.gs s, fun _ => 0)
  | .amocasD p b o => some (.cas, p ++ 0#1, b, o, 8, fun c => c.gs (p ++ 1#1), fun c => c.gs (p ++ 0#1))
  | _ => none

/-- The scalar registers that an atomic reads. -/
def atomicReads (op : AmoOp) (d : BitVec 5) : List (BitVec 5) := if op = .cas then [d, d ||| 1] else [d]

/-- What R367 stores for an old value x, an operand v and a compare value k of n bytes; nothing where a cas fails. -/
def stored (op : AmoOp) (n x v k : Nat) : Option Nat :=
  let m := 256 ^ n
  match op with
  | .add => some ((x + v) % m)
  | .and => some (x % m &&& v % m)
  | .or => some (x % m ||| v % m)
  | .xor => some (x % m ^^^ v % m)
  | .min => some (if Int.bmod x m ≤ Int.bmod v m then x % m else v % m)
  | .max => some (if Int.bmod x m ≤ Int.bmod v m then v % m else x % m)
  | .minu => some (min (x % m) (v % m))
  | .maxu => some (max (x % m) (v % m))
  | .swap => some (v % m)
  | .cas => if x % m = k % m then some (v % m) else none
  | .fadd => some (roundTo F32 .rne false (Machine.Num.add .rne (F32.decode (x % m)) (F32.decode (v % m))))

/-- What the register receives of an old value x of n bytes (R367): sign-extended, or zero-extended for fadd. -/
def returned (op : AmoOp) (n x : Nat) : Word := if op = .fadd then .ofNat 64 x else .ofInt 64 (Int.bmod x (256 ^ n))

end Sys2Proof.Spec

/-- R253, R366 to R368: an atomic that passes its checks at a sound location enters the store queue, its register pending; one
of a host page other than add, swap and cas traps; one that bounds mode zero discards returns 0; a fault traps; a full queue
holds it. No register but the result register, and no byte of memory, changes at issue. -/
def Sys2Proof.Spec.AtomicsEnterTheStoreQueue : Prop :=
  ∀ (s t : State) (c : Core) (i : Instr) (op : AmoOp) (d : BitVec 5) (b : BitVec 4) (o : BitVec 10) (n : Nat) (v k : Core → Word),
    Spec.atomicOf i = some (op, d, b, o, n, v, k) → s.Runs c → c.free (Spec.atomicReads op d) [d] = true →
    c.here [.b b] = true →
    let r := recOf (c.gb b)
    let acc := s.through s.cur.1 s.cur.2 (!c.x.priv) r (o.toNat * n : Nat) ⟨n, n, true, false⟩
    (64 ≤ c.sq.length → exec i s = .next s) ∧
    (c.sq.length < 64 →
      (∀ p l host, acc = (t, .at_ p (.loc l host)) → (host = false ∨ op = .add ∨ op = .swap ∨ op = .cas) →
        t.readUnits false (unitsOf l n) = (t, []) →
        exec i s = .next (t.fin { c.setPend d true with sq := c.sq ++ [⟨.amo op l n (v c) (k c) d, r.colour, c.seq⟩] })) ∧
      (∀ p l, acc = (t, .at_ p (.loc l true)) → op ≠ .add → op ≠ .swap → op ≠ .cas → exec i s = t.trap (.bounds false p)) ∧
      (∀ p, acc = (t, .none_ p) → exec i s = .next (t.fin (c.post d 0))) ∧
      (∀ q, acc = (t, .fail q) → exec i s = t.trap q))

/-- R253, R384, R385: an atomic through space 4 enters the store queue, its register pending; over a port that is down it is not
performed, and traps with the peer-down indication. It goes out behind the core's earlier accesses to that port, and its register
then receives what the peer returns, a value nothing constrains (log 16). A port that has gone down since lets nothing out, and the
core takes the trap (log 66). -/
def Sys2Proof.Spec.RemoteAtomics : Prop :=
  (∀ (s t : State) (c : Core) (i : Instr) (op : AmoOp) (d : BitVec 5) (b : BitVec 4) (o : BitVec 10) (n : Nat) (v k : Core → Word)
    (p : Word) (port : Bool) (a : Nat),
    Spec.atomicOf i = some (op, d, b, o, n, v, k) → s.Runs c → c.free (Spec.atomicReads op d) [d] = true →
    c.here [.b b] = true → c.sq.length < 64 →
    s.through s.cur.1 s.cur.2 (!c.x.priv) (recOf (c.gb b)) (o.toNat * n : Nat) ⟨n, n, true, false⟩ =
      (t, .at_ p (.peer port a)) →
    (t.ports.getD port.toNat false = false → exec i s = t.trap (.bounds true p)) ∧
    (t.ports.getD port.toNat false = true → exec i s = .next (t.fin { c.setPend d true with
      sq := c.sq ++ [⟨.remote port (.amo (.ofNat 5 (amoCode op)) a n (v c) (k c)) d, (recOf (c.gb b)).colour, c.seq⟩] }))) ∧
  (∀ (s : State) (h c idx : Nat) (x : Core) (y : Herd) (port : Bool) (op : RemoteOp) (d : BitVec 5) (colour : BitVec 3) (q : Nat),
    s.Has h c x → s.herds[h]? = some y → y.old = none → x.sq[idx]? = some ⟨.remote port op d, colour, q⟩ →
    ((∃ e ∈ x.sq.take idx, ∃ f g, e.op = .remote port f g) → exec (.storePerform h c idx) s = .next s) ∧
    ((∀ e ∈ x.sq.take idx, ∀ f g, e.op ≠ .remote port f g) → s.ports.getD port.toNat false = true → ∃ t,
      exec (.storePerform h c idx) s = .next t ∧ t.sent = s.sent ++ [⟨port, op⟩] ∧ t.mem = s.mem ∧
      (∀ a bs, op = .store a bs → t.Has h c { x with sq := x.sq.eraseIdx idx }) ∧
      (∀ code a n v k, op = .amo code a n v k → ∃ old, t.Has h c { x with
        sq := x.sq.eraseIdx idx
        landings := if d = 0 then x.landings else x.landings ++ [⟨d, old⟩] })) ∧
    ((∀ e ∈ x.sq.take idx, ∀ f g, e.op ≠ .remote port f g) → s.ports.getD port.toNat false = false → ∃ t z,
      exec (.storePerform h c idx) s = .next t ∧ t.sent = s.sent ∧ t.mem = s.mem ∧ t.Has h c z ∧ z.sq = x.sq.eraseIdx idx ∧
      (∀ a bs, op = .store a bs → z = { x with sq := x.sq.eraseIdx idx, lost := x.lost ||| (1#8 <<< colour.toNat) } ∧
        t.logged = s.logged + 1) ∧
      (∀ code a n v k, op = .amo code a n v k → x.front ≠ .halted → x.swapped = false → x.block = none → x.x.intrap = false →
        z.x.xcause = 0x104 ∧ z.x.priv = true ∧ z.x.xepc = .ofNat 64 (x.join.getD x.pc).toNat ∧
        z.x.xtval.toNat = 2 ^ 63 + 2 ^ 56 * port.toNat + a % 2 ^ 56)))

/-- R357, R367: when an atomic's entry performs in a herd that spills nothing, it reads and writes its n bytes in one step as
the rule's table gives, touches no other byte, and returns the old value to its register; rows of a retired group discard the
write (R231). An object in error returns a value nothing constrains (log 64). -/
def Sys2Proof.Spec.AtomicsPerform : Prop :=
  ∀ (s u : State) (h c idx l n : Nat) (x : Core) (y : Herd) (op : AmoOp) (v k : Word) (d : BitVec 5) (colour : BitVec 3) (q : Nat),
    s.Has h c x → s.herds[h]? = some y → y.old = none → x.sq[idx]? = some ⟨.amo op l n v k d, colour, q⟩ →
    (n = 4 ∨ n = 8) → (op = .fadd → n = 4) → (l + n - 1) / 2 ^ 20 = l / 2 ^ 20 →
    s.mayPerform h c x idx ⟨.amo op l n v k d, colour, q⟩ = (u, true) →
    let old := leNat (s.mem.read l n)
    ∃ t, exec (.storePerform h c idx) s = .next t ∧
      (∀ a, (a < l ∨ l + n ≤ a) → t.mem.byte a = s.mem.byte a) ∧
      ((∀ i, i < n → s.inDeadGroup (l + i) = true) → ∀ a, t.mem.byte a = s.mem.byte a) ∧
      (u.readUnits false (unitsOf l n) = (u, []) →
        t.Has h c { x with sq := x.sq.eraseIdx idx
                           landings := if d = 0 then x.landings else x.landings ++ [⟨d, Spec.returned op n old⟩] } ∧
        (Spec.stored op n old v.toNat k.toNat = none → ∀ a, t.mem.byte a = s.mem.byte a) ∧
        ∀ w, Spec.stored op n old v.toNat k.toNat = some w → leNat (t.mem.read l n) = w)

/-! ## Fences, spinning and barriers -/

/-- R363: fence.c waits until the core's earlier loads and atomics have performed and its masked stores and vector writes are
visible, and then goes on; at system scope a lost remote store of a masked colour is reported once by a trap. -/
def Obligations.Fences : Prop :=
  ∀ (s : State) (c : Core) (mask : BitVec 8) (scope : Scope), s.Runs c →
    let drained := (∀ q ∈ c.aq, q = []) ∧ (∀ e ∈ c.sq, e.op.isAmo = false ∧ mask.getLsbD e.colour.toNat = false) ∧
      ∀ v ∈ c.vlands, mask.getLsbD v.colour.toNat = true → ∀ u ∈ v.targets, u.cells = []
    (¬ drained → exec (.fenceC mask scope) s = .next s) ∧
    (drained → (scope ≠ .system ∨ c.lost &&& mask = 0) → exec (.fenceC mask scope) s = .next (s.fin c)) ∧
    (drained → scope = .system → c.lost &&& mask ≠ 0 →
      exec (.fenceC mask scope) s = (s.putMy { c with lost := c.lost &&& ~~~mask }).trap (.bounds true 0))

namespace Sys2Proof.Spec

/-- The object words of R364, R375 and R378: value register, record, offset register, bytes, whether it writes, and the spaces
in which its object may lie. -/
def objectWord : Instr → Option (BitVec 5 × BitVec 4 × BitVec 5 × Nat × Bool × List Nat)
  | .barr d b a => some (d, b, a, 16, true, [0, 3])
  | .bwait d b a => some (d, b, a, 16, false, [0, 3])
  | .pbarr d b a => some (d, b, a, 8, true, [1, 2])
  | .pbwait d b a => some (d, b, a, 8, false, [1, 2])
  | _ => none

/-- A barrier object's first doubleword after an arrival of count d with status e (R372): phase, generation, first error,
pending. -/
def afterArrival (b : Bar) (d : Nat) (e : Byte) : Word :=
  let left := b.dw0.toNat / 2 ^ 32 - d
  let adv := b.dw0.toNat / 2 ^ 32 ≠ 0 ∧ left = 0
  let phase := if adv then (b.dw0.toNat % 2 ^ 16 + 1) % 2 ^ 16 else b.dw0.toNat % 2 ^ 16
  let err := if b.dw0.toNat / 2 ^ 24 % 256 = 0 then e.toNat else b.dw0.toNat / 2 ^ 24 % 256
  let pending := if adv then b.dw1.toNat % 2 ^ 32 else left
  .ofNat 64 (phase + 2 ^ 16 * (b.dw0.toNat / 2 ^ 16 % 256) + 2 ^ 24 * err + 2 ^ 32 * pending)

/-- A short barrier after an arrival of count d (R378): pending in [23:0], reload in [47:24], parity in [63]. -/
def afterShortArrival (w : Word) (d : Nat) : Word :=
  let pending := w.toNat % 2 ^ 24
  let reload := w.toNat / 2 ^ 24 % 2 ^ 24
  if pending = 0 then w
  else if pending - d = 0 then .ofNat 64 (reload + 2 ^ 24 * reload + 2 ^ 63 * (1 - w.toNat / 2 ^ 63))
  else .ofNat 64 (pending - d + 2 ^ 24 * reload + 2 ^ 63 * (w.toNat / 2 ^ 63))

end Sys2Proof.Spec

/-- R372: what an arrival at the object at a location tells the waiters, the memory aside: a core that waits there in bwait, and a
queue that waits there in WAIT, are woken where the object has reached their phase, by this arrival and not by a later look. Every
other core and queue stays as it is. R378: the same of a short barrier, the cores in pbwait there and the parity. -/
def Sys2Proof.Spec.ArrivalsWake : Prop :=
  ∀ (s : State) (l : Nat) (b : Bar) (w : Word),
    let reached (t : BitVec 16) : Prop := ((b.dw0.toNat : Int) - t.toNat) % 2 ^ 16 < 2 ^ 15
    (s.tellWaiters l b).mem = s.mem ∧
    (∀ h c x, s.Has h c x →
      (∀ p t m, x.block = some (.bwait l p t m) → reached t → (s.tellWaiters l b).Has h c { x with block := some (.bwait l p t true) }) ∧
      ((∀ p t m, x.block = some (.bwait l p t m) → ¬ reached t) → (s.tellWaiters l b).Has h c x) ∧
      (∀ p t m, x.block = some (.pbwait l p t m) → t = decide (w.toNat / 2 ^ 63 = 1) →
        (s.tellCores (Block.toldShort l w)).Has h c { x with block := some (.pbwait l p t true) }) ∧
      ((∀ p t m, x.block = some (.pbwait l p t m) → t ≠ decide (w.toNat / 2 ^ 63 = 1)) →
        (s.tellCores (Block.toldShort l w)).Has h c x)) ∧
    (∀ (n : Nat) (q : Queue), s.tahr.queues[n]? = some q →
      (∀ w, q.wait = some w → w.loc = l → isHost l = false → reached w.phase → w.met = none →
        (s.tellWaiters l b).tahr.queues[n]? = some { q with wait := some { w with met := some (.ofNat 8 (b.dw0.toNat / 2 ^ 24)) } }) ∧
      ((∀ w, q.wait = some w → w.loc ≠ l ∨ ¬ reached w.phase ∨ w.met ≠ none) → (s.tellWaiters l b).tahr.queues[n]? = some q))

/-- R372, R375, R378: barr and pbarr whose checks reach an object behind the core's own writes to it make one arrival there, once the
core's stores in the released colours are visible, wake those who wait for what it brings, and go on; a malformed object traps and is
not changed. -/
def Sys2Proof.Spec.BarrierArrivals : Prop :=
  ∀ (s t : State) (c : Core) (i : Instr) (d : BitVec 5) (b : BitVec 4) (a : BitVec 5) (n : Nat) (spaces : List Nat) (l : Nat) (p : Word),
    Spec.objectWord i = some (d, b, a, n, true, spaces) → s.Runs c → c.free [d, a] [] = true → c.here [.b b] = true →
    s.object s.cur.1 s.cur.2 (!c.x.priv) (recOf (c.gb b)) (c.gs a).toInt n true spaces = (t, .at_ l p) →
    let mask : BitVec 8 := if (c.gs d).toNat / 2 ^ 40 % 256 = 0 then 255 else .ofNat 8 ((c.gs d).toNat / 2 ^ 40)
    let bar := t.barAt l
    let short : Word := .ofNat 64 (leNat (t.mem.read l 8))
    (¬ Spec.settled c l n → exec i s = .next t) ∧
    (Spec.settled c l n → t.readUnits false (unitsOf l n) = (t, []) →
      (c.drained mask = false → exec i s = .next t) ∧
      (c.drained mask = true → n = 16 → bar.malformed = true → exec i s = t.trap (.bounds false p)) ∧
      (c.drained mask = true → n = 16 → bar.malformed = false →
        let after := Spec.afterArrival bar ((c.gs d).toNat % 2 ^ 32) (.ofNat 8 ((c.gs d).toNat / 2 ^ 32))
        exec i s = .next (((t.writeLoc l (leBytes 8 after.toNat ++ leBytes 8 bar.dw1.toNat)).tellWaiters l ⟨after, bar.dw1⟩).fin c)) ∧
      (c.drained mask = true → n = 8 → short.toNat / 2 ^ 48 % 2 ^ 15 ≠ 0 → exec i s = t.trap (.bounds false p)) ∧
      (c.drained mask = true → n = 8 → short.toNat / 2 ^ 48 % 2 ^ 15 = 0 →
        let after := Spec.afterShortArrival short ((c.gs d).toNat % 2 ^ 24)
        exec i s = .next (((t.writeLoc l (leBytes 8 after.toNat)).tellCores (Block.toldShort l after)).fin c)))

/-- R364, R374, R375, R378: bwait, pbwait and spinw read their object behind the core's own writes to it and, as acquires, behind its
access-queue loads (R256, R361). They go on where the phase is reached, the parity is the one asked for, or the eight bytes differ from
rd; otherwise the core waits in its word, and changes nothing else. A malformed object traps. -/
def Sys2Proof.Spec.WaitingWords : Prop :=
  ∀ (s t : State) (c : Core) (d : BitVec 5) (b : BitVec 4) (a : BitVec 5) (l : Nat) (p : Word),
    s.Runs c → c.free [d, a] [] = true → c.here [.b b] = true →
    let r := recOf (c.gb b)
    let o := (c.gs a).toInt
    let v := c.gs d
    let now8 := leNat (t.mem.read l 8)
    (s.object s.cur.1 s.cur.2 (!c.x.priv) r o 16 false [0, 3] = (t, .at_ l p) → Spec.settled c l 16 →
      t.readUnits false (unitsOf l 16) = (t, []) →
      ((t.barAt l).malformed = true → exec (.bwait d b a) s = t.trap (.bounds false p)) ∧
      ((t.barAt l).malformed = false → ¬ Spec.aqEmpty c → exec (.bwait d b a) s = .next t) ∧
      ((t.barAt l).malformed = false → Spec.aqEmpty c → exec (.bwait d b a) s = .next
        (if ((now8 : Int) - v.toNat) % 2 ^ 16 < 2 ^ 15 then t.fin c
          else t.putMy { c with block := some (.bwait l p (.ofNat 16 v.toNat) false) }))) ∧
    (s.object s.cur.1 s.cur.2 (!c.x.priv) r o 8 false [1, 2] = (t, .at_ l p) → Spec.settled c l 8 →
      t.readUnits false (unitsOf l 8) = (t, []) →
      (now8 / 2 ^ 48 % 2 ^ 15 ≠ 0 → exec (.pbwait d b a) s = t.trap (.bounds false p)) ∧
      (now8 / 2 ^ 48 % 2 ^ 15 = 0 → ¬ Spec.aqEmpty c → exec (.pbwait d b a) s = .next t) ∧
      (now8 / 2 ^ 48 % 2 ^ 15 = 0 → Spec.aqEmpty c → exec (.pbwait d b a) s = .next
        (if now8 / 2 ^ 63 = v.toNat % 2 then t.fin c
          else t.putMy { c with block := some (.pbwait l p (decide (v.toNat % 2 = 1)) false) }))) ∧
    (¬ Spec.aqEmpty c → exec (.spinw d b a) s = .next s) ∧
    (∀ host, s.through s.cur.1 s.cur.2 (!c.x.priv) r o ⟨8, 8, false, true⟩ = (t, .at_ p (.loc l host)) → c.recon = false →
      Spec.aqEmpty c → (∀ e ∈ c.sq, ¬ Spec.overlaps e.op l 8) → Spec.State.sound t c l 8 →
      exec (.spinw d b a) s = .next
        (if now8 ≠ v.toNat then t.fin c else t.putMy { c with block := some (.spinw l p v) }))

/-- R364, R372, R374, R378: a wake event lets a core that waits in the word of its kind go on behind it where an arrival has woken it,
or once what it waits for holds, and otherwise changes nothing. -/
def Sys2Proof.Spec.WaitersWake : Prop :=
  ∀ (s : State) (h c : Nat) (x : Core), s.Has h c x →
    let woken (t : State) := t.modCore h c fun _ => { ({ x with block := none } : Core).advance 4 with issueAt := s.now + 1 }
    (∀ l p t, x.block = some (.bwait l p t true) → exec (.barrierWaiterWake h c) s = .next (woken s)) ∧
    (∀ l p t, x.block = some (.bwait l p t false) → s.readUnits false (unitsOf l 16) = (s, []) → exec (.barrierWaiterWake h c) s = .next
      (if ((leNat (s.mem.read l 8) : Int) - t.toNat) % 2 ^ 16 < 2 ^ 15 then woken s else s)) ∧
    (∀ l p b, x.block = some (.pbwait l p b true) → exec (.shortBarrierWake h c) s = .next (woken s)) ∧
    (∀ l p b, x.block = some (.pbwait l p b false) → s.readUnits false (unitsOf l 8) = (s, []) → exec (.shortBarrierWake h c) s = .next
      (if decide (leNat (s.mem.read l 8) / 2 ^ 63 = 1) = b then woken s else s)) ∧
    (∀ l p v, x.block = some (.spinw l p v) → (∀ e ∈ x.sq, ¬ Spec.overlaps e.op l 8) → Spec.aqEmpty x → x.recon = false →
      Spec.State.sound s x l 8 →
      let u : State := { s with cur := (h, c) }
      exec (.spinwWake h c) s = .next (if leNat (s.mem.read l 8) ≠ v.toNat then woken u else u)) ∧
    (x.block = none → exec (.barrierWaiterWake h c) s = .next s ∧ exec (.shortBarrierWake h c) s = .next s ∧
      exec (.spinwWake h c) s = .next s)

/-! ## Semaphores -/

/-- R176, R179: ksig adds its count to the semaphore once the core's stores are visible, or traps on an overflow with the count
unchanged. In one ck the signals of a semaphore come by ascending core rank and before any grant: a ksig behind a grant, or behind a
ksig of its rank or a higher one, waits for the next ck. kwait, an acquire (R256), waits for the core's access-queue loads, and behind
a grant for the next ck; then the core joins the waiters, and its grant lets it go on. -/
def Sys2Proof.Spec.SemaphoreWords : Prop :=
  ∀ (s : State) (c : Core) (x : HerdCtx) (k : BitVec 8) (n : BitVec 4), s.Runs c → s.ctx? s.cur.1 = some x →
    let count := (x.k.getD k.toNat 0).toNat
    let granted : Bool := decide (x.turn.ck = s.now) && x.turn.granted
    let before : List (BitVec 8 × Nat) := if x.turn.ck = s.now then x.turn.sigs else []
    let late : Prop := granted = true ∨ ∃ e ∈ before, e.1 = k ∧ s.cur.2 ≤ e.2
    (c.drained 255 = false ∨ late → exec (.ksig k n) s = .next s) ∧
    (c.drained 255 = true → ¬ late → count + n.toNat ≤ 65535 →
      exec (.ksig k n) s = .next ((s.fin c).modCtx s.cur.1 fun y => { y with
        k := y.k.set k.toNat (.ofNat 16 (count + n.toNat)), turn := ⟨s.now, false, before ++ [(k, s.cur.2)]⟩ })) ∧
    (c.drained 255 = true → ¬ late → 65535 < count + n.toNat → exec (.ksig k n) s = s.trap (.semOverflow k)) ∧
    (granted = true ∨ ¬ Spec.aqEmpty c → exec (.kwait k n) s = .next s) ∧
    (granted = false → Spec.aqEmpty c →
      exec (.kwait k n) s = .next (s.putMy { c with block := some (.kwait k n.toNat s.now) }))

/-- R177: SEMAPHORE_GRANT serves the oldest waiter alone, and only where the count holds its units: a core in kwait goes on
behind it, or a queue's head is granted; the count falls by the units. A waiter that cannot be served lets none behind it
pass. -/
def Sys2Proof.Spec.SemaphoreGrants : Prop :=
  ∀ (s : State) (h : Nat) (x : HerdCtx) (k : BitVec 8), s.ctx? h = some x →
    (x.waiters k = [] → exec (.semaphoreGrant h k) s = .next s) ∧
    (∀ w ∈ x.waiters k, (∀ v ∈ x.waiters k, v ≠ w → w.age < v.age ∨ w.age = v.age ∧ w.place < v.place) →
      let count := (x.k.getD k.toNat 0).toNat
      (count < w.n → exec (.semaphoreGrant h k) s = .next s) ∧
      (w.n ≤ count → ∃ t, exec (.semaphoreGrant h k) s = .next t ∧
        (∃ y, t.ctx? h = some y ∧ y.k = x.k.set k.toNat (.ofNat 16 (count - w.n)) ∧ y.turn.ck = s.now ∧ y.turn.granted = true) ∧
        (∀ c, x.cores[w.core]? = some c → w.eng = none → t.Has h w.core (c.wake s.now)) ∧
        (∀ c g e r, x.cores[w.core]? = some c → w.eng = some g → c.queue g = e :: r →
          t.Has h w.core (c.setQueue g ({ e with granted := true } :: r))) ∧
        (∀ n, n ≠ w.core → t.core? h n = s.core? h n)))

/-- R255, R366 to R370: atomics enter the store queue, or go to a peer, and perform in one step. -/
def Obligations.Atomics : Prop := Spec.AtomicsEnterTheStoreQueue ∧ Spec.RemoteAtomics ∧ Spec.AtomicsPerform

/-- R364, R372 to R378: arrivals, the words that wait, and their waking. -/
def Obligations.BarriersAndWaits : Prop := Spec.ArrivalsWake ∧ Spec.BarrierArrivals ∧ Spec.WaitingWords ∧ Spec.WaitersWake

/-- R176 to R180: the words of semaphores, and the order of grants. -/
def Obligations.Semaphores : Prop := Spec.SemaphoreWords ∧ Spec.SemaphoreGrants
/-! ## System registers, traps and the return from them -/

/-- R390, R399: xr writes the register's value, sampled at issue, where its row lets the level read it; a register that the row
closes to user level takes the privilege trap. What those of the core's own trap state hold (R391, R392, R405, R245). -/
def Sys2Proof.Spec.SystemRegisterReads : Prop :=
  ∀ (s : State) (c : Core) (rd : BitVec 5) (x : XReg), s.Runs c →
    let userMay : Prop := x ∈ [XReg.xstat, .xctx, .xherd, .xkov, .xcond, .xaqs, .xdsp, .xtherm, .xtemp, .xcyc]
    (c.x.priv = false → ¬ userMay → exec (.xr rd x) s = s.trap (.privilege (firstGranule (.xr rd x)))) ∧
    ((c.x.priv = true ∨ userMay) → c.free [] [rd] = true → c.here [.x x] = true →
      (x = .xcond → c.vlands = []) → (x = .xfres → c.freeReq = none) →
      exec (.xr rd x) s = .next (s.fin (c.ps rd (s.xread c x)))) ∧
    s.xread c .xvec = c.x.xvec ∧ s.xread c .xepc = c.x.xepc ∧ s.xread c .xcause = c.x.xcause ∧
    s.xread c .xtval = c.x.xtval ∧ s.xread c .xscr0 = c.x.xscr0 ∧ s.xread c .xscr1 = c.x.xscr1 ∧
    s.xread c .xfres = c.x.xfres ∧ s.xread c .xrpt = 0 ∧ s.xread c .xfreq = 0 ∧
    (s.xread c .xstat).toNat = c.x.priv.toNat + 2 * c.x.ie.toNat + 4 * c.x.pp.toNat + 8 * c.x.pie.toNat +
      16 * c.x.intrap.toNat + 32 * c.x.np.toNat + 256 * c.x.ncode.toNat

/-- R149, R180, R215, R234, R426, R433, R440, R441: what the registers of the front end, the semaphores, the conditional streams, the
register banks, the die scratchpad, heat and time hold, field by field. -/
def Sys2Proof.Spec.SystemRegisterFields : Prop :=
  ∀ (s : State) (c : Core) (y : Herd) (d : Die), s.Runs c → s.herds[s.cur.1]? = some y → s.dies[s.cur.1 / 16]? = some d →
    let x := y.act
    let xctx := (s.xread c .xctx).toNat
    let xherd := s.xread c .xherd
    let xcond := (s.xread c .xcond).toNat
    let xtemp := (s.xread c .xtemp).toNat
    xctx = (((y.phys[s.cur.2]?).map CorePhys.bank).getD false).toNat + 2 * y.old.isSome.toNat + 256 * min x.evicts 255 ∧
    (∀ i, i < 8 →
      (xherd.getLsbD i = true ↔ ∃ z, x.cores[i]? = some z ∧ z.front = .attached) ∧
      (xherd.getLsbD (8 + i) = true ↔ ∃ z, x.cores[i]? = some z ∧ z.front = .stray) ∧
      (xherd.getLsbD (16 + i) = true ↔ ∃ z, x.cores[i]? = some z ∧ z.front = .halted) ∧
      (xherd.getLsbD (24 + i) = true ↔ ∃ z a, x.cores[i]? = some z ∧ z.join = some a)) ∧
    (c.buf.length ≤ 32 → xherd.toNat / 2 ^ 32 = c.buf.length + 2 ^ 8 * x.mstall.toNat) ∧
    (s.xread c .xkov).toNat = x.kov.toNat + 2 ^ 8 * x.ksem.toNat ∧
    ((∀ i, (c.cs.getD i []).length ≤ 256) → xcond = (c.cs.getD 0 []).length + 2 ^ 9 * (c.cs.getD 1 []).length +
      2 ^ 18 * (c.cs.getD 2 []).length + 2 ^ 27 * (c.cs.getD 3 []).length + 2 ^ 36 * c.csOvf.toNat) ∧
    (s.xread c .xdsp).toNat = d.waysSet % 16 + 16 * d.change.isSome.toNat ∧
    (d.budgets.length = 16 → ∀ i, i < 16 → (s.xread c .xtherm).toNat / 2 ^ (4 * i) % 16 = d.budgets.getD i 0 % 16) ∧
    (∀ z, d.zones[s.cur.1 % 16]? = some z → z.state ≤ 3 →
      xtemp % 2 ^ 8 = min z.temp 255 ∧ xtemp / 2 ^ 8 % 2 ^ 8 = z.state ∧
      (∀ w ∈ d.zones, min w.temp 255 ≤ xtemp / 2 ^ 16) ∧ ∃ w ∈ d.zones, xtemp / 2 ^ 16 = min w.temp 255) ∧
    s.xread c .xcyc = .ofNat 64 (s.now + d.ahead)

/-- The access queue whose held head xaqs and xaqa report is q, and its head is e (R259, R260): the one the core has trapped for, else
the lowest. -/
def Sys2Proof.Spec.reportsHead (c : Core) (q : Nat) (e : AqEntry) (r : List AqEntry) : Prop :=
  q < 4 ∧ c.aq.getD q [] = e :: r ∧ e.held ≠ none ∧
    ∀ j f u, j < 4 → c.aq.getD j [] = f :: u → f.held ≠ none →
      j = q ∨ e.reported = true ∧ f.reported = false ∨ e.reported = false ∧ f.reported = false ∧ q < j

/-- The cause and tkind fields of xaqs (R260). -/
def Sys2Proof.Spec.aqFields : AqCause → Nat
  | .translation k => 64 * k.toNat
  | .bounds => 8 * 1
  | .misalignment => 8 * 2
  | .unrecoverable => 8 * 3

/-- R260: xaqs says which access-queue head is held, why, and how long the core has stalled for data; xaqa holds the head's pointer.
With no held head, fv and xaqa are 0. -/
def Sys2Proof.Spec.AccessQueueStatus : Prop :=
  ∀ (s : State) (c : Core),
    (∀ q e r k, Spec.reportsHead c q e r → e.held = some k → (∀ n, k = .translation n → n.toNat < 8) →
      (s.xread c .xaqs).toNat = 1 + 2 * q + Spec.aqFields k + 2 ^ 16 * c.ldstall.toNat ∧
      s.xread c .xaqa = ptrAt e.base e.off) ∧
    ((∀ j f u, j < 4 → c.aq.getD j [] = f :: u → f.held = none) →
      (s.xread c .xaqs).toNat = 2 ^ 16 * c.ldstall.toNat ∧ s.xread c .xaqa = 0)

namespace Sys2Proof.Spec

/-- The three words that write a system register (R399). -/
inductive XOp where
  | xw | xset | xclr
  deriving DecidableEq, Repr

/-- The word of an operation. -/
def XOp.word (o : XOp) (rs : BitVec 5) (x : XReg) : Instr :=
  match o with
  | .xw => .xw rs x
  | .xset => .xset rs x
  | .xclr => .xclr rs x

/-- What an RW field receives, given the old value and rs (R399). -/
def XOp.value (o : XOp) (old v : Word) : Word :=
  match o with
  | .xw => v
  | .xset => old ||| v
  | .xclr => old &&& ~~~v

/-- The bits of W1C fields that the word clears (R399). -/
def XOp.clears (o : XOp) (v : Word) : Word :=
  match o with
  | .xset => 0
  | _ => v

end Sys2Proof.Spec

/-- R130, R399, with R391, R392, R215, R180, R405, R233, R245 and R260: at supervisor level xw, xset and xclr write RW fields, clear
W1C fields and leave RO and RZ fields; a write of xrpt or xdsp stops issue until its operation is done, one of xfreq starts an
operation, and one of xaqs.zf makes the reported head deliver a zero entry and leave, at once or as soon as its data queue has room. A
WO field reads as zero. No other register, and no byte of memory, changes. -/
def Sys2Proof.Spec.SystemRegisterWrites : Prop :=
  ∀ (s : State) (c : Core) (o : Spec.XOp) (rs : BitVec 5), s.Runs c → c.x.priv = true → c.free [rs] [] = true → c.absent = [] →
    let v := c.gs rs
    let go (k : Core) : Out := .next (s.fin k)
    (∀ x ∈ [XReg.xcause, .xtval, .xctx, .xherd, .xaqa, .xfres, .xtherm, .xtemp, .xcyc], exec (o.word rs x) s = go c) ∧
    exec (o.word rs .xscr0) s = go { c with x := { c.x with xscr0 := o.value c.x.xscr0 v } } ∧
    exec (o.word rs .xscr1) s = go { c with x := { c.x with xscr1 := o.value c.x.xscr1 v } } ∧
    exec (o.word rs .xvec) s = go { c with x := { c.x with xvec := o.value c.x.xvec v &&& 0xFFFFFFFFFFFFFFC0 } } ∧
    exec (o.word rs .xepc) s = go { c with x := { c.x with xepc := o.value c.x.xepc v &&& 0xFFFFFFFFFFFFFFFC } } ∧
    (let n := o.value (s.xread c .xstat) v;
      exec (o.word rs .xstat) s = go { c with x := { c.x with
        ie := n.getLsbD 1, pp := n.getLsbD 2, pie := n.getLsbD 3, intrap := n.getLsbD 4
        np := c.x.np && !(o.clears v).getLsbD 5 } }) ∧
    exec (o.word rs .xcond) s = go { c with csOvf := c.csOvf &&& ~~~(o.clears v).extractLsb' 36 4 } ∧
    exec (o.word rs .xkov) s = .next ((s.fin c).modCtx s.cur.1 fun y =>
      if (o.clears v).getLsbD 0 then { y with kov := false, ksem := 0 } else y) ∧
    (let n := o.value 0 v;
      exec (o.word rs .xrpt) s = go { c with
        block := some (.report (.ofNat 16 n.toNat) (n.getLsbD 16) c.x.xcause c.x.xepc c.x.xtval) }) ∧
    (let n := o.value (s.xread c .xdsp) v;
      exec (o.word rs .xdsp) s = go { c with block := some (.xdsp (n.toNat % 16) false) }) ∧
    (let n := o.value 0 v
      let f : FreeReq := ⟨n.toNat % 16, n.toNat / 2 ^ 4 % 8, n.toNat / 2 ^ 7 % 1024, n.getLsbD 17, n.getLsbD 18,
        n.toNat / 2 ^ 20 % 2 ^ 28⟩;
      c.freeReq = none → exec (o.word rs .xfreq) s = go { c with freeReq := some f }) ∧
    (c.freeReq ≠ none → exec (o.word rs .xfreq) s = .next s) ∧
    (let zf := (o.value (s.xread c .xaqs) v).getLsbD 9;
      (zf = false ∨ (∀ j f u, j < 4 → c.aq.getD j [] = f :: u → f.held = none) → exec (o.word rs .xaqs) s = go c) ∧
      (∀ q e r, Spec.reportsHead c q e r → zf = true →
        ((c.dq.getD q []).length < 64 →
          exec (o.word rs .xaqs) s = go { c with aq := c.aq.set q r, dq := c.dq.modify q (· ++ [0]) }) ∧
        (64 ≤ (c.dq.getD q []).length → exec (o.word rs .xaqs) s = go { c with
          aq := c.aq.set q ({ e with held := none, reported := false, data := some 0 } :: r) })))

/-- R130, R389: at user level every supervisor word takes the privilege trap with its first granule, and has no other effect. -/
def Obligations.SupervisorWordsTrapAtUserLevel : Prop :=
  ∀ (s : State) (c : Core) (i : Instr), s.Runs c → c.x.priv = false →
    ((∃ rs x, i = .xw rs x) ∨ (∃ rs x, i = .xset rs x) ∨ (∃ rs x, i = .xclr rs x) ∨ i = .xret ∨ (∃ a, i = .tlbinv a) ∨
      (∃ a, i = .tlbinvall a)) →
    exec i s = s.trap (.privilege (.ofNat 32 (join32 (encode i))))

/-- R393: the code, the detail and the value that trap entry writes for each cause. -/
def Sys2Proof.Spec.CauseTable : Prop :=
  (∀ g : Granule, (Cause.illegal g).word false = 0x01 ∧ (Cause.illegal g).value = .ofNat 64 g.toNat ∧
    (Cause.privilege g).word false = 0x02 ∧ (Cause.privilege g).value = .ofNat 64 g.toNat) ∧
  (∀ p : Word, (Cause.misalignment p).word false = 0x03 ∧ (Cause.misalignment p).value = p ∧
    (Cause.bounds false p).word false = 0x04 ∧ (Cause.bounds true p).word false = 0x104 ∧ (Cause.bounds false p).value = p ∧
    (Cause.translation 5 p).word false = 0x505 ∧ (Cause.translation 5 p).value = p ∧
    (Cause.reconstruction 1 p).word false = 0x106 ∧ (Cause.reconstruction 1 p).value = p) ∧
  Cause.undeclaredMatrix.word false = 0x07 ∧ Cause.undeclaredMatrix.value = 0 ∧
  (∀ k : BitVec 8, (Cause.semOverflow k).word false = 0x08 ∧ (Cause.semOverflow k).value = .ofNat 64 k.toNat) ∧
  Cause.joinMisuse.word false = 0x09 ∧ Cause.joinMisuse.value = 0 ∧
  (∀ k : BitVec 10, (Cause.trap k).word false = 0x0A ∧ (Cause.trap k).value = .ofNat 64 k.toNat) ∧
  Cause.ebreak.word false = 0x0B ∧ Cause.ebreak.value = 0 ∧
  (∀ k : BitVec 16, (Cause.notice k).word false = 0x0C ∧ (Cause.notice k).value = .ofNat 64 k.toNat) ∧
  (∀ (t : Cause), t.word true = t.word false + 0x10000)

/-- R394, R397: the executing core's trap. With intrap clear, or for a notice, the privilege and ie are saved, the level becomes
supervisor with notices off, xepc, xcause and xtval take the cause's values, a notice is consumed, the word it waited in is
withdrawn, an attached core detaches, the words of its issue buffer are discarded, and it goes on at xvec no earlier than 8 ck later. With intrap set any other cause makes
the core post a report that ends it, and its trap registers stay as they are. Memory, every other herd, and the core's queues,
stores and results on their way stay as they are. -/
def Sys2Proof.Spec.TrapEntry : Prop :=
  ∀ (s : State) (c : Core) (k : Cause), s.Runs c →
    let epc : Word := .ofNat 64 ((c.join.getD c.pc) + .ofNat 56 (if k.code = 0x0A ∨ k.code = 0x0B then 4 else 0)).toNat
    ∃ t, s.trap k = .next t ∧ t.mem = s.mem ∧ (∀ h, h ≠ s.cur.1 → t.ctx? h = s.ctx? h) ∧
      (c.x.intrap = false ∨ k.code = 0x0C → t.Runs { c with
        front := if c.front = .attached then .stray else c.front
        buf := []
        join := none
        block := none
        absent := c.absent.filter fun r => r != .x .xepc && r != .x .xcause && r != .x .xtval
        pc := .ofNat 56 c.x.xvec.toNat
        issueAt := s.now + 8
        x := { c.x with
          pp := c.x.priv, pie := c.x.ie, intrap := true, priv := true, ie := false
          np := c.x.np && decide (k.code ≠ 0x0C)
          xepc := epc, xcause := k.word false, xtval := k.value } }) ∧
      (c.x.intrap = true → k.code ≠ 0x0C → ∃ b, (b = c.buf ∨ c.front ≠ .attached ∧ b = []) ∧ t.Runs { c with
        buf := b
        join := none
        issueAt := s.now + 8
        block := some (.report 0 true (k.word false) epc k.value) })

/-- R400: trap and ebreak raise their causes at every privilege level. -/
def Sys2Proof.Spec.TrapWords : Prop :=
  ∀ (s : State) (c : Core) (code : BitVec 10), s.Runs c →
    exec (.trap code) s = s.trap (.trap code) ∧ exec .ebreak s = s.trap .ebreak

/-- R401, R142: at supervisor level xret takes the pc from xepc, the level from pp and ie from pie, and clears intrap; the core
goes on as a stray, every register keeps its value, and an access-queue head that was trapped for performs again (R259). A word that
took a reconstruction fault, and to which the core returns, reads the bank directly (R229). -/
def Sys2Proof.Spec.ReturnFromTrap : Prop :=
  ∀ (s : State) (c : Core), s.Runs c → c.x.priv = true → c.isAbsent (.x .xepc) = false → c.front ≠ .halted → c.join = none →
    c.block = none →
    ∃ t, exec .xret s = .next t ∧ t.mem = s.mem ∧ (∀ h, h ≠ s.cur.1 → t.ctx? h = s.ctx? h) ∧
      t.Runs { c with
        front := .stray
        pc := .ofNat 56 c.x.xepc.toNat
        buf := []
        issueAt := s.now + 1
        seq := c.seq + 1
        faulted := none
        direct := if c.faulted = some (.ofNat 56 c.x.xepc.toNat) then some (c.seq + 1) else c.direct
        x := { c.x with priv := c.x.pp, ie := c.x.pie, intrap := false }
        aq := c.aq.map fun q => q.map fun e => if e.reported then { e with held := none, reported := false } else e }

/-- R394 to R396, R402: TRAP_ENTRY takes what waits at a core's boundary: the held head of the lowest access queue first, with aq
set in xcause, then a notice where ie allows it, which clears np; with nothing there it changes nothing. That a held head waits while a
handler runs, intrap set, is the model's order (log 23); a notice is taken there. -/
def Sys2Proof.Spec.BoundaryEvents : Prop :=
  ∀ (s : State) (h c : Nat) (x : Core), s.Has h c x → x.front ≠ .halted → x.swapped = false → x.block = none →
    let quiet : Prop := x.x.intrap = true ∨ ∀ q e r, q < 4 → x.aq.getD q [] = e :: r → e.held = none ∨ e.reported = true
    let entered (y : Core) : Prop := y.x.priv = true ∧ y.x.ie = false ∧ y.x.intrap = true ∧ y.x.pp = x.x.priv ∧ y.x.pie = x.x.ie ∧
      y.x.xepc = .ofNat 64 (x.join.getD x.pc).toNat ∧ y.pc = .ofNat 56 x.x.xvec.toNat ∧ y.buf = [] ∧ y.join = none ∧ y.s = x.s ∧ y.v = x.v
    (quiet → x.x.ie = true → x.x.np = true →
      ∃ t y, exec (.trapEntry h c) s = .next t ∧ t.Has h c y ∧ entered y ∧ y.x.np = false ∧
        y.x.xcause = 0x0C ∧ y.x.xtval = .ofNat 64 x.x.ncode.toNat ∧ y.aq = x.aq) ∧
    (quiet → (x.x.ie = false ∨ x.x.np = false) → exec (.trapEntry h c) s = .next s) ∧
    (∀ q e r k, q < 4 → x.aq.getD q [] = e :: r → e.held = some k → e.reported = false → x.x.intrap = false →
      (∀ j f u, j < q → x.aq.getD j [] = f :: u → f.held = none ∨ f.reported = true) →
      ∃ t y, exec (.trapEntry h c) s = .next t ∧ t.Has h c y ∧ entered y ∧ y.x.np = x.x.np ∧ y.x.xtval = ptrAt e.base e.off ∧
        y.x.xcause = .ofNat 64 (2 ^ 16 + match k with
          | .translation n => 0x05 + 256 * n.toNat
          | .bounds => 0x04
          | .misalignment => 0x03
          | .unrecoverable => 0x106) ∧
        y.aq = x.aq.set q ({ e with reported := true } :: r))

/-! ## The front end's words -/

/-- R145: the join release. While some live core of the herd does not wait at a join nothing happens; once all do, those at the
least address become the attached set behind it, and every other live core a stray that waits on. -/
def Sys2Proof.Spec.JoinRelease : Prop :=
  ∀ (x : HerdCtx),
    ((∃ c ∈ x.cores, c.front ≠ .halted ∧ c.join = none) → x.joinRelease = x) ∧
    (∀ l : BitVec 56, (∃ c ∈ x.cores, c.front ≠ .halted ∧ c.join = some l) →
      (∀ c ∈ x.cores, c.front ≠ .halted → ∃ a, c.join = some a ∧ l.toNat ≤ a.toNat) →
      x.joinRelease = { x with
        stream := l + 4
        stopped := false
        diverge := none
        cores := x.cores.map fun c =>
          if c.front = .halted then c
          else if c.join = some l then { c with join := none, front := .attached, pc := l + 4, buf := [] }
          else { c with front := .stray } })

/-- R96, R97, R144 to R148, R150, R184, R402, R427: the words that take no access. join waits at its own address, or traps at
supervisor level; detach makes a stray; iflush of a stray discards the fetched code of every stream and empties every issue buffer of
the herd; halt ends the core and keeps its stores and entries; trigger.n and trigger.g record a cut point once; herdid and qstat write
rd, herdid of an attached core with the attached set that its word was given out to; wait waits for a notice. -/
def Sys2Proof.Spec.FrontEndWords : Prop :=
  ∀ (s : State) (c : Core) (x : HerdCtx), s.Runs c → s.ctx? s.cur.1 = some x →
    (c.x.priv = true → exec .join s = s.trap .joinMisuse) ∧
    (c.x.priv = false → exec .join s = .next ((s.putMy { c with
      join := some c.pc, buf := c.buf.drop 1, seq := c.seq + 1, issueAt := s.now + 1 }).settle s.cur.1)) ∧
    exec .detach s = .next ((s.fin (if c.front = .attached then { c with front := .stray, buf := [] } else c)).settle s.cur.1) ∧
    (c.sq = [] → c.front ≠ .attached → exec .iflush s = .next ((s.fin c).modCtx s.cur.1 fun y =>
      { y with code := [], cores := y.cores.map fun z => { z with buf := [] } })) ∧
    (c.sq = [] → c.front = .attached →
      exec .iflush s = .next ((s.putMy { c with block := some .iflush }).settle s.cur.1)) ∧
    (∃ t, exec .halt s = .next t ∧ t.mem = s.mem ∧ t.Runs { c with
      front := .halted, join := none, block := none, buf := [], loop := none
      cutN := some (c.cutN.getD (c.seq + 1)), cutG := some (c.cutG.getD (c.seq + 1)), seq := c.seq + 1
      cs := [[], [], [], []], aq := [[], [], [], []], dq := [[], [], [], []] }) ∧
    exec .triggerN s = .next (s.fin { c with cutN := some (c.cutN.getD c.seq) }) ∧
    exec .triggerG s = .next (s.fin { c with cutN := some (c.cutN.getD c.seq), cutG := some (c.cutG.getD c.seq) }) ∧
    (let att : BitVec 8 := if c.front = .attached then ((c.buf.head?).map BufWord.att).getD (x.mask Core.isAttached)
        else x.mask Core.isAttached
      ∀ rd, c.free [] [rd] = true → exec (.herdid rd) s = .next (s.fin (c.ps rd (.ofNat 64
        (s.cur.2 + 2 ^ 3 * s.cur.1 + 2 ^ 10 * (s.cur.1 / 16) + 2 ^ 16 * (x.held.map Held.grank).getD 0 +
          2 ^ 24 * att.toNat + 2 ^ 32 * (if c.front = .attached then 1 else 0)))))) ∧
    (∀ rd g, c.free [] [rd] = true → ∃ v : Word, exec (.qstat rd g) s = .next (s.fin (c.ps rd v)) ∧
      ((c.queue g).length < 64 → v.toNat % 64 = (c.queue g).length) ∧
      v.toNat / 2 ^ 32 = (c.done.getD (engineCode g) 0).toNat ∧
      v.toNat / 2 ^ 16 % 256 = (c.last.getD (engineCode g) .ok).code) ∧
    (c.x.np = true → exec .wait s = .next (s.fin c)) ∧
    (c.x.np = false → exec .wait s = .next (s.putMy { c with block := some .notice }))

/-- R138, R144: a word of the shared stream is given to the buffer of every attached core with the attached set that then held, which
is what herdid tells the core, one bit a rank. -/
def Sys2Proof.Spec.Multicast : Prop :=
  ∀ (x : HerdCtx) (w : BufWord) (n i : Nat) (c : Core), x.cores[n]? = some c → i < 8 →
    (x.multicast w).cores[n]? = some (if c.front = .attached then { c with buf := c.buf ++ [w] } else c) ∧
    (x.multicast w).stream = w.next ∧ (x.multicast w).stopped = w.stop ∧
    ((x.mask Core.isAttached).getLsbD i = true ↔ ∃ z, x.cores[i]? = some z ∧ z.front = .attached) ∧
    (∀ (s : State) (h : Nat) (user : Bool) (word : Instr) (a : BitVec 56) (k : Nat), s.ctx? h = some x →
      (s.bufWord h user word a k).att = x.mask Core.isAttached ∧ (s.bufWord h user word a k).word = word ∧
      (s.bufWord h user word a k).addr = a ∧ (s.bufWord h user word a k).len = k)

/-- R243, at supervisor level: tlbinv and tlbinvall stop the core's issue. TLB_INVALIDATION_COMPLETE ends one with every translated
access performed and nothing spilling: what it names is dropped, every core that waits in a word reaches its object anew, and the core
goes on. Where none so waits, no herd or die TLB holds an entry it names, and tlbinvall leaves no walk-cache entry. -/
def Sys2Proof.Spec.TlbInvalidation : Prop :=
  ∀ (s : State) (c : Core), s.Runs c →
    (∀ a, c.x.priv = true → c.free [a] [] = true →
      exec (.tlbinv a) s = .next (s.fin { c with block := some (.tlbinv (some (s.pasidOf s.cur.1)) (some ((c.gs a).toNat % 2 ^ 56))) }) ∧
      exec (.tlbinvall a) s = .next (s.fin { c with
        block := some (.tlbinv (if (c.gs a).toNat % 2 = 1 then none else some (s.pasidOf s.cur.1)) none) })) ∧
    (∀ (h n : Nat) (x : Core) (y : Herd) (p : Option (BitVec 20)) (va : Option Nat), s.Has h n x → s.herds[h]? = some y →
      y.old = none → x.block = some (.tlbinv p va) → s.translatedDone = true →
      exec (.tlbInvalidationComplete h n) s = .next (((s.dropTlb p va).retraceAll).modCore h n fun z =>
        { z with block := none, issueAt := s.now + 1 }) ∧
      ((∀ k m z, s.Has k m z → (∀ l q t, z.block = some (.bwait l q t false) → q.toNat / 2 ^ 61 ≠ 0) ∧
          ∀ l q v, z.block = some (.spinw l q v) → q.toNat / 2 ^ 61 ≠ 0) →
        ∃ t, exec (.tlbInvalidationComplete h n) s = .next t ∧ t.Has h n { x with block := none, issueAt := s.now + 1 } ∧
          t.mem = s.mem ∧
          (∀ z ∈ t.herds, ∀ e ∈ z.tlb, e.named p va = false) ∧ (∀ d ∈ t.dies, ∀ e ∈ d.tlb, e.named p va = false) ∧
          (va = none → ∀ d ∈ t.dies, d.walks = []))) ∧
    (∀ (u : State) (h n l k : Nat) (x : Core) (q v : Word) (t : BitVec 16) (host : Bool), s.Has h n x → q.toNat / 2 ^ 61 = 0 →
      (x.block = some (.bwait l q t false) → s.reach h n (!x.x.priv) q ⟨16, 16, false, false⟩ = (u, .at_ q (.loc k host)) →
        s.retrace h n = u.modCore h n fun z => { z with block := some (.bwait k q t false) }) ∧
      (x.block = some (.spinw l q v) → s.reach h n (!x.x.priv) q ⟨8, 8, false, true⟩ = (u, .at_ q (.loc k host)) →
        s.retrace h n = u.modCore h n fun z => { z with block := some (.spinw k q v) }))

/-- R246: pgdec whose descriptor is a copy-on-write leaf with a count above zero takes one off the count at its home, whose line it
reads with whatever error that holds (R450); the frame
of a count that reaches zero goes on top of its well's list. A descriptor that is none, and a count of zero, trap with the
descriptor's pointer, and no count changes. -/
def Sys2Proof.Spec.SharedPageDecrement : Prop :=
  ∀ (s t : State) (c : Core) (b : BitVec 4) (a : BitVec 5) (p : Word) (l : Nat) (host : Bool),
    s.Runs c → c.quietAccess = true → c.free [a] [] = true → c.here [.b b] = true →
    s.through s.cur.1 s.cur.2 (!c.x.priv) (recOf (c.gb b)) (c.gs a).toInt ⟨16, 16, false, true⟩ = (t, .at_ p (.loc l host)) →
    t.readUnits false (unitsOf l 16) = (t, []) →
    let d := t.descAt l
    let at_ := if PD.alias_ d then PD.home d else l
    let home := t.descAt at_
    let leaf := PD.cow d = true ∧ PD.h d = false ∧ PD.sz d ≤ 8
    let good := leaf ∧ PD.alias_ home = false ∧ PD.cow home = true
    let w := if leaf ∧ PD.alias_ d = true then t.linesSeen [PD.home d] else t
    (¬ good → exec (.pgdec b a) s = w.trap (.translation 5 p)) ∧
    (good → home.dw1.toNat % 2 ^ 16 = 0 → exec (.pgdec b a) s = w.trap (.translation 7 p)) ∧
    (good → 1 < home.dw1.toNat % 2 ^ 16 →
      exec (.pgdec b a) s = .next ((w.writeLoc (at_ + 8) (leBytes 8 (home.dw1.toNat - 1))).fin c)) ∧
    (good → home.dw1.toNat % 2 ^ 16 = 1 →
      let u := w.writeLoc (at_ + 8) (leBytes 8 (home.dw1.toNat - 1))
      exec (.pgdec b a) s = .next (((u.pushFrame (PD.frame home) (PD.sz home)).getD u).fin c))

/-- R130, R390 to R392: what the system registers read as, and what writing them does. -/
def Obligations.SystemRegisters : Prop := Spec.SystemRegisterReads ∧ Spec.SystemRegisterFields ∧ Spec.AccessQueueStatus ∧ Spec.SystemRegisterWrites

/-- R393, R394, R397, R400: the causes, trap entry, and the words that trap. -/
def Obligations.TrapsAreTaken : Prop := Spec.CauseTable ∧ Spec.TrapEntry ∧ Spec.TrapWords

/-- R143 to R150, R97: the join release, and the words of the front end. -/
def Obligations.HerdFrontEnd : Prop := Spec.JoinRelease ∧ Spec.Multicast ∧ Spec.FrontEndWords

/-- R395, R396, R401: the return from a trap, and what is taken at a boundary. -/
def Obligations.ReturnsAndBoundaries : Prop := Spec.ReturnFromTrap ∧ Spec.BoundaryEvents

/-! ## The vector engine -/

namespace Sys2Proof.Spec

/-- Element j of width w of a slice (R187). -/
def slot (w : Nat) (x : Slice) (j : Nat) : Nat := (x.extractLsb' (w * j) w).toNat

/-- An integer element's value (R187, R197). -/
def intVal (t : ElemType) (x : Nat) : Int :=
  if isSigned t then (BitVec.ofNat (elemWidth t) x).toInt else (BitVec.ofNat (elemWidth t) x).toNat

/-- R195: the low w bits of an exact integer, or with sat the nearest value of the type's range. -/
def fitted (t : ElemType) (sat : Bool) (x : Int) : Nat :=
  let w := elemWidth t
  let lo : Int := if isSigned t then -(2 ^ (w - 1) : Nat) else 0
  let hi : Int := if isSigned t then (2 ^ (w - 1) : Nat) - 1 else (2 ^ w : Nat) - 1
  (BitVec.ofInt w (if sat then max lo (min hi x) else x)).toNat

/-- R195, R196: an element's result, exact on integers and rounded once on floating values. -/
def result (h : VHdr) (i : Int) (r : Machine.Num) : Nat :=
  if isF h.ty then roundTo (ffmt h.ty) h.rnd h.sat r else fitted h.ty h.sat i

/-- A computing word: its sources in the order in which it reads them, D last where it is one; the lanes of D that it writes
and the bits of D that it may write; and element j, of a width, of its result. -/
structure Compute where
  hdr   : VHdr
  dst   : Desc
  srcs  : List VSrc
  lanes : Word → Word
  bits  : Slice
  width : Nat
  elem  : Word → List Slice → Nat → Nat

/-- A word of one source, element by element in the active lanes. -/
def each1 (h : VHdr) (d a : Desc) (f : Nat → Nat) : Compute :=
  ⟨h, d, [⟨a, h.ty, false, id⟩], id, .allOnes 2048, elemWidth h.ty, fun _ xs j => f (slot (elemWidth h.ty) (xs.getD 0 0) j)⟩

/-- A word of two sources. -/
def each2 (h : VHdr) (d a b : Desc) (f : Nat → Nat → Nat) : Compute :=
  ⟨h, d, [⟨a, h.ty, false, id⟩, ⟨b, h.ty, false, id⟩], id, .allOnes 2048, elemWidth h.ty, fun _ xs j =>
    f (slot (elemWidth h.ty) (xs.getD 0 0) j) (slot (elemWidth h.ty) (xs.getD 1 0) j)⟩

/-- A word of two sources that reads D as well: f takes D, A and B. -/
def each3 (h : VHdr) (d a b : Desc) (f : Nat → Nat → Nat → Nat) : Compute :=
  ⟨h, d, [⟨a, h.ty, false, id⟩, ⟨b, h.ty, false, id⟩, ⟨d, h.ty, false, id⟩], id, .allOnes 2048, elemWidth h.ty, fun _ xs j =>
    f (slot (elemWidth h.ty) (xs.getD 2 0) j) (slot (elemWidth h.ty) (xs.getD 0 0) j) (slot (elemWidth h.ty) (xs.getD 1 0) j)⟩

/-- R197: floating values in the order of vmin and vmax, a NaN giving way. -/
def lesser (h : VHdr) (great : Bool) (x y : Nat) : Nat :=
  let f := ffmt h.ty
  let key (a : Nat) : Int := if f.negOf a then -1 - (f.magOf a : Int) else f.magOf a
  if isF h.ty then
    if f.isNan x then (if f.isNan y then f.nanOf else y)
    else if f.isNan y then x
    else if great = true then (if key x < key y then y else x) else (if key x < key y then x else y)
  else if great = true then (if intVal h.ty x < intVal h.ty y then y else x)
  else (if intVal h.ty x < intVal h.ty y then x else y)

/-- The words of R197 to R199. The values of vexp2, vlog2, vtanh and vsigm are those of the model's enclosures (log 10). -/
def arithmetic : Instr → Option Compute
  | .vadd h d a b => some (each2 h d a b fun x y =>
      result h (intVal h.ty x + intVal h.ty y) (Machine.Num.add h.rnd (valueOf h.ty x) (valueOf h.ty y)))
  | .vsub h d a b => some (each2 h d a b fun x y =>
      result h (intVal h.ty x - intVal h.ty y) (Machine.Num.add h.rnd (valueOf h.ty x) (valueOf h.ty y).negate))
  | .vmul h d a b => some (each2 h d a b fun x y =>
      result h (intVal h.ty x * intVal h.ty y) (Machine.Num.mul (valueOf h.ty x) (valueOf h.ty y)))
  | .vmulh h d a b => some (each2 h d a b fun x y =>
      fitted h.ty false (intVal h.ty x * intVal h.ty y / 2 ^ elemWidth h.ty))
  | .vmin h d a b => some (each2 h d a b (lesser h false))
  | .vmax h d a b => some (each2 h d a b (lesser h true))
  | .vabs h d a => some (each1 h d a fun x =>
      if isF h.ty then x % 2 ^ (elemWidth h.ty - 1) else fitted h.ty h.sat (intVal h.ty x).natAbs)
  | .vneg h d a => some (each1 h d a fun x =>
      if isF h.ty then (x + 2 ^ (elemWidth h.ty - 1)) % 2 ^ elemWidth h.ty else fitted h.ty h.sat (-intVal h.ty x))
  | .vmac h d a b => some (each3 h d a b fun z x y => fitted h.ty h.sat (intVal h.ty z + intVal h.ty x * intVal h.ty y))
  | .vdot4 h d a b => some
      { each3 h d a b (fun z _ _ => z) with
        width := 32
        elem := fun _ xs i =>
          let q (k : Nat) : Int := intVal h.ty (slot 8 (xs.getD 0 0) (4 * i + k)) * intVal h.ty (slot 8 (xs.getD 1 0) (4 * i + k))
          let t : ElemType := if h.ty = .s8 then .s32 else .z32
          fitted t h.sat (intVal t (slot 32 (xs.getD 2 0) i) + q 0 + q 1 + q 2 + q 3) }
  | .vfma h d a b => some (each3 h d a b fun z x y => roundTo (ffmt h.ty) h.rnd h.sat
      (Machine.Num.add h.rnd (Machine.Num.mul (valueOf h.ty x) (valueOf h.ty y)) (valueOf h.ty z)))
  | .vfms h d a b => some (each3 h d a b fun z x y => roundTo (ffmt h.ty) h.rnd h.sat
      (Machine.Num.add h.rnd (Machine.Num.mul (valueOf h.ty x) (valueOf h.ty y)) (valueOf h.ty z).negate))
  | .vfnma h d a b => some (each3 h d a b fun z x y => roundTo (ffmt h.ty) h.rnd h.sat
      (Machine.Num.add h.rnd (Machine.Num.mul (valueOf h.ty x) (valueOf h.ty y)).negate (valueOf h.ty z)))
  | .vdiv h d a b => some (each2 h d a b fun x y =>
      roundTo (ffmt h.ty) h.rnd h.sat (Machine.Num.div (valueOf h.ty x) (valueOf h.ty y)))
  | .vsqrt h d a => some (each1 h d a fun x => roundTo (ffmt h.ty) h.rnd h.sat (valueOf h.ty x).sqrt)
  | .vrsqrt h d a => some (each1 h d a fun x => roundTo (ffmt h.ty) h.rnd h.sat (valueOf h.ty x).rsqrt)
  | .vrcp h d a => some (each1 h d a fun x =>
      roundTo (ffmt h.ty) h.rnd h.sat (Machine.Num.div (.fin false 1 1) (valueOf h.ty x)))
  | .vexp2 h d a => some (each1 h d a fun x => fExp2 (ffmt h.ty) h.rnd h.sat (valueOf h.ty x))
  | .vlog2 h d a => some (each1 h d a fun x => fLog2 (ffmt h.ty) h.rnd h.sat (valueOf h.ty x))
  | .vtanh h d a => some (each1 h d a fun x => fTanh (ffmt h.ty) h.rnd h.sat (valueOf h.ty x))
  | .vsigm h d a => some (each1 h d a fun x => fSigm (ffmt h.ty) h.rnd h.sat (valueOf h.ty x))
  | .vscale h d a b => some
      { each2 h d a b (fun x y => roundTo (ffmt h.ty) h.rnd h.sat
          ((valueOf h.ty x).scale (BitVec.ofNat (elemWidth h.ty) y).toInt)) with
        srcs := [⟨a, h.ty, false, id⟩, ⟨b, h.ty, true, id⟩] }
  | .vand h d a b => some (each2 h d a b (· &&& ·))
  | .vor h d a b => some (each2 h d a b (· ||| ·))
  | .vxor h d a b => some (each2 h d a b (· ^^^ ·))
  | .vandn h d a b => some (each2 h d a b fun x y => x &&& (2 ^ elemWidth h.ty - 1 - y))
  | .vsll h d a b => some (each2 h d a b fun x y => (BitVec.ofNat (elemWidth h.ty) x <<< y).toNat)
  | .vsrl h d a b => some (each2 h d a b fun x y => (BitVec.ofNat (elemWidth h.ty) x >>> y).toNat)
  | .vsra h d a b => some (each2 h d a b fun x y => ((BitVec.ofNat (elemWidth h.ty) x).sshiftRight y).toNat)
  | .vclz h d a => some (each1 h d a fun x =>
      ((List.range (elemWidth h.ty)).find? fun i => x.testBit (elemWidth h.ty - 1 - i)).getD (elemWidth h.ty))
  | .vpopc h d a => some (each1 h d a fun x => (List.range (elemWidth h.ty)).countP fun i => x.testBit i)
  | .vmov h d a => some (each1 h d a id)
  | .vsel h d a b => some
      ⟨h, d, [⟨a, h.ty, false, id⟩, ⟨b, h.ty, false, fun m => ~~~m⟩], fun _ => .allOnes 64, .allOnes 2048, elemWidth h.ty,
        fun act xs j => slot (elemWidth h.ty) (xs.getD (if act.getLsbD (elemWidth h.ty * j / 32) then 0 else 1) 0) j⟩
  | _ => none

/-- n / d, of the sign given, rounded to an integer (R280): toward zero, down, up, or to the nearest, ties to even. -/
def roundedInt (rnd : Rnd) (neg : Bool) (n d : Nat) : Nat :=
  if rnd = .rtz ∨ rnd = .rdn ∧ neg = false ∨ rnd = .rup ∧ neg = true then n / d
  else if rnd = .rdn ∨ rnd = .rup then (n + d - 1) / d
  else
    let k := (2 * n + d) / (2 * d)
    if (2 * n + d) % (2 * d) = 0 ∧ k % 2 = 1 then k - 1 else k

/-- A number times 2^k. -/
def scaled (x : Machine.Num) (k : Int) : Machine.Num :=
  match x with
  | .fin neg n d => .fin neg (n * 2 ^ k.toNat) (d * 2 ^ (-k).toNat)
  | y => y

/-- R202: a value rounded to an integer and clamped to a type's range; a NaN gives 0. -/
def clamped (t : ElemType) (rnd : Rnd) (x : Machine.Num) : Nat :=
  let w := elemWidth t
  let lo : Int := if isSigned t then -(2 ^ (w - 1) : Nat) else 0
  let hi : Int := if isSigned t then (2 ^ (w - 1) : Nat) - 1 else (2 ^ w : Nat) - 1
  let v : Int := match x with
    | .nan => 0
    | .inf neg => if neg then lo else hi
    | .fin neg n d => max lo (min hi (if neg then -(roundedInt rnd neg n d : Int) else roundedInt rnd neg n d))
  (BitVec.ofInt w v).toNat

/-- R202: one element converted, from the exact source value: integers keep their low bits or, with sat, are clamped; whatever goes to
a floating type is rounded by R280's operator; a floating value that goes to an integer type is rounded and clamped. -/
def converted (src dst : ElemType) (rnd : Rnd) (sat : Bool) (x : Nat) : Nat :=
  match fmtOf dst, fmtOf src with
  | some f, some g => roundTo f rnd sat (g.decode x)
  | some f, none => roundTo f rnd sat (.fin (decide (intVal src x < 0)) (intVal src x).natAbs 1)
  | none, some g => clamped dst rnd (g.decode x)
  | none, none => fitted dst sat (intVal src x)

/-- R203: a value rounded to an integral value of its type; zeros and infinities stay, and a NaN becomes the default NaN. -/
def integral (t : ElemType) (rnd : Rnd) (x : Nat) : Nat :=
  let f := ffmt t
  match f.decode x with
  | .nan => if t = .f32 then 0x7FC00000 else if t = .bf16 then 0x7FC0 else 0x7E00
  | .inf _ => x
  | .fin neg n d =>
    if n = 0 then x
    else if roundedInt rnd neg n d = 0 then (if neg then 2 ^ (elemWidth t - 1) else 0)
    else roundTo f rnd false (.fin neg (roundedInt rnd neg n d) 1)

/-- R204: an f32 element quantised under the E8M0 scale e: its value times 2^(127 - e), converted; an s8 element counts 2^-6. The NaN
scale gives NaN for e4m3 and e5m2, and +0 for the others. -/
def quantised (t : ElemType) (rnd : Rnd) (sat : Bool) (e x : Nat) : Nat :=
  if e = 0xFF then (if t = .e4m3 then 0x7F else if t = .e5m2 then 0x7E else 0)
  else
    let v := scaled (F32.decode x) (127 - (e : Int))
    match fmtOf t with
    | some f => roundTo f rnd sat v
    | none => clamped .s8 rnd (scaled v 6)

/-- R204: an element dequantised under the E8M0 scale e: its value times 2^(e - 127), rounded to f32. The NaN scale gives NaN. -/
def dequantised (t : ElemType) (rnd : Rnd) (sat : Bool) (e x : Nat) : Nat :=
  if e = 0xFF then 0x7FC00000
  else match fmtOf t with
    | some f => roundTo F32 rnd sat (scaled (f.decode x) ((e : Int) - 127))
    | none =>
      let k := intVal t x
      roundTo F32 rnd sat (scaled (scaled (.fin (decide (k < 0)) k.natAbs 1) ((e : Int) - 127)) (-6))

/-- R204's choice between the two. -/
def rescaled (src dst : ElemType) (rnd : Rnd) (sat : Bool) (e x : Nat) : Nat :=
  if src = .f32 then quantised dst rnd sat e x else dequantised src rnd sat e x

/-- R205, R286: level[k] * s8 * S / 32385, for an index k. The sign of an exact zero is the model's choice: a product of 0 is positive,
and the sign of S multiplies it (log 78). -/
def ql4Number (k s8 : Nat) (s : Machine.Num) : Machine.Num :=
  let level : Int := [-127, -95, -72, -54, -39, -26, -14, 0, 11, 23, 35, 48, 63, 80, 101, 127].getD k 0
  let p := level * s8
  match s with
  | .nan => .nan
  | .inf neg => if p = 0 then .nan else .inf (neg != decide (p < 0))
  | .fin neg n d => .fin (neg != decide (p < 0)) (p.natAbs * n) (d * 32385)

/-- R203: the lanes of A that a vpack to width w needs: those with an element whose target element lies in an active lane. -/
def packedLanes (w ws part : Nat) (act : Word) : Word :=
  .ofNat 64 (((List.range 64).map fun i =>
    if (List.range (32 / ws)).any fun k => act.getLsbD (w * (part * (2048 / ws) + (32 / ws * i + k)) / 32) then 2 ^ i else 0).sum)

/-- The conversions of R203 and R204, each rounding once from the exact value (R202). -/
def converting : Instr → Option Compute
  | .vcvt h src d a => some { each1 h d a (converted src h.ty h.rnd h.sat) with srcs := [⟨a, src, false, id⟩] }
  | .vpack h src d a part =>
    let n := 2048 / elemWidth src
    let w := elemWidth h.ty
    some ⟨h, d, [⟨a, src, false, packedLanes w (elemWidth src) part.toNat⟩], id,
      BitVec.allOnes 2048 >>> (2048 - w * n) <<< (w * (part.toNat * n)), w, fun _ xs j =>
        converted src h.ty h.rnd h.sat (slot (elemWidth src) (xs.getD 0 0) (j - part.toNat * n))⟩
  | .vunpack h src d a part =>
    let n := 2048 / elemWidth h.ty
    some ⟨h, d, [⟨a, src, false, id⟩], id, .allOnes 2048, elemWidth h.ty, fun _ xs k =>
      converted src h.ty h.rnd h.sat (slot (elemWidth src) (xs.getD 0 0) (part.toNat * n + k))⟩
  | .vround h d a => some (each1 h d a (integral h.ty h.rnd))
  | .vcvtsc h src d a b =>
    let w := elemWidth h.ty
    some ⟨h, d, [⟨a, src, false, id⟩, ⟨b, h.ty, false, id⟩], id, BitVec.allOnes 2048 >>> (2048 - 64 * w), w, fun _ xs k =>
      rescaled src h.ty h.rnd h.sat (slot 8 (xs.getD 1 0) (k / 32)) (slot (elemWidth src) (xs.getD 0 0) k)⟩
  | _ => none

/-- The formats of R275 and R278. -/
def formats : List FFmt := [F64, F32, BF16, F16, E5M2, E4M3, E3M2, E2M3, E2M1]

/-- The value of a magnitude code in units of the format's smallest subnormal; the exponent runs on beyond the largest. -/
def units (man g : Nat) : Nat := if g < 2 ^ man then g else (2 ^ man + g % 2 ^ man) * 2 ^ (g / 2 ^ man - 1)

/-- R281: what a value beyond the largest gives. -/
def overflowed (f : FFmt) (neg : Bool) (rnd : Rnd) (sat : Bool) : Nat :=
  let sign := if neg then 2 ^ (f.bits - 1) else 0
  if f = E4M3 then (if sat then sign + 0x7E else 0x7F)
  else if f = E3M2 ∨ f = E2M3 ∨ f = E2M1 then sign + f.top
  else if sat ∨ rnd = .rtz ∨ rnd = .rdn ∧ neg = false ∨ rnd = .rup ∧ neg = true then sign + f.top
  else sign + f.top + 1

/-- R281: what an infinity gives. -/
def infinite (f : FFmt) (neg sat : Bool) : Nat :=
  let sign := if neg then 2 ^ (f.bits - 1) else 0
  if f = E4M3 then (if sat then sign + 0x7E else 0x7F)
  else if sat ∨ f = E3M2 ∨ f = E2M3 ∨ f = E2M1 then sign + f.top
  else sign + f.top + 1

/-- Whether element j of width w lies in an active lane (R187, R188). -/
def on (act : Word) (w j : Nat) : Bool := act.getLsbD (w * j / 32)

/-- The fixed tree of R206 over 2^k leaves from leaf j·2^k on. -/
def tree (op : Nat → Nat → Nat) (leaf : Nat → Nat) : Nat → Nat → Nat
  | 0, j => leaf j
  | k + 1, j => op (tree op leaf k (2 * j)) (tree op leaf k (2 * j + 1))

/-- The tree over all 2,048 / w leaves. -/
def wholeTree (w : Nat) (op : Nat → Nat → Nat) (leaf : Nat → Nat) : Nat := tree op leaf (2048 / w).log2 0

/-- A sum over the elements of the active lanes. -/
def total (act : Word) (w : Nat) (f : Nat → Int) : Int :=
  ((List.range (2048 / w)).map fun j => if on act w j then f j else 0).sum

/-- R206's running value after element j, from its identity. -/
def running (op : Nat → Nat → Nat) (active : Nat → Bool) (x : Nat → Nat) (identity : Nat) : Nat → Nat
  | 0 => identity
  | j + 1 => if active j then op (running op active x identity j) (x j) else running op active x identity j

/-- The active lanes, lowest first. -/
def activeList (act : Word) : List Nat := (List.range 64).filter fun i => act.getLsbD i

/-- A word that writes every lane, whatever the predicate. -/
def whole (h : VHdr) (d : Desc) (ds : List Desc) (w : Nat) (f : Word → List Slice → Nat → Nat) : Compute :=
  ⟨h, d, ds.map fun a => ⟨a, h.ty, false, id⟩, fun _ => .allOnes 64, .allOnes 2048, w, f⟩

/-- A permute (R207): element j of D from the elements of A and B; `count` says that B is an integer operand (R191). -/
def permuted (h : VHdr) (d a b : Desc) (count : Bool) (f : (Nat → Nat) → (Nat → Nat) → Nat → Nat → Nat) : Compute :=
  ⟨h, d, [⟨a, h.ty, false, id⟩, ⟨b, h.ty, count, id⟩], id, .allOnes 2048, elemWidth h.ty, fun _ xs j =>
    f (slot (elemWidth h.ty) (xs.getD 0 0)) (slot (elemWidth h.ty) (xs.getD 1 0)) (2048 / elemWidth h.ty) j⟩

/-- The reductions and permutes of R206 and R207. -/
def across : Instr → Option Compute
  | .vrsum h d a =>
    let w := elemWidth h.ty
    some (whole h d [a] w fun act xs _ =>
      let x := slot w (xs.getD 0 0)
      if isF h.ty then wholeTree w (fun p q => result h 0 (Machine.Num.add h.rnd (valueOf h.ty p) (valueOf h.ty q)))
        fun j => if on act w j then x j else 2 ^ (w - 1)
      else fitted h.ty h.sat (total act w fun j => intVal h.ty (x j)))
  | .vrmax h d a =>
    let w := elemWidth h.ty
    some (whole h d [a] w fun act xs _ => wholeTree w (lesser h true) fun j =>
      if on act w j then slot w (xs.getD 0 0) j
      else if isF h.ty then (ffmt h.ty).infOf true false else if isSigned h.ty then 2 ^ (w - 1) else 0)
  | .vrmin h d a =>
    let w := elemWidth h.ty
    some (whole h d [a] w fun act xs _ => wholeTree w (lesser h false) fun j =>
      if on act w j then slot w (xs.getD 0 0) j
      else if isF h.ty then (ffmt h.ty).infOf false false else if isSigned h.ty then 2 ^ (w - 1) - 1 else 2 ^ w - 1)
  | .vrdot h d a b =>
    let w := elemWidth h.ty
    some (whole h d [a, b] 32 fun act xs _ =>
      let x := slot w (xs.getD 0 0)
      let y := slot w (xs.getD 1 0)
      if isF h.ty then
        wholeTree w (fun p q => roundTo F32 h.rnd h.sat (Machine.Num.add h.rnd (F32.decode p) (F32.decode q))) fun j =>
          if on act w j then roundTo F32 h.rnd h.sat (Machine.Num.mul (valueOf h.ty (x j)) (valueOf h.ty (y j))) else 2 ^ 31
      else fitted (if isSigned h.ty then .s32 else .z32) h.sat (total act w fun j => intVal h.ty (x j) * intVal h.ty (y j)))
  | .vscan h d a =>
    let w := elemWidth h.ty
    some ⟨h, d, [⟨a, h.ty, false, id⟩], id, .allOnes 2048, w, fun act xs j =>
      if on act w j then
        running (fun p q => result h (intVal h.ty p + intVal h.ty q)
            (Machine.Num.add h.rnd (valueOf h.ty p) (valueOf h.ty q)))
          (on act w) (slot w (xs.getD 0 0)) (if isF h.ty then 2 ^ (w - 1) else 0) (j + 1)
      else 0⟩
  | .vargmax h d a =>
    let w := elemWidth h.ty
    some (whole h d [a] 32 fun act xs _ =>
      let x := slot w (xs.getD 0 0)
      let ok (j : Nat) : Bool := on act w j && !(isF h.ty && (ffmt h.ty).isNan (x j))
      let best (j : Nat) : Bool := ok j && (List.range (2048 / w)).all fun k => !ok k || lesser h true (x j) (x k) == x j
      (((List.range (2048 / w)).find? best).getD 0xFFFFFFFF))
  | .vperm h d a b => some (permuted h d a b true fun x y n j => x (y j % n))
  | .vrot h d a b => some (permuted h d a b true fun x y n j => x ((j + y j) % n))
  | .vshfl h d a b => some (permuted h d a b true fun x y n j => x (j ^^^ (y j % n)))
  | .vbcast h d a b => some (permuted h d a b true fun x y n j => x (y j % n))
  | .vzip h d a b => some (permuted h d a b false fun x y _ j => if j % 2 = 0 then x (j / 2) else y ((j - 1) / 2))
  | .vunzip h d a b => some (permuted h d a b false fun x y n j => if 2 * j < n then x (2 * j) else y (2 * j - n))
  | .vtrn h d a b => some (permuted h d a b false fun x y _ j => if j % 2 = 0 then x j else y (j - 1))
  | .vcompress h d a => some (whole h d [a] 32 fun act xs i =>
      (((activeList act)[i]?).map (slot 32 (xs.getD 0 0))).getD 0)
  | .vexpand h d a =>
    some ⟨h, d, [⟨a, h.ty, false, fun act => .ofNat 64 (2 ^ (activeList act).length - 1)⟩], id, .allOnes 2048, 32,
      fun act xs i => slot 32 (xs.getD 0 0) ((activeList act).countP (· < i))⟩
  | _ => none

/-- The bits of the lanes of a word of lanes (R188). -/
def laneBits (m : Word) : Slice := ofElems 32 ((List.range 64).map fun i => if m.getLsbD i then 0xFFFFFFFF else 0)

/-- The state after a vector word has issued from state s with core c: its result is on its way, and the next word issues no
earlier than gap + 1 ck on (R117). -/
def issued (s : State) (c : Core) (h : VHdr) (targets : List VTarget) (colour : BitVec 3) (dq : Bool) : State :=
  State.done { s with fv := s.fv + 8 }
    { c with vlands := c.vlands ++ [⟨targets, s.now + 2, s.now + h.lat.toNat, colour, c.seq, dq⟩] } 12 h.gap.toNat

/-- What becomes of a result v for D in some lanes (R188, R190, R193, R407). -/
def delivered (s : State) (c : Core) (h : VHdr) (d : Desc) (lanes : Word) (bits : Slice) (v : Slice) (o : Out) : Prop :=
  match d with
  | .reg n =>
    let m := laneBits lanes &&& bits
    (m = .allOnes 2048 → o = .next (issued s (c.present (.v n)) h [.reg n m v] 0 false)) ∧
    (m ≠ .allOnes 2048 → c.isAbsent (.v n) = false → o = .next (issued s c h [.reg n m v] 0 false)) ∧
    (m ≠ .allOnes 2048 → c.isAbsent (.v n) = true → o = .next s)
  | .mem r =>
    let hits := s.laneHits (recOf (c.gb r.b)) lanes 4 (c.laneOffset r .slice)
    (∀ t e, s.writeLanes c hits 4 = (t, .go e) →
      o = .next (issued t e h [.mem (laneCells hits 4 ((List.range 64).map (slot 32 v)))] (recOf (c.gb r.b)).colour false)) ∧
    (∀ t k, s.writeLanes c hits 4 = (t, .trap k) → o = t.trap k) ∧
    (∀ t, s.writeLanes c hits 4 = (t, .wait) → o = .next t)
  | _ => True

/-- The words of a table do what it says: with their registers there and their sources read they deliver a result whose
elements are the table's, an element of 6 bits with its byte's top bits zero (R187); they take a trap of a source, and wait
where a source or a register makes them. -/
def computes (table : Instr → Option Compute) : Prop :=
  ∀ (s : State) (c : Core) (i : Instr) (k : Compute), s.Runs c → i.wf = true → table i = some k →
    let regs := k.srcs.flatMap (fun x => descBank x.desc) ++ predBank k.hdr.pred ++
      (match k.dst with
        | .mem r => [BankReg.b r.b]
        | _ => [])
    let act := c.readP s.fv k.hdr.pred
    (c.free (k.srcs.flatMap fun x => descScalars x.desc) [] = true → c.here regs = true →
      (∀ t xs, s.readSrcs c (s.fv + 1) act k.srcs = (t, .got xs) →
        ∃ v, delivered t c k.hdr k.dst (k.lanes act) k.bits v (exec i s) ∧
          ∀ j, j < 2048 / k.width → k.bits.getLsbD (k.width * j) = true →
            slot k.width v j = (if k.hdr.ty = .e3m2 ∨ k.hdr.ty = .e2m3 then k.elem act xs j &&& 0x3F3F3F3F else k.elem act xs j)) ∧
      (∀ t e, s.readSrcs c (s.fv + 1) act k.srcs = (t, .trap e) → exec i s = t.trap e) ∧
      (∀ t, s.readSrcs c (s.fv + 1) act k.srcs = (t, .wait) → exec i s = .next t)) ∧
    ((c.free (k.srcs.flatMap fun x => descScalars x.desc) [] && c.here regs) = false → exec i s = .next s)

/-- The distance from a lane, or an element of n bytes, to the next (R190). -/
def laneStride (r : Rec) (sel : BitVec 2) (n : Nat) : Int :=
  if sel = 0 then n else if sel = 1 then r.stride0.toInt else if sel = 2 then r.stride1.toInt else 0

/-- step(t) of R211 with its table of spans. -/
def loopStride (r : Rec) (sel : BitVec 2) (n : Nat) (t : BitVec 2) : Int :=
  if t = 0 then 0 else if t = 1 then r.stride0.toInt else if t = 2 then r.stride1.toInt
  else if sel = 0 then 64 * n else if sel = 1 then 64 * r.stride0.toInt else if sel = 2 then 64 * r.stride1.toInt else n

end Sys2Proof.Spec

/-- R195 to R199, with R187 to R193: the arithmetic, floating, bit and selection words write, in the lanes that they write,
each element that the rules give. What vexp2, vlog2, vtanh and vsigm give away from the special inputs is the model's
enclosure (log 10). -/
def Obligations.VectorArithmetic : Prop := Spec.computes Spec.arithmetic

/-- R275, R276, R280, R281: what the one rounding operator does, in each format. A finite value lies between two neighbouring codes
and takes the one that the mode names, the even code of a tie under rnd 0; beyond the largest it overflows. What the encodings of a
format stand for. -/
def Sys2Proof.Spec.RoundingOperator : Prop :=
  ∀ f ∈ Spec.formats, ∀ (rnd : Rnd) (sat neg : Bool),
    let sign := if neg then 2 ^ (f.bits - 1) else 0
    roundTo f rnd sat .nan = (if f = F64 then 0x7FF8000000000000 else if f = F32 then 0x7FC00000 else if f = BF16 then 0x7FC0
      else if f = F16 then 0x7E00 else if f = E5M2 then 0x7E else if f = E4M3 then 0x7F else 0) ∧
    roundTo f rnd sat (.inf neg) = Spec.infinite f neg sat ∧
    (∀ d, roundTo f rnd sat (.fin neg 0 d) = sign) ∧
    (∀ n d k : Nat, 0 < n → 0 < d →
      let x := n * 2 ^ ((f.man : Int) - f.emin).toNat
      let lo := Spec.units f.man k * d
      let hi := Spec.units f.man (k + 1) * d
      lo ≤ x → x < hi →
      let g := if x = lo then k else match rnd with
        | .rtz => k
        | .rdn => if neg then k + 1 else k
        | .rup => if neg then k else k + 1
        | .rne => if 2 * x < lo + hi ∨ 2 * x = lo + hi ∧ k % 2 = 0 then k else k + 1
      roundTo f rnd sat (.fin neg n d) = if g ≤ f.top then sign + g else Spec.overflowed f neg rnd sat) ∧
    (∀ g, g ≤ f.top → ∃ n d, 0 < d ∧ f.decode (sign + g) = .fin neg n d ∧
      n * 2 ^ ((f.man : Int) - f.emin).toNat = Spec.units f.man g * d) ∧
    (f ∈ [F64, F32, BF16, F16, E5M2] → f.decode (sign + f.top + 1) = .inf neg ∧
      ∀ g, f.top + 1 < g → g < 2 ^ (f.bits - 1) → f.decode (sign + g) = .nan) ∧
    E4M3.decode 0x7F = .nan ∧ E4M3.decode 0xFF = .nan

/-- R202 to R204: vcvt, vpack, vunpack, vround and vcvtsc write each element that the rules give, from a B of vcvtsc that is
no scalar register. -/
def Sys2Proof.Spec.VectorConversions : Prop :=
  Spec.computes fun i => match i with
    | .vcvtsc h src d a (.reg n) => Spec.converting (.vcvtsc h src d a (.reg n))
    | .vcvtsc _ _ _ _ _ => none
    | i => Spec.converting i

/-- R204, R205: vcvtsc and vql4 take 64 bits of a scalar register: the two E8M0 scales, and QL4's block scale and
super-scale. The sign of QL4's exact zeros is the model's choice (log 78). -/
def Sys2Proof.Spec.ScaledConversions : Prop :=
  ∀ (s t : State) (c : Core) (h : VHdr) (n : BitVec 5) (a : Desc) (b : BitVec 5) (y : Slice) (act : Word),
    s.Runs c → act = c.readP s.fv h.pred → c.free [b] [] = true → c.here (predBank h.pred) = true →
    c.isAbsent (.v n) = false →
    (∀ src z, (Instr.vcvtsc h src (.reg n) a (.scal b)).wf = true → c.here (descBank a) = true →
      s.readSrcs c (s.fv + 1) act [⟨a, src, false, id⟩, ⟨.scal b, h.ty, false, id⟩] = (t, .got [y, z]) →
      ∃ v, Spec.delivered t c h (.reg n) act (BitVec.allOnes 2048 >>> (2048 - 64 * elemWidth h.ty)) v
          (exec (.vcvtsc h src (.reg n) a (.scal b)) s) ∧
        ∀ k, k < 64 → Spec.slot (elemWidth h.ty) v k =
          Spec.rescaled src h.ty h.rnd h.sat ((c.gs b).toNat / 2 ^ (8 * (k / 32)) % 256) (Spec.slot (elemWidth src) y k)) ∧
    (∀ z, (Instr.vql4 h (.reg n) a (.scal b)).wf = true → c.here (descBank a) = true →
      s.readSrcs c (s.fv + 1) act [⟨a, h.ty, false, id⟩, ⟨.scal b, h.ty, false, id⟩] = (t, .got [y, z]) →
      ∃ v, Spec.delivered t c h (.reg n) act (.allOnes 2048) v (exec (.vql4 h (.reg n) a (.scal b)) s) ∧
        ∀ k, k < 64 → Spec.slot 32 v k = roundTo F32 h.rnd h.sat
          (Spec.ql4Number (Spec.slot 4 y k) ((c.gs b).toNat % 256) (F32.decode ((c.gs b).toNat / 2 ^ 32))))

/-- R206, R207: the reductions and permutes write each element that the rules give. -/
def Obligations.VectorReductionsAndPermutes : Prop := Spec.computes Spec.across

/-- R189 to R193, R211, R229: what a word reads as a source. A register whose results have landed is its contents; a scalar
register and an immediate stand in every element; a scratchpad reference, in each lane that the word reads, holds the four
bytes at its address, which sel and the loop nest move. A bit that has not landed is free (log 9). -/
def Obligations.VectorSources : Prop :=
  ∀ (s : State) (c : Core) (k : Nat) (act : Word) (ty : ElemType) (int : Bool) (lanes : Word → Word), s.Runs c →
    (∀ n, c.vlands = [] → s.readSrc c k act ⟨.reg n, ty, int, lanes⟩ = (s, .got (c.gv n))) ∧
    (∀ r, ∃ v, s.readSrc c k act ⟨.scal r, ty, int, lanes⟩ = (s, .got v) ∧
      ∀ j, j < 2048 / elemWidth ty → Spec.slot (elemWidth ty) v j = (c.gs r).toNat % 2 ^ elemWidth ty) ∧
    (∀ i, ∃ v, s.readSrc c k act ⟨.imm i, ty, int, lanes⟩ = (s, .got v) ∧
      ∀ j, j < 2048 / elemWidth ty → Spec.slot (elemWidth ty) v j =
        if ty = .f32 ∧ int = false then i.toNat * 2 ^ 16 else (BitVec.ofInt (elemWidth ty) i.toInt).toNat) ∧
    (∀ (m : MemRef) (p : Nat → Word) (l : Nat → Nat), c.vlands = [] → c.sq = [] → Spec.aqEmpty c → c.recon = false → s.marks = [] →
      (∀ i, i < 64 → (lanes act).getLsbD i = true →
        s.laneReach (recOf (c.gb m.b)) (c.laneOffset m .slice i) 4 = .at_ (p i) (l i) ∧ s.inDeadGroup (l i / 16 * 16) = false) →
      ∃ v, s.readSrc c k act ⟨.mem m, ty, int, lanes⟩ = (s, .got v) ∧
        ∀ i, i < 64 → (lanes act).getLsbD i = true → Spec.slot 32 v i = leNat (s.mem.read (l i) 4)) ∧
    (∀ (m : MemRef) (i n : Nat), c.inLoop = false →
      c.laneOffset m .slice i = 4 * m.off.toInt + i * Spec.laneStride (recOf (c.gb m.b)) m.sel 4 ∧
      c.laneOffset m (.elem n) i = 4 * m.off.toInt + i * Spec.laneStride (recOf (c.gb m.b)) m.sel n) ∧
    (∀ (m : MemRef) (i n : Nat) (l : Loop) (j : Nat) (t : BitVec 2), c.inLoop = true → c.loop = some l → l.idx = [j] →
      l.steps = [t] →
      c.laneOffset m .slice i = 4 * m.off.toInt + j * Spec.loopStride (recOf (c.gb m.b)) m.sel 4 t +
        i * Spec.laneStride (recOf (c.gb m.b)) m.sel 4 ∧
      c.laneOffset m (.elem n) i = 4 * m.off.toInt + j * Spec.loopStride (recOf (c.gb m.b)) m.sel n t +
        i * Spec.laneStride (recOf (c.gb m.b)) m.sel n)

/-- R202 to R205: conversions between lane types, with and without block scales, and the rounding they share. -/
def Obligations.VectorConversionFunctions : Prop := Spec.RoundingOperator ∧ Spec.VectorConversions ∧ Spec.ScaledConversions

namespace Sys2Proof.Spec

/-- R200: whether a comparison holds of two elements. -/
def compares (t : ElemType) (cc : Cmp) (x y : Nat) : Bool :=
  if isF t then
    let a := (ffmt t).decode x
    let b := (ffmt t).decode y
    if a.isNan || b.isNan then decide (cc = .ne ∨ cc = .un)
    else match cc with
      | .eq => a.eqv b
      | .ne => !a.eqv b
      | .lt => a.lt b
      | .le => a.lt b || a.eqv b
      | .gt => b.lt a
      | .ge => b.lt a || a.eqv b
      | .un => false
      | .ord => true
  else
    let a := intVal t x
    let b := intVal t y
    match cc with
    | .eq => decide (a = b)
    | .ne => decide (a ≠ b)
    | .lt => decide (a < b)
    | .le => decide (a ≤ b)
    | .gt => decide (b < a)
    | .ge => decide (b ≤ a)
    | .un => false
    | .ord => true

/-- The state after a word that gives a predicate a value has issued; p0 keeps its own (R112, R407). -/
def predIssued (s : State) (c : Core) (h : VHdr) (pd : BitVec 3) (v : Word) : State :=
  issued s (if pd = 0 then c else c.present (.p pd)) h [.pred pd (.allOnes 64) v] 0 false

/-- R208, R277: a lane from an element; a NaN becomes the default NaN. -/
def widened (t : ElemType) (x : Nat) : Nat :=
  if t = .f16 then (if F16.isNan x then 0x7FC00000 else widenExact F16 F32 x)
  else if t = .bf16 then (if BF16.isNan x then 0x7FC00000 else widenExact BF16 F32 x)
  else if isSigned t then (BitVec.ofInt 32 (intVal t x)).toNat
  else x % 2 ^ elemWidth t

/-- R208: an element from a lane. -/
def narrowed (h : VHdr) (x : Nat) : Nat :=
  let w := elemWidth h.ty
  if w = 32 then x
  else if h.ty = .f16 then roundTo F16 h.rnd h.sat (F32.decode x)
  else if h.ty = .bf16 then roundTo BF16 h.rnd h.sat (F32.decode x)
  else fitted h.ty h.sat (if isSigned h.ty then (BitVec.ofNat 32 x).toInt else (x : Int))

/-- The active lanes before lane i. -/
def before (act : Word) (i : Nat) : Nat := (activeList act).countP (· < i)

end Sys2Proof.Spec

/-- R200, R201, with R192, R193: vcmp gives bit i of its predicate for an active lane each of whose elements satisfies the
comparison; the predicate words compute on whole predicates, and pget and pcnt write every lane. A p0 reads as all ones and
is not written. A predicate with nothing on its way reads as it stands. -/
def Obligations.VectorPredicates : Prop :=
  ∀ (s : State) (c : Core), s.Runs c →
    (∀ (h : VHdr) (cc : Cmp) (n : BitVec 5) (a b : Desc) (t : State) (x y : Slice),
      (Instr.vcmp h cc (.reg n) a b).wf = true → c.free (descScalars a ++ descScalars b) [] = true →
      c.here (predBank h.pred ++ descBank a ++ descBank b) = true →
      s.readSrcs c (s.fv + 1) (c.readP s.fv h.pred) [⟨a, h.ty, false, id⟩, ⟨b, h.ty, false, id⟩] = (t, .got [x, y]) →
      ∃ v : Word, exec (.vcmp h cc (.reg n) a b) s = .next (Spec.predIssued t c h (n.truncate 3) v) ∧
        ∀ i, i < 64 → v.getLsbD i = ((c.readP s.fv h.pred).getLsbD i &&
          (List.range (32 / elemWidth h.ty)).all fun k => Spec.compares h.ty cc
            (Spec.slot (elemWidth h.ty) x (i * (32 / elemWidth h.ty) + k))
            (Spec.slot (elemWidth h.ty) y (i * (32 / elemWidth h.ty) + k)))) ∧
    (∀ (h : VHdr) (pd pa pb : BitVec 3), c.here (predBank pa ++ predBank pb) = true →
      let a := c.readP (s.fv + 1) pa
      let b := c.readP (s.fv + 2) pb
      exec (.pand h pd pa pb) s = .next (Spec.predIssued s c h pd (a &&& b)) ∧
      exec (.por h pd pa pb) s = .next (Spec.predIssued s c h pd (a ||| b)) ∧
      exec (.pxor h pd pa pb) s = .next (Spec.predIssued s c h pd (a ^^^ b))) ∧
    (∀ (h : VHdr) (pd pa : BitVec 3) (vd : BitVec 5), c.here (predBank pa) = true →
      let a := c.readP (s.fv + 1) pa
      exec (.pnot h pd pa) s = .next (Spec.predIssued s c h pd (~~~a)) ∧
      (∃ v : Word, exec (.pfirst h pd pa) s = .next (Spec.predIssued s c h pd v) ∧
        ∀ i, i < 64 → v.getLsbD i = (a.getLsbD i && (List.range i).all fun j => !a.getLsbD j)) ∧
      (∃ v : Slice, exec (.pget h vd pa) s = .next (Spec.issued s (c.present (.v vd)) h [.reg vd (.allOnes 2048) v] 0 false) ∧
        ∀ i, i < 64 → Spec.slot 32 v i = if a.getLsbD i then 0xFFFFFFFF else 0) ∧
      (∃ v : Slice, exec (.pcnt h vd pa) s = .next (Spec.issued s (c.present (.v vd)) h [.reg vd (.allOnes 2048) v] 0 false) ∧
        ∀ i, i < 64 → Spec.slot 32 v i = (List.range 64).countP fun j => a.getLsbD j)) ∧
    (∀ (h : VHdr) (pd : BitVec 3), c.here (predBank h.pred) = true →
      (∀ r, c.free [r] [] = true → exec (.pset h pd (.scal r)) s = .next (Spec.predIssued s c h pd (c.gs r))) ∧
      (∀ n : BitVec 16, n.toNat ≤ 64 →
        exec (.pset h pd (.imm n)) s = .next (Spec.predIssued s c h pd (.ofNat 64 (2 ^ n.toNat - 1))))) ∧
    (∀ k n, c.vlands = [] → c.readP k n = if n = 0 then .allOnes 64 else c.p.getD n.toNat 0)

/-- R190, R192, R208, R211, with R193, R257: vld and vgath deliver what readLanes gives of the elements of the active lanes; vst
and vscat write the narrowed lanes, and wait for an earlier store to their bytes; a failed check traps first. Where nothing
is on its way, a lane read is the widened element in memory, and nothing holds a write back. -/
def Obligations.VectorMemoryWords : Prop :=
  ∀ (s : State) (c : Core) (h : VHdr) (m : MemRef), s.Runs c → c.here (predBank h.pred ++ [.b m.b]) = true →
    let act := c.readP s.fv h.pred
    let n := elemWidth h.ty / 8
    let r := recOf (c.gb m.b)
    let unit (i : Nat) : Int := c.laneOffset m (.elem n) i
    let at_ (idx : Slice) (i : Nat) : Int := 4 * m.off.toInt + c.loopAdvance r m.sel (.elem n) + (BitVec.ofNat 32 (Spec.slot 32 idx i)).toInt * n
    let loads (i : Instr) (d : BitVec 5) (off : Nat → Int) : Prop :=
      (∀ t v, s.readLanes c (s.laneHits r act n off) n (widen h.ty) = (t, .got v) →
        Spec.delivered t c h (.reg d) act (.allOnes 2048) v (exec i s)) ∧
      (∀ t k, s.readLanes c (s.laneHits r act n off) n (widen h.ty) = (t, .trap k) → exec i s = t.trap k) ∧
      (∀ t, s.readLanes c (s.laneHits r act n off) n (widen h.ty) = (t, .wait) → exec i s = .next t)
    let stores (i : Instr) (v : Slice) (off : Nat → Int) : Prop :=
      (∀ t e, s.writeLanes c (s.laneHits r act n off) n = (t, .go e) →
        exec i s = .next (Spec.issued t e h [.mem (laneCells (s.laneHits r act n off) n
          ((List.range 64).map fun i => Spec.narrowed h (Spec.slot 32 v i)))] r.colour false)) ∧
      (∀ t k, s.writeLanes c (s.laneHits r act n off) n = (t, .trap k) → exec i s = t.trap k) ∧
      (∀ t, s.writeLanes c (s.laneHits r act n off) n = (t, .wait) → exec i s = .next t)
    (∀ d, (Instr.vld h (.reg d) (.mem m)).wf = true → loads (.vld h (.reg d) (.mem m)) d unit) ∧
    (∀ d vi, (Instr.vgath h (.reg d) (.mem m) (.reg vi)).wf = true → c.here [.v vi] = true →
      loads (.vgath h (.reg d) (.mem m) (.reg vi)) d (at_ (c.readV (s.fv + 1) vi))) ∧
    (∀ va, (Instr.vst h (.mem m) (.reg va)).wf = true → c.here [.v va] = true →
      stores (.vst h (.mem m) (.reg va)) (c.readV (s.fv + 1) va) unit) ∧
    (∀ va vi, (Instr.vscat h (.mem m) (.reg va) (.reg vi)).wf = true → c.here [.v va, .v vi] = true →
      stores (.vscat h (.mem m) (.reg va) (.reg vi)) (c.readV (s.fv + 1) va) (at_ (c.readV (s.fv + 2) vi))) ∧
    (∀ (off : Nat → Int) (p : Nat → Word) (l : Nat → Nat), c.vlands = [] → c.sq = [] → c.recon = false → s.marks = [] →
      c.aq = [[], [], [], []] → (Instr.vld h (.reg 0) (.mem m)).wf = true →
      (∀ i, i < 64 → act.getLsbD i = true →
        s.laneReach r (off i) n = .at_ (p i) (l i) ∧ s.inDeadGroup (l i / 16 * 16) = false) →
      s.writeLanes c (s.laneHits r act n off) n = (s, .go c) ∧
      ∃ v, s.readLanes c (s.laneHits r act n off) n (widen h.ty) = (s, .got v) ∧
        ∀ i, i < 64 → act.getLsbD i = true → Spec.slot 32 v i = Spec.widened h.ty (leNat (s.mem.read (l i) n)))

/-- R209, R255 to R258: vdq pops an entry for each active lane, in lane order, and waits while its queue holds fewer; vaq pushes
an address for each active lane while its queue has room, and makes no access; an access-queue head performs once its data
queue has room, and is held with its cause where a check fails. -/
def Obligations.AccessQueues : Prop :=
  ∀ (s : State) (c : Core) (h : VHdr), s.Runs c → c.here (predBank h.pred) = true →
    let act := c.readP s.fv h.pred
    (∀ (vd : BitVec 5) (n : BitVec 2), (Instr.vdq h vd n).wf = true → c.isAbsent (.v vd) = false →
      let q := c.dq.getD n.toNat []
      (q.length < (Spec.activeList act).length → exec (.vdq h vd n) s = .next s) ∧
      ((Spec.activeList act).length ≤ q.length → ∃ v, exec (.vdq h vd n) s =
          .next (Spec.issued s { c with dq := c.dq.set n.toNat (q.drop (Spec.activeList act).length) } h
            [.reg vd (Spec.laneBits act) v] 0 true) ∧
        ∀ i, i < 64 → act.getLsbD i = true → Spec.slot 32 v i =
          Spec.widened h.ty ((q.getD (Spec.before act i) 0).toNat % 2 ^ elemWidth h.ty))) ∧
    (∀ (m : MemRef) (vi : BitVec 5) (n : BitVec 2), (Instr.vaq h m vi n).wf = true → c.here [.b m.b, .v vi] = true →
      c.vlands = [] →
      let q := c.aq.getD n.toNat []
      let r := recOf (c.gb m.b)
      let entry (i : Nat) : AqEntry := {
        base := r.base
        extent := r.extent
        bounds := r.bounds
        width := (r.elem.map fun t => elemWidth t / 8).getD 0
        off := 4 * m.off.toInt + c.loopAdvance r m.sel .slice +
          (if h.ty = .s32 then (BitVec.ofNat 32 (Spec.slot 32 (c.gv vi) i)).toInt else (Spec.slot 32 (c.gv vi) i : Int))
        bad := !r.ok || (r.elem.map fun t => elemWidth t == 4).getD true
        user := !c.x.priv
        seq := c.seq
        held := none
        reported := false
        data := none }
      (64 < q.length + (Spec.activeList act).length → exec (.vaq h m vi n) s = .next s) ∧
      (q.length + (Spec.activeList act).length ≤ 64 → exec (.vaq h m vi n) s =
        .next (State.done { s with fv := s.fv + 8 } { c with aq := c.aq.set n.toNat (q ++ (Spec.activeList act).map entry) } 12
          h.gap.toNat))) ∧
    (∀ (i k : Nat) (n : BitVec 2) (x : Core) (e : AqEntry) (r : List AqEntry), s.Has i k x → x.aq.getD n.toNat [] = e :: r →
      e.held = none → e.data = none → x.swapped = false →
      (64 ≤ (x.dq.getD n.toNat []).length → exec (.accessQueueEntryPerform i k n) s = .next s) ∧
      ((x.dq.getD n.toNat []).length < 64 →
        (∀ t v, s.aqLoad i k x e = (t, .data v) → exec (.accessQueueEntryPerform i k n) s = .next (t.modCore i k fun y =>
          { y with aq := y.aq.set n.toNat r, dq := y.dq.modify n.toNat (· ++ [v]) })) ∧
        (∀ t w, s.aqLoad i k x e = (t, .hold w) → exec (.accessQueueEntryPerform i k n) s = .next (t.modCore i k fun y =>
          { y with aq := y.aq.set n.toNat ({ e with held := some w, reported := false } :: r) })) ∧
        (∀ t, s.aqLoad i k x e = (t, .wait) → exec (.accessQueueEntryPerform i k n) s = .next t) ∧
        (∀ t, (∀ j, j ≠ n.toNat → x.aq.getD j [] = []) → x.sq = [] → x.vlands = [] →
          let acc := s.through i k e.user ⟨e.base, e.extent, 0, 0, 0, e.bounds, 0, e.bad⟩ e.off ⟨e.width, e.width, false, true⟩
          let give (v : Lane) : Out := .next (t.modCore i k fun y =>
            { y with aq := y.aq.set n.toNat r, dq := y.dq.modify n.toNat (· ++ [v]) })
          (∀ p l host, acc = (t, .at_ p (.loc l host)) → t.readUnits false (unitsOf l e.width) = (t, []) →
            exec (.accessQueueEntryPerform i k n) s = give (.ofNat 32 (leNat (t.mem.read l e.width)))) ∧
          (∀ p, acc = (t, .none_ p) → exec (.accessQueueEntryPerform i k n) s = give 0) ∧
          (∀ w, acc = (t, .fail w) → exec (.accessQueueEntryPerform i k n) s = .next (t.modCore i k fun y =>
            { y with aq := y.aq.set n.toNat ({ e with
              held := some (match w with
                | .translation kind _ => .translation (.ofNat 8 kind)
                | .misalignment _ => .misalignment
                | .reconstruction _ _ => .unrecoverable
                | _ => .bounds)
              reported := false } :: r) }))))) ∧
    (∀ (i k : Nat) (x : Core) (e : AqEntry) (r : List AqEntry) (d : Lane), s.Has i k x → x.aq = [e :: r, [], [], []] →
      e.held = none → e.data = some 0 → x.dq = [[d], [], [], []] →
      exec (.zeroFill i k) s = .next (s.modCore i k fun y => { y with aq := [r, [], [], []], dq := [[d, 0], [], [], []] }))

/-- R213, R214: vcpush appends the active lanes in order, discards what exceeds 256 records and then sets the overflow bit; vcpop
takes the first 64 records, zeros for those that are missing; vcflush empties the stream and clears the bit. Each other
stream stays as it is. -/
def Obligations.ConditionalStreams : Prop :=
  ∀ (s : State) (c : Core) (h : VHdr) (n : BitVec 2), s.Runs c →
    let q := c.cs.getD n.toNat []
    (∀ (a : Desc) (t : State) (x : Slice), (Instr.vcpush h a n).wf = true → c.free (descScalars a) [] = true →
      c.here (predBank h.pred ++ descBank a) = true →
      s.readSrc c (s.fv + 1) (c.readP s.fv h.pred) ⟨a, h.ty, false, id⟩ = (t, .got x) →
      let xs := (Spec.activeList (c.readP s.fv h.pred)).map fun i => x.extractLsb' (32 * i) 32
      exec (.vcpush h a n) s = .next (Spec.issued t { c with
        cs := c.cs.set n.toNat ((q ++ xs).take 256)
        csOvf := if 256 < q.length + xs.length then c.csOvf ||| (1#4 <<< n.toNat) else c.csOvf } h [] 0 false)) ∧
    (∀ vd : BitVec 5, ∃ v, exec (.vcpop h vd n) s =
        .next (Spec.issued s { c.present (.v vd) with cs := c.cs.set n.toNat (q.drop 64) } h [.reg vd (.allOnes 2048) v] 0 false) ∧
      ∀ i, i < 64 → Spec.slot 32 v i = (q.getD i 0).toNat) ∧
    exec (.vcflush h n) s = .next (Spec.issued s { c with
      cs := c.cs.set n.toNat [], csOvf := c.csOvf &&& ~~~(1#4 <<< n.toNat) } h [] 0 false) ∧
    (∀ k, k ≠ n.toNat → k < 4 → ∀ l, (c.cs.set n.toNat l).getD k [] = c.cs.getD k [])

/-- R210: which words form the body of a vloop: from the word behind it on, the next L vector words with the loop-body bit set; zero
granules between them are passed over. Any other word in their place means that there is no body. A word of the vector class with the
bit set that is no legal instruction counts as one of the L, and traps where it issues (log 22). -/
def Sys2Proof.Spec.LoopBodies : Prop :=
  ∀ (s t : State) (h : Nat) (user : Bool) (a : BitVec 56) (f n : Nat) (ws : List (BitVec 56)),
    s.loopBody h user a n = s.bodyFrom h user (2 ^ 54) n (a + 12) [] ∧
    s.bodyFrom h user f 0 a ws = (s, .body ws.reverse a) ∧
    (∀ len, s.fetchAt h user a = (t, .word (.add 0 0 0) len) →
      s.bodyFrom h user (f + 1) (n + 1) a ws = t.bodyFrom h user f (n + 1) (a + 4) ws) ∧
    (∀ i len v, s.fetchAt h user a = (t, .word i len) → vhdrOf i = some v → v.lb = true →
      s.bodyFrom h user (f + 1) (n + 1) a ws = t.bodyFrom h user f n (a + .ofNat 56 len) (a :: ws)) ∧
    (∀ i len, s.fetchAt h user a = (t, .word i len) → i ≠ .add 0 0 0 → (∀ v, vhdrOf i = some v → v.lb = false) →
      s.bodyFrom h user (f + 1) (n + 1) a ws = (t, .bad)) ∧
    (∀ g, s.fetchAt h user a = (t, .bad (.illegal g)) → s.bodyFrom h user (f + 1) (n + 1) a ws =
      if g.toNat / 2 ^ 30 = 1 ∧ g.toNat / 2 ^ 4 % 2 = 1 then t.bodyFrom h user f n (a + 12) (a :: ws) else (t, .bad)) ∧
    (∀ k va, s.fetchAt h user a = (t, .bad (.translation k va)) →
      s.bodyFrom h user (f + 1) (n + 1) a ws = (t, .fail (.translation k va)))

/-- The number of a body's turn in a nest, j0 innermost (R211). -/
def Sys2Proof.Spec.turnOf : List Nat → List Nat → Nat
  | c :: cs, j :: js => j + c * Sys2Proof.Spec.turnOf cs js
  | _, _ => 0

/-- R210 to R212: vloop reads its counts and, unless one is 0, begins its body with every index at 0; it skips the body where
one is. A body word that issues goes on to the next word, behind the last to the next indices of a nest of any depth, j0 innermost,
and behind the last turn behind the body. A body that is not L vector words traps (log 22 for one whose words are no legal
instruction). VLOOP_BODY_ISSUE issues a body word from the loop buffer: a word of R197 to R199 under p0 to a register, its sources
read, is on its way with the result that the rules give. -/
def Obligations.VectorLoops : Prop :=
  Spec.LoopBodies ∧
  ∀ (s : State) (c : Core) (h : VHdr) (l : BitVec 4) (d : BitVec 3) (ts : BitVec 12), s.Runs c → c.absent = [] →
    let i := Instr.vloop h l d ts
    let counts := (List.range d.toNat).map fun k => (c.gl (.ofNat 3 k)).toNat
    let steps := (List.range d.toNat).map fun k => (ts >>> (2 * k)).truncate 2
    (∀ t, s.loopBody s.cur.1 (!c.x.priv) c.pc (l.toNat + 1) = (t, .bad) → exec i s = t.trap (.illegal (firstGranule i))) ∧
    (∀ t k, s.loopBody s.cur.1 (!c.x.priv) c.pc (l.toNat + 1) = (t, .fail k) → exec i s = t.trap k) ∧
    (∀ t w ws after, s.loopBody s.cur.1 (!c.x.priv) c.pc (l.toNat + 1) = (t, .body (w :: ws) after) →
      (0 ∈ counts → exec i s = .next (t.putMy { c with
        pc := after, buf := c.buf.drop 1, seq := c.seq + 1, issueAt := t.now + 1 + h.gap.toNat })) ∧
      (0 ∉ counts → exec i s = .next (t.putMy { c with
        pc := w
        loop := some ⟨c.pc, counts, steps, List.replicate d.toNat 0, w :: ws, 0, after⟩
        buf := c.buf.drop 1, seq := c.seq + 1, issueAt := t.now + 1 + h.gap.toNat }))) ∧
    (∀ (n : Loop) (m : Nat), c.loop = some n → n.body[n.pos]? = some c.pc →
      (n.pos + 1 < n.body.length → c.advance m = { c with
        pc := n.body.getD (n.pos + 1) 0, loop := some { n with pos := n.pos + 1 }, seq := c.seq + 1 }) ∧
      (n.pos + 1 = n.body.length → n.idx.length = n.counts.length → (∀ k, k < n.counts.length → n.idx.getD k 0 < n.counts.getD k 0) →
        (Spec.turnOf n.counts n.idx + 1 < n.counts.prod → ∃ idx, c.advance m = { c with
            pc := n.body.getD 0 0, loop := some { n with pos := 0, idx := idx }, seq := c.seq + 1 } ∧
          idx.length = n.counts.length ∧ (∀ k, k < n.counts.length → idx.getD k 0 < n.counts.getD k 0) ∧
          Spec.turnOf n.counts idx = Spec.turnOf n.counts n.idx + 1) ∧
        (n.counts.prod ≤ Spec.turnOf n.counts n.idx + 1 →
          c.advance m = { c with pc := n.after, loop := none, seq := c.seq + 1 }))) ∧
    (∀ (g k : Nat) (x : Core) (t : State) (w : Instr) (len : Nat), s.Has g k x → x.inLoop = true → x.boundary = none →
      x.block = none → x.join = none → x.tokens = 0 → State.mayIssue { s with cur := (g, k) } g x = true →
      State.fetchNext { s with cur := (g, k) } g x = (t, .word w len) →
      ((vectorMeaning w).isSome = true → exec (.vloopBodyIssue g k) s = exec w t) ∧
      (∀ q r xs u, Spec.arithmetic w = some q → w.wf = true → q.dst = .reg r → q.hdr.pred = 0 →
        x.free (q.srcs.flatMap fun y => descScalars y.desc) [] = true → x.here (q.srcs.flatMap fun y => descBank y.desc) = true →
        t.readSrcs x (t.fv + 1) (.allOnes 64) q.srcs = (u, .got xs) → ∃ v,
        exec (.vloopBodyIssue g k) s = .next (Spec.issued u (x.present (.v r)) q.hdr [.reg r (.allOnes 2048) v] 0 false) ∧
        ∀ j, j < 2048 / q.width → Spec.slot q.width v j =
          (if q.hdr.ty = .e3m2 ∨ q.hdr.ty = .e2m3 then q.elem (.allOnes 64) xs j &&& 0x3F3F3F3F else q.elem (.allOnes 64) xs j)))

/-- R117, R156, R188: inside its window a core's result lands: a register takes the bits that it was given, a predicate too, p0 not;
nothing lands before the window opens. VECTOR_RESULT_LANDING lands the oldest result and no other, and the part may land a later one
that has no place in common with an earlier one, two results of one register having one; that the event is the oldest's is the model's
choice (log 9). -/
def Obligations.VectorResultsLand : Prop :=
  ∀ (s : State) (h c : Nat) (x : Core) (e : VLanding) (r : List VLanding), s.Has h c x → x.vlands = e :: r →
    (s.now < e.opens → exec (.vectorResultLanding h c) s = .next s) ∧
    (e.opens ≤ s.now →
      (∀ (n : BitVec 5) (m v : Slice), e.targets = [.reg n m v] → exec (.vectorResultLanding h c) s = .next (s.modCore h c fun y =>
        { y with vlands := r, v := y.v.modify n.toNat fun o => (o &&& ~~~m) ||| (v &&& m) })) ∧
      (∀ (n : BitVec 3) (m v : Word), e.targets = [.pred n m v] → exec (.vectorResultLanding h c) s = .next (s.modCore h c fun y =>
        { y with
          vlands := r
          p := if n = 0 then y.p else y.p.modify n.toNat fun o => (o &&& ~~~m) ||| (v &&& m) })) ∧
      (∀ cs, e.targets = [.mem cs] → exec (.vectorResultLanding h c) s =
        .next ((s.modCore h c fun y => { y with vlands := r }).writeCells cs))) ∧
    (∀ (i : Nat) (d : VLanding) (n : BitVec 5) (m v : Slice), x.vlands[i]? = some d → d.targets = [.reg n m v] →
      (d.opens ≤ s.now → (∀ y ∈ x.vlands.take i, ∀ z ∈ y.targets, ∀ m' v', z = .reg n m' v' → m = 0 ∨ m' = 0) →
        s.choose (.landLater h c i) = s.modCore h c fun y => { y with
          vlands := x.vlands.eraseIdx i, v := y.v.modify n.toNat fun o => (o &&& ~~~m) ||| (v &&& m) }) ∧
      (m ≠ 0 → (∃ y ∈ x.vlands.take i, ∃ m' v', VTarget.reg n m' v' ∈ y.targets ∧ m' ≠ 0) → s.choose (.landLater h c i) = s) ∧
      (s.now < d.opens → s.choose (.landLater h c i) = s))

/-! ## Engines -/

namespace Sys2Proof.Spec

/-- What an engine word does at issue: its queue and header; the registers that must not be pending, those that it makes
pending, and those of the bank that it reads; what it captures; what it does to its core; and its checks. -/
structure Issue where
  eng   : Engine
  hdr   : EHdr
  reads : List (BitVec 5)
  dests : List (BitVec 5)
  regs  : List BankReg
  img1  : Core → Image
  img2  : Core → Image
  scal  : Core → Word
  counts : Core → List Nat
  post  : Core → Core
  num   : Core → Nat
  check : State → Core → State × CollChk

/-- R271, R273: a pump word makes its token pending, gives its handle register the handle, and takes a new handle; that handles have
begun anew is noted. -/
def pumpPost (tok hreg : BitVec 5) (c : Core) : Core :=
  { (c.ps hreg (.ofNat 64 c.handles.toNat)).setPend tok true with
    handles := c.handles + 1
    wrapped := c.wrapped || decide (c.handles = .allOnes 32) }

/-- A check that traps or lets the word go on. -/
def verdict : Option Cause → CollChk
  | some e => .trap e
  | none => .ok

/-- A pump word of R266, R267 or R272; operand says that its token register holds an operand at issue. -/
def pump (h : EHdr) (p : Pump) (operand : Bool) (src : Option BankReg) (img1 : Core → Image)
    (check : State → Core → Option Cause) : Issue where
  eng := .pump
  hdr := h
  reads := if operand then [p.tok] else []
  dests := p.tok :: (if p.hreg = 0 then [] else [p.hreg])
  regs := src.toList ++ [if p.ring then .q p.db else .b p.db] ++ p.dims.filterMap fun d => match d.bound with
    | .loop l => some (.l l)
    | .count _ => none
  img1 := img1
  img2 := fun c => if p.ring then c.gq p.db else c.gb p.db
  scal := fun c => if operand then c.gs p.tok else 0
  counts := fun c => p.dims.map fun d => match d.bound with
    | .count n => n.toNat
    | .loop l => (c.gl l).toNat
  post := pumpPost p.tok p.hreg
  num := fun _ => 0
  check := fun s c => (s, verdict (check s c))

/-- A matrix word (R309) with the two registers of the bank whose images it captures. -/
def matrix (i : Instr) (h : EHdr) (regs : List BankReg) (img1 img2 : Core → Image) : Issue :=
  ⟨.matrix, h, [], [], regs, img1, img2, fun _ => 0, fun _ => [], id, fun _ => 0,
    fun s c => (s, verdict (s.matrixChk c i))⟩

/-- A well word (R343) with its scalar register and the stream registers that it names, in order. -/
def well (i : Instr) (h : EHdr) (r : BitVec 5) (qs : List (BitVec 4)) : Issue :=
  ⟨.well, h, [r], [], qs.map .q, fun c => (qs.map c.gq).getD 0 0, fun c => (qs.map c.gq).getD 1 0, fun c => c.gs r, fun _ => [],
    id, fun _ => 0, fun s c => (s, verdict (s.wellChk c i))⟩

/-- A collective word (R380); one of count 0 uses neither record. Its entry bears its number among the core's collectives to its group,
of which it is one more (R381). -/
def coll (i : Instr) (h : EHdr) (db sb : BitVec 4) (count : Nat) (g : BitVec 8) : Issue :=
  ⟨.coll, h, [], [], if count = 0 then [] else [.b sb, .b db], fun c => c.gb sb, fun c => c.gb db, fun _ => 0, fun _ => [],
    fun c => { c with colls := c.colls.modify g.toNat (· + 1) }, fun c => c.colls.getD g.toNat 0,
    fun s c => s.collChk c i⟩

/-- The engine words. -/
def issueOf (i : Instr) : Option Issue :=
  match i with
  | .pcopy h p => some (pump h p false (some (.b p.sb)) (·.gb p.sb) fun s c => s.copyChk c p false false)
  | .pgath h p => some (pump h p true (some (.b p.sb)) (·.gb p.sb) fun s c => s.copyChk c p true false)
  | .pscat h p => some (pump h p true (some (.b p.sb)) (·.gb p.sb) fun s c => s.copyChk c p false true)
  | .pfill h p => some (pump h p true none (fun _ => 0) fun s c => s.fillChk c p)
  | .pring h p => some (pump h p false (some (.q p.sb)) (·.gq p.sb) fun s c => s.pringChk c p)
  | .ppage h sb db tok hreg => some ⟨.pump, h, [], tok :: (if hreg = 0 then [] else [hreg]), [.b sb, .b db], fun c => c.gb sb,
      fun c => c.gb db, fun _ => 0, fun _ => [], pumpPost tok hreg, fun _ => 0,
      fun s c => (s, verdict (ppageChk i c sb db))⟩
  | .mmul h _ a b _ => some (matrix i h [.q a, .q b] (·.gq a) (·.gq b))
  | .msl h _ a b _ _ => some (matrix i h [.q a, .q b] (·.gq a) (·.gq b))
  | .mkat h _ a b _ _ => some (matrix i h [.q a, .q b] (·.gq a) (·.gq b))
  | .mst h _ b _ _ _ => some (matrix i h [.b b] (·.gb b) fun _ => 0)
  | .mld h _ b _ => some (matrix i h [.b b] (·.gb b) fun _ => 0)
  | .mzero h _ => some (matrix i h [] (fun _ => 0) fun _ => 0)
  | .mrel h => some (matrix i h [] (fun _ => 0) fun _ => 0)
  | .wload h _ _ _ r => some (well i h r [])
  | .wswap h _ _ => some (well i h 0 [])
  | .wfeed h _ (.stream q _) _ _ p => some (well i h 0 (q :: p.toList))
  | .wfeed h _ .buf _ _ p => some (well i h 0 p.toList)
  | .wdrain h _ q _ _ _ _ => some (well i h 0 [q])
  | .wmode h _ _ _ => some (well i h 0 [])
  | .wpipe h _ _ r _ _ _ => some (well i h r [])
  | .wchk h _ _ r => some (well i h r [])
  | .cred h db sb _ n _ _ g => some (coll i h db sb n.toNat g)
  | .cbcast h db sb _ n _ g => some (coll i h db sb n.toNat g)
  | .cgath h db sb _ n _ g => some (coll i h db sb n.toNat g)
  | .cscat h db sb _ n _ g => some (coll i h db sb n.toNat g)
  | .csync h _ g => some (coll i h 0 0 0 g)
  | _ => none

/-- Entries that a queue holds (R170). -/
def depth : Engine → Nat
  | .pump => 16
  | .matrix => 16
  | .well => 32
  | .coll => 8

/-- The outcome of a guard slot as an entry finds it (R174). -/
def guardOutcome (c : Core) (h : EHdr) : Option Bool :=
  h.guard.elim (some true) fun n =>
    if c.g.getD n.toNat .yes = .opened then none else some (c.g.getD n.toNat .yes = .yes)

end Sys2Proof.Spec

/-- R169, R170, R174, R271, R273, R376, R381, R420: an engine word waits for its registers and for room in its queue; its checks
trap before it issues, or wait for the host; then its entry stands last in its queue with what it captured, bound to the outcome of its guard slot or
pending on it, and the core goes on 24 bytes behind it. -/
def Sys2Proof.Spec.EngineWordsEnterTheirQueue : Prop :=
  ∀ (s : State) (c : Core) (i : Instr) (k : Spec.Issue), s.Runs c → Spec.issueOf i = some k →
    let regs := (k.hdr.guard.map BankReg.g).toList ++ (k.hdr.bar.map fun b => BankReg.b b.b).toList ++ k.regs
    (Spec.depth k.eng ≤ (c.queue k.eng).length → exec i s = .next s) ∧
    (c.free k.reads k.dests = false → exec i s = .next s) ∧
    ((c.queue k.eng).length < Spec.depth k.eng → c.free k.reads k.dests = true → c.here regs = true →
      (∀ t e, k.check s c = (t, .trap e) → exec i s = t.trap e) ∧
      (∀ t, k.check s c = (t, .wait) → exec i s = .next t) ∧
      (∀ t, k.check s c = (t, .ok) →
        (k.hdr.bar = none → t.barCheck c k.hdr = (t, .ok 0 0)) ∧
        (∀ u e, t.barCheck c k.hdr = (u, .trap e) → exec i s = u.trap e) ∧
        (∀ u, t.barCheck c k.hdr = (u, .wait) → exec i s = .next u) ∧
        (∀ u gen ptr, t.barCheck c k.hdr = (u, .ok gen ptr) → ∃ e : Entry,
          e.word = i ∧ e.seq = c.seq ∧ e.outcome = Spec.guardOutcome c k.hdr ∧
          e.pending = (if Spec.guardOutcome c k.hdr = none then k.hdr.guard else none) ∧
          e.granted = false ∧ e.cancel = false ∧ e.user = !c.x.priv ∧ e.gen = gen ∧ e.bar = ptr ∧ e.handle = c.handles ∧ e.num = k.num c ∧
          e.run = none ∧ e.img1 = k.img1 c ∧ e.img2 = k.img2 c ∧ e.scal = k.scal c ∧ e.bounds = k.counts c ∧
          exec i s =
            .next (u.done (((k.post c).setQueue k.eng (c.queue k.eng ++ [e])).noteHeads (u.waitCk u.cur.1)) 24 0))))

/-- R265 to R268, R298, R309, R343, R380: checks that stop an engine word before its entry is made: a record that is not valid,
ppage at user level, a matrix word of a node that has not declared the engine, an accumulator that the node does not have, a
well word off the driver core, and a collective's type; a collective of count 0 is not checked. The check of a completion barrier
waits until the core's own stores to the object have performed (R358). -/
def Sys2Proof.Spec.EngineIssueChecks : Prop :=
  ∀ (s : State) (c : Core), s.Runs c →
    (∀ p g t, (recOf (c.gb p.sb)).ok = false → ∃ e, s.copyChk c p g t = some e) ∧
    (∀ p, (recOf (c.gb p.db)).ok = false → s.fillChk c p = some (.bounds false 0)) ∧
    (∀ h sb db tok hreg, (c.queue .pump).length < 16 → c.free [] (tok :: if hreg = 0 then [] else [hreg]) = true → c.absent = [] →
      c.x.priv = false →
      exec (.ppage h sb db tok hreg) s = s.trap (.privilege (firstGranule (.ppage h sb db tok hreg)))) ∧
    (∀ i, s.myCtx.held.all (fun n => !n.matrix) = true → s.matrixChk c i = some .undeclaredMatrix) ∧
    (∀ h a n, s.myCtx.held = some n → n.matrix = true → n.acc ≤ a.toNat → s.matrixChk c (.mzero h a) = some (.bounds false 0)) ∧
    (∀ h a n, s.myCtx.held = some n → n.matrix = true → a.toNat < n.acc → s.matrixChk c (.mzero h a) = none) ∧
    (∀ h n, s.myCtx.held = some n → n.matrix = true → s.matrixChk c (.mrel h) = none) ∧
    (∀ i, s.cur.2 ≠ 0 → s.wellChk c i = some (.bounds false 0)) ∧
    (∀ i, s.myCtx.held.all (fun n => !n.well) = true → s.wellChk c i = some (.bounds false 0)) ∧
    (∀ h sc g, s.collChk c (.csync h sc g) = (s, .ok)) ∧
    (∀ h d b t op sc g, s.collChk c (.cred h d b t 0 op sc g) = (s, .ok)) ∧
    (∀ h d b n op sc g m, s.myCtx.held = some m → n ≠ 0 → s.collChk c (.cred h d b .s4 n op sc g) = (s, .trap (.bounds false 0))) ∧
    (∀ e b t l p, e.bar = some b → s.object s.cur.1 s.cur.2 (!c.x.priv) (recOf (c.gb b.b)) (16 * b.off.toNat : Nat) 16 true [0, 3] =
      (t, .at_ l p) → c.ownDone l 16 = false → s.barCheck c e = (t, .wait))

/-- R171, R175, R176: the steps of a head, from its guard's outcome, its units and its run. -/
def Sys2Proof.Spec.EntrySteps : Prop :=
  ∀ e : Entry,
    (e.run ≠ none → e.step = .running) ∧
    (e.run = none → e.outcome = none → e.step = .guardHeld) ∧
    (e.run = none → e.outcome ≠ none → e.hdr.wcnt ≠ 0 → e.granted = false → e.step = .semWaiting) ∧
    (e.run = none → (e.hdr.wcnt = 0 ∨ e.granted = true) → e.outcome = some true → e.cancel = false → e.step = .ready) ∧
    (e.run = none → (e.hdr.wcnt = 0 ∨ e.granted = true) → (e.outcome = some false ∨ e.outcome = some true ∧ e.cancel = true) →
      e.step = .discarded)

/-- Charges of the matrix words (R307): passes of msl go with its slices, mst with the bytes of its elements. -/
def Sys2Proof.Spec.charge : Instr → Nat
  | .mmul _ _ _ _ _ => 64
  | .mkat _ _ _ _ _ _ => 72
  | .msl _ _ _ _ _ sl => 64 * ((sl.toNat + 1) * (sl.toNat + 2) / 2) + 16
  | .mst _ _ _ k _ _ => match k with
    | .f64 => 512
    | .f32 => 256
    | .bf16 | .f16 => 128
    | .e4m3 | .e5m2 => 64
  | .mld _ _ _ _ => 256
  | .mzero _ _ => 16
  | _ => 1

/-- R172, R263, R270, R272, R297: a pump takes a head that is Ready, whose core's earlier stores have performed, whose rings have room
for the job's B bytes or hold them, and that no other engine's head shuts out of a ring; not in an emergency. The idle pump takes
the core that comes next. -/
def Sys2Proof.Spec.PumpEntriesStart : Prop :=
  ∀ (s : State) (h c : Nat) (x : Core), s.Has h c x →
    (s.pumpReady h c = true ↔ ∃ e j, x.head .pump = some e ∧ pumpJob x e = some j ∧ e.step = .ready ∧ x.swapped = false ∧
      (∀ q ∈ x.sq, e.seq ≤ q.seq) ∧ x.roleFree e = true ∧ s.engineFree h c .pump = true ∧ s.inEmergency h = false ∧
      (∀ k p, e.word = .pcopy k p ∨ e.word = .pgath k p → p.ring = true →
        j.bytes ≤ (streamOf (x.gq p.db)).size - (streamOf (x.gq p.db)).filled) ∧
      (∀ k p, e.word = .pring k p → j.bytes ≤ (streamOf (x.gq p.sb)).filled)) ∧
    (∀ p, s.pumpChoice h = some (c, p) → exec (.engineEntryStart h c .pump) s = .next ((s.startRun h c .pump (.fresh p s.now)).modCtx h
      fun z => { z with lastRun := z.lastRun.set p c })) ∧
    (∀ p k, s.pumpChoice h = some (k, p) → k ≠ c → exec (.engineEntryStart h c .pump) s = .next s)

/-- R304 to R306: a matrix head that may start takes its core's lease for one more entry, if the lease's ck with its charge do not
exceed 4,096 and fewer than 16 have started; its operand tiles are read from the heads of its rings. An mrel whose core has no
lease completes at once and does nothing; no other head starts without one. -/
def Sys2Proof.Spec.MatrixEntriesStart : Prop :=
  ∀ (s : State) (h c : Nat) (x : Core) (y : HerdCtx) (e : Entry), s.Has h c x → s.ctx? h = some y → x.head .matrix = some e →
    s.matrixReady h c = true → s.operandsHeld h c e = false →
    (∀ l, y.lease = some l → l.core = c → s.matrixBusy h = false → s.now - l.since + Spec.charge e.word ≤ 4096 → l.runs < 16 →
      let d := s.readOperands h c x e
      exec (.engineEntryStart h c .matrix) s = .next ((d.1.startRun h c .matrix d.2).modCtx h fun z =>
        { z with lease := some { l with runs := l.runs + 1, idle := none } })) ∧
    (operandsOf e = [] → s.readOperands h c x e = (s, .fresh (s.stretched h e) s.now)) ∧
    (∀ a b, operandsOf e = [a, b] → a.q.stripe = 0 → b.q.stripe = 0 → s.marks = [] → s.misses = [] →
      (∀ l, s.inDeadGroup l = false) → s.readOperands h c x e = (s, { Run.fresh (s.stretched h e) s.now with
        kept := [a, b].map fun o => (List.range o.t).map fun i =>
          s.mem.byte (o.q.loc h c ((streamOf (x.gq o.reg)).head.toNat + i)) })) ∧
    (∀ k, e.word = .mrel k → (∀ l, y.lease = some l → l.core ≠ c) → e.hdr.bar = none → 2 ≤ x.last.length → ∃ t z,
      exec (.engineEntryStart h c .matrix) s = .next t ∧ t.Has h c z ∧ t.mem = s.mem ∧
      (t.ctx? h).map (fun w => (w.lease, w.acc)) = some (y.lease, y.acc) ∧
      (z.queue .matrix).map (·.seq) = ((x.queue .matrix).drop 1).map (·.seq) ∧
      z.last.getD 1 .ok = (if s.matrixSound h = true then .ok else .replayLost)) ∧
    ((∀ k, e.word ≠ .mrel k) → (∀ l, y.lease = some l → l.core ≠ c) → exec (.engineEntryStart h c .matrix) s = .next s)

/-- R172, R344, R345, R351: the windlass takes the driver's head once the rectangle's refills are done. A wload starts to fill the latch
that it names in each of its wells, from its offset and with the row's format, but in a well whose latch is being filled, which
waits. -/
def Sys2Proof.Spec.WellEntriesStart : Prop :=
  ∀ (s : State) (h c : Nat) (x : Core) (e : Entry), s.Has h c x → x.head .well = some e → s.wellReady h c = true →
    s.refilling h = false → s.refilled h = s →
    ((∀ g r l o n, e.word ≠ .wload g r l o n) →
      exec (.engineEntryStart h c .well) s = .next (s.startRun h c .well (.fresh 0 s.now))) ∧
    (∀ g r li o n rect, e.word = .wload g r li o n → s.rect? h = some rect → ∃ t w z q rs,
      exec (.engineEntryStart h c .well) s = .next t ∧ t.Has h c w ∧ w.head .well = some { e with run := some q } ∧
      q = { Run.fresh 0 s.now with reads := rs } ∧ t.rect? h = some z ∧ t.mem = s.mem ∧
      ∀ i k, i < rect.wells.length → k < (rect.wells.getD i []).length →
        let old := (rect.well i k).latch li
        ((i, k) ∈ wellsOf e.word → old.fill = none → (i, k) ∉ rs ∧ (z.well i k).latch (!li) = (rect.well i k).latch (!li) ∧
          (z.well i k).latch li = { old with
            off := some ((o.toNat + e.scal.toNat) % 2 ^ 64)
            fmt := (rect.row i).fmt, tr := (rect.row i).tr, fill := some ⟨false, [], []⟩ }) ∧
        ((i, k) ∈ wellsOf e.word → old.fill ≠ none → (i, k) ∈ rs ∧ z.well i k = rect.well i k) ∧
        ((i, k) ∉ wellsOf e.word → (i, k) ∉ rs ∧ z.well i k = rect.well i k))

/-- R305, R306: LEASE_GRANT gives the lease to the core that comes next, if none is held; LEASE_END takes it back once the holder's next
entry would break a limit, or the holder has had nothing to start for 64 ck while another core waits. -/
def Sys2Proof.Spec.LeasesGoRound : Prop :=
  ∀ (s : State) (h : Nat) (y : HerdCtx), s.ctx? h = some y →
    (y.lease = none → s.matrixBusy h = false → ∀ i, nextAfter (y.lastRun.getD 3 7) (s.wantsLease h) = some i →
      exec (.leaseGrant h) s = .next (s.modCtx h fun z =>
        { z with lease := some ⟨i, s.now, 0, none⟩, lastRun := z.lastRun.set 3 i })) ∧
    (∀ l, y.lease = some l → exec (.leaseGrant h) s = .next s) ∧
    (∀ l, y.lease = some l →
      (s.leaseOver h l = true → exec (.leaseEnd h) s = .next (s.modCtx h fun z => { z with lease := none })) ∧
      (s.leaseOver h l = false → exec (.leaseEnd h) s = .next s) ∧
      (s.matrixBusy h = true → s.leaseOver h l = false)) ∧
    (∀ l e, y.lease = some l → s.matrixBusy h = false → (s.core? h l.core).bind (·.head .matrix) = some e →
      (s.matrixReady h l.core = true →
        s.leaseOver h l = !(decide (s.now - l.since + Spec.charge e.word ≤ 4096) && decide (l.runs < 16))) ∧
      (s.matrixReady h l.core = false → (s.leaseOver h l = true ↔
        (∃ i, i < 8 ∧ i ≠ l.core ∧ s.wantsLease h i = true) ∧ ∃ ck, l.idle = some ck ∧ 64 ≤ s.now - ck))) ∧
    (∀ l, y.lease = some l → s.matrixBusy h = false → (s.core? h l.core).bind (·.head .matrix) = none →
      (s.leaseOver h l = true ↔ ∃ i, i < 8 ∧ i ≠ l.core ∧ s.wantsLease h i = true))

/-- The participants of a collective on this part, with their entries and their numbers (R381). -/
def Sys2Proof.Spec.joined (s : State) (n : Held) (h : Nat) (k : Coll) (num : Nat) : List ((Nat × Nat) × Entry × Nat) :=
  ((s.participants n h k.scope).zip ((s.participants n h k.scope).filterMap (s.collHead n k num))).zipIdx.map fun x =>
    (x.1.1, x.1.2, if k.scope = .system ∧ Config.peerFirst n.lseq n.node k.group.msb = true then
      Config.peerCores n.lseq n.node k.group.msb + x.2 else x.2)

/-- R172, R381, R382: a collective starts at all of its participants at once, or at none: the head of every core of the gang within its
scope is Ready, and is a collective of the same group, scope and number. It reads what they send first, and may have to wait for
the host; one of count 0 reads nothing. ENGINE_ENTRY_START of engine 3 is COLLECTIVE_START. -/
def Sys2Proof.Spec.CollectivesStartTogether : Prop :=
  ∀ (s : State) (h c : Nat) (x : Core), s.Has h c x →
    exec (.engineEntryStart h c .coll) s = exec (.collectiveStart h c) s ∧
    ∀ (e : Entry) (k : Coll) (n : Held), x.head .coll = some e → collOf e.word = some k → (s.ctx? h).bind HerdCtx.held = some n →
      let ps := s.participants n h k.scope
      let all := Spec.joined s n h k e.num
      (∀ p, p ∈ ps ↔ p.2 < 8 ∧ (if k.scope = .core ∨ k.scope = .herd then p.1 = h else
        p.1 ∈ ((s.node? n.lseq n.node).map Node.herds).getD [] ∧ (k.scope = .die → p.1 / 16 = h / 16))) ∧
      (∀ p z, s.collHead n k e.num p = some z → ∃ w j, s.Has p.1 p.2 w ∧ w.head .coll = some z ∧ z.step = .ready ∧
        s.holdsNode n.lseq n.node p.1 = true ∧ collOf z.word = some j ∧ j.group = k.group ∧ j.scope = k.scope ∧ z.num = e.num) ∧
      ((∃ p ∈ ps, s.collHead n k e.num p = none) → exec (.collectiveStart h c) s = .next s) ∧
      (ps ≠ [] → (∀ p ∈ ps, (s.collHead n k e.num p).isSome = true) →
        let y := s.readSends e.word (s.parties n h k) all
        (y.2.any BufAcc.wait = true → exec (.collectiveStart h c) s = .next y.1) ∧
        (y.2.any BufAcc.wait = false → ∃ t, exec (.collectiveStart h c) s = .next t ∧ t.mem = y.1.mem ∧
          ∀ p ∈ ps, ∃ z w r, t.Has p.1 p.2 z ∧ z.head .coll = some w ∧ w.run = some r ∧ r.pos = 0 ∧ r.unit = s.parties n h k) ∧
        ((∀ a ∈ all, ∃ j, collOf a.2.1.word = some j ∧ j.count = 0) → y.1 = s ∧ y.2.any BufAcc.wait = false))

/-- R175, R177 to R183, R271, R373: what the completion of an entry does to its core: its token takes the bytes written or the negated
status, and no word has read it; the queue's count, last status and detail, which saturates; and the next entry becomes the head,
whose age begins if it waits. A signal of the header's units saturates at 65,535, and the first to do so is noted in xkov. -/
def Sys2Proof.Spec.CompletionOfACore : Prop :=
  (∀ (x : HerdCtx) (k : BitVec 8) (n : Nat),
    ((x.sem k).toNat + n ≤ 65535 → x.signal k n = x.setSem k (.ofNat 16 ((x.sem k).toNat + n))) ∧
    (65535 < (x.sem k).toNat + n → x.signal k n = { x.setSem k 65535 with kov := true, ksem := if x.kov then x.ksem else k })) ∧
  (∀ (c : Core) (g : Engine) (e : Entry) (st : EStatus) (d w now : Nat), tokenOf e.word = none →
    c.complete g e st d w now = Core.noteHeads { c.setQueue g ((c.queue g).drop 1) with
      last := c.last.set (engineCode g) st
      details := c.details.set (engineCode g) (min d (2 ^ 32 - 1))
      done := c.done.modify (engineCode g) (· + 1) } now) ∧
  (∀ (c : Core) (g : Engine) (e : Entry) (st : EStatus) (d w now : Nat) (r : BitVec 5), tokenOf e.word = some r → r ≠ 0 →
    r.toNat < c.s.length →
    (c.complete g e st d w now).gs r = (if st = .ok then .ofNat 64 w else -(.ofNat 64 st.code)) ∧
    (c.complete g e st d w now).isPend r = false ∧ (c.complete g e st d w now).tokens = c.tokens ||| (1#32 <<< r.toNat)) ∧
  (∀ (s : State) (h c : Nat) (g : Engine) (e : Entry) (st : EStatus) (d w b : Nat), e.hdr.bar = none →
    (s.complete h c g e st d w b).mem = s.mem ∧
    (e.hdr.scnt = 0 → s.complete h c g e st d w b = s.modCore h c fun x => x.complete g e st d w (s.waitCk h))) ∧
  [EStatus.ok, .eccZeroed, .scalePoison, .checksumMismatch, .katMismatch, .replayLost, .cancelled, .staleBarrier, .translation,
    .peerDown, .queueReset, .thermalAbort].map EStatus.code = List.range 12

/-- R175, R178 to R182, R274, R372, R373: the completion of a head that performs nothing, discarded or cancelled: it waits while the
herd's semaphores take no signal in this ck; it signals its header's units, and nothing else of the semaphores changes; it arrives
at its header's barrier with the tag that it captured, by the bytes that it would have moved if it is a cancelled pump entry and
the object counts bytes. An arrival that is discarded, or that no longer reaches its object, makes the status stale_barrier and
changes no memory; without a barrier no memory changes. -/
def Sys2Proof.Spec.IdleCompletions : Prop :=
  ∀ (s : State) (h c : Nat) (g : Engine) (x : Core) (y : HerdCtx), s.Has h c x → s.ctx? h = some y → s.oldCore? h c = none →
    (x.head g = none → exec (.engineEntryCompletion h c g) s = .next s) ∧
    (∀ e, x.head g = some e → e.step ∉ [EStep.running, .discarded] → exec (.engineEntryCompletion h c g) s = .next s) ∧
    ∀ e, x.head g = some e → e.step = .discarded → x.swapped = false →
      (s.mayEnd h e = true ↔ e.hdr.scnt = 0 ∨ y.turn.ck ≠ s.now ∨ y.turn.granted = false ∧ y.turn.sigs = []) ∧
      (s.mayEnd h e = false → exec (.engineEntryCompletion h c g) s = .next s) ∧
      (s.mayEnd h e = true →
        let st := if e.cancel = true then EStatus.cancelled else .ok
        let bytes := e.idleBytes x
        (e.outcome = some true → ∀ j, pumpJob x e = some j → bytes = j.bytes) ∧
        (e.outcome ≠ some true ∨ pumpJob x e = none → bytes = 0) ∧
        (e.hdr.bar = none → ∃ t z w, exec (.engineEntryCompletion h c g) s = .next t ∧ t.ctx? h = some z ∧ t.Has h c w ∧
          t.mem = s.mem ∧ w.last = x.last.set (engineCode g) st ∧
          (w.queue g).map (·.seq) = ((x.queue g).drop 1).map (·.seq) ∧
          (e.hdr.scnt = 0 → z.k = y.k ∧ z.kov = y.kov ∧ exec (.engineEntryCompletion h c g) s =
            .next (s.complete h c g e st 0 0 bytes)) ∧
          (e.hdr.scnt ≠ 0 → y.k.length = 256 → z.kov = (y.kov || decide (65535 < (y.sem e.hdr.ssem).toNat + e.hdr.scnt.toNat)) ∧
            ∀ k, (z.sem k).toNat =
              if k = e.hdr.ssem then min 65535 ((y.sem k).toNat + e.hdr.scnt.toNat) else (y.sem k).toNat)) ∧
        (∀ b p l t, e.hdr.bar = some b → e.hdr.scnt = 0 → s.reach h c e.user e.bar ⟨16, 16, true, false⟩ = (t, .at_ p (.loc l false)) →
          t.anyDead l = false → ∀ u v, t.homeRead l 16 = (u, v) →
          let o := Machine.barOf v
          let n := o.arrive (if o.bytes = true then bytes else 1) (.ofNat 8 st.code) true
          (o.discards (some e.gen) = true → ∃ z w, exec (.engineEntryCompletion h c g) s = .next z ∧ z.Has h c w ∧
            w.last = x.last.set (engineCode g) .staleBarrier ∧ z.mem = u.mem) ∧
          (o.discards (some e.gen) = false → ∃ z w, exec (.engineEntryCompletion h c g) s = .next z ∧ z.Has h c w ∧
            w.last = x.last.set (engineCode g) st ∧
            z.mem = u.mem.write l (leBytes 8 n.dw0.toNat ++ leBytes 8 n.dw1.toNat))) ∧
        (∀ b t, e.hdr.bar = some b → e.hdr.scnt = 0 →
          ((∃ f, s.reach h c e.user e.bar ⟨16, 16, true, false⟩ = (t, .fail f)) ∨ s.reach h c e.user e.bar ⟨16, 16, true, false⟩ = (t, .wait)) →
          ∃ z w, exec (.engineEntryCompletion h c g) s = .next z ∧ z.Has h c w ∧
            w.last = x.last.set (engineCode g) .staleBarrier ∧ z.mem = t.mem))

/-- R178, R306, R316, R372, R373: the completion of a Running mrel, which performs nothing: the lease of its core ends, its header's
units are signalled, and it arrives at its header's barrier, as one arrival whether or not the object counts bytes of it. -/
def Sys2Proof.Spec.RunningMrelCompletes : Prop :=
  ∀ (s : State) (h c : Nat) (x : Core) (y : HerdCtx) (e : Entry) (r : Run) (k : EHdr), s.Has h c x → s.ctx? h = some y →
    s.oldCore? h c = none → x.head .matrix = some e → e.word = .mrel k → e.run = some r → r.stop = false → r.final = .ok →
    s.matrixSound h = true → (s.mayEnd h e = false → exec (.engineEntryCompletion h c .matrix) s = .next s) ∧
    (s.mayEnd h e = true →
      (k.bar = none → ∃ t z w, exec (.engineEntryCompletion h c .matrix) s = .next t ∧ t.ctx? h = some z ∧ t.Has h c w ∧
        t.mem = s.mem ∧ w.last = x.last.set 1 .ok ∧ z.acc = y.acc ∧
        (z.lease = if (y.lease.map Lease.core) = some c then none else y.lease) ∧
        (y.k.length = 256 → ∀ i, (z.sem i).toNat =
          if i = k.ssem then min 65535 ((y.sem i).toNat + k.scnt.toNat) else (y.sem i).toNat)) ∧
      (∀ b p l t, k.bar = some b → k.scnt = 0 → s.reach h c e.user e.bar ⟨16, 16, true, false⟩ = (t, .at_ p (.loc l false)) →
        t.anyDead l = false → ∀ u v, t.homeRead l 16 = (u, v) → (Machine.barOf v).discards (some e.gen) = false →
        let n := (Machine.barOf v).arrive (if (Machine.barOf v).bytes = true then 0 else 1) 0 true
        ∃ z w, exec (.engineEntryCompletion h c .matrix) s = .next z ∧ z.Has h c w ∧ w.last = x.last.set 1 .ok ∧
          z.mem = u.mem.write l (leBytes 8 n.dw0.toNat ++ leBytes 8 n.dw1.toNat)))

namespace Sys2Proof.Spec

/-- The Running head of a core's engine whose completion is its next event: it names no barrier, and its herd's semaphores take a
signal in this ck if it has one. -/
structure Ends (s : State) (h c : Nat) (g : Engine) (x : Core) (e : Entry) (r : Run) : Prop where
  core : s.Has h c x
  one  : (s.herds[h]?).bind Herd.old = none
  head : x.head g = some e
  run  : e.run = some r
  go   : r.stop = false
  fine : r.final = .ok
  bar  : e.hdr.bar = none
  open_ : s.mayEnd h e = true

/-- Nothing is wrong with memory: no error stands anywhere, no reconstruction is to fail, no parity group has retired, and no footprint
is still being spilled. -/
structure Sound (s : State) : Prop where
  marks : s.marks = []
  miss  : s.misses = []
  alive : ∀ x ∈ s.herds, ∀ p ∈ x.phys, ∀ g ∈ p.groups, g.dead = false
  out   : ∀ l, s.spillHolds l = false

/-- R312: element (i, j) of a tile step: the exact sum of the products along K, with the old value unless init, rounded once to nearest
even. -/
def stage (init : Bool) (k : Nat) (va vb : List Machine.Num) (old : Lane) (i j : Nat) : Nat :=
  let t := ((va.drop (k * i)).take k |>.zip ((vb.drop (k * j)).take k)).foldl
    (fun x p => Machine.Num.add .rne x (p.1.mul p.2)) (.fin false 0 1)
  roundTo F32 .rne false (if init then t else Machine.Num.add .rne t (F32.decode old.toNat))

/-- n / d to the nearest integer, ties to even (R318). -/
def nearest (n : Int) (d : Nat) : Int :=
  let q := n / (d : Int)
  if 2 * (n % d) < d ∨ (2 * (n % d) = d ∧ q % 2 = 0) then q else q + 1

/-- R318: the s digits of r = n / d: the first counts 1 / 64 and each later one 1 / 128 of the one before it. -/
def digitsOf : Nat → Int → Int → Nat → List Int
  | 0, _, _, _ => []
  | t + 1, m, n, d => nearest (m * n) d :: digitsOf t 128 (m * n - nearest (m * n) d * d) d

/-- The magnitude of a number as a fraction; nothing for a NaN or an infinity. -/
def fraction : Machine.Num → Option (Int × Nat)
  | .fin neg n d => some (if neg then -(n : Int) else n, d)
  | _ => none

/-- R318: E of a line: the greatest exponent of its values that are not zero, else 0. -/
def lineExp (xs : List (Int × Nat)) : Int :=
  (((xs.filter fun x => x.1 ≠ 0).map fun x => floorLog2 x.1.natAbs x.2).max?).getD 0

/-- R318: the digits of the values of a line, each scaled by 2^(-E - 1). -/
def lineDigits (s : Nat) (e : Int) (xs : List (Int × Nat)) : List (List Int) :=
  xs.map fun x => digitsOf s 64 (x.1 * ((pow2 (-e - 1)).1 : Int)) (x.2 * (pow2 (-e - 1)).2)

/-- R319: the element that msl forms of a row and a column, and its old code: the passes whose digits count no less than the lowest
that is kept, summed exactly; NaN where a value of either line is not finite. -/
def sliced (f : FFmt) (s : Nat) (init : Bool) (a b : List Machine.Num) (old : Nat) : Nat :=
  if (a ++ b).any fun x => (fraction x).isNone then f.nanOf
  else
    let xa := a.filterMap fraction
    let xb := b.filterMap fraction
    let da := lineDigits s (lineExp xa) xa
    let db := lineDigits s (lineExp xb) xb
    let n : Int := ((da.zip db).map fun p => ((List.range s).map fun i => ((List.range (s - i)).map fun j =>
      p.1.getD i 0 * p.2.getD j 0 * 128 ^ (s - 1 - i - j)).sum).sum).sum
    let z : Machine.Num := .dyadic (decide (n < 0)) n.natAbs (2 - 7 * ((s : Int) + 1) + lineExp xa + lineExp xb + 2)
    roundTo f .rne false (if init then z else Machine.Num.add .rne z (f.decode old))

/-- R311, R314: the code that mst writes for an element. -/
def mstCode (k : OutKind) (sat : Bool) (x : Nat) : Nat :=
  let large (f : FFmt) (i : Nat) := if sat = true ∧ x % 2 ^ (f.bits - 1) = i then x - 1 else x
  match k with
  | .f32 => large F32 0x7F800000
  | .f64 => large F64 0x7FF0000000000000
  | .bf16 => roundTo BF16 .rne sat (F32.decode x)
  | .f16 => roundTo F16 .rne sat (F32.decode x)
  | .e4m3 => roundTo E4M3 .rne sat (F32.decode x)
  | .e5m2 => roundTo E5M2 .rne sat (F32.decode x)

end Sys2Proof.Spec

/-- R302, R304, R312, R313, R316, R318, R319, R324: what the matrix words commit when they complete: mzero sets every element of its
accumulator to +0; mmul and mkat commit a tile step of their operand tiles, and pop them from their rings; a mkat whose tile has
another signature than its own reports it; msl commits the sliced products; and every other accumulator keeps its value. The order
in which exact zeros are summed, along k from +0, is the model's choice (log 70). -/
def Sys2Proof.Spec.MatrixCommits : Prop :=
  ∀ (s : State) (h c : Nat) (x : Core) (y : HerdCtx) (e : Entry) (r : Run), Spec.Ends s h c .matrix x e r → s.ctx? h = some y →
    s.matrixSound h = true → (∀ t ∈ y.acc, t.length = 16384) → y.accErr = [] → 2 ≤ x.last.length → x.q.length = 16 →
    (∀ n, e.word = .mzero e.hdr n → n.toNat < y.acc.length → ∃ t z, exec (.engineEntryCompletion h c .matrix) s = .next t ∧
      t.ctx? h = some z ∧ t.mem = s.mem ∧ z.acc = y.acc.set n.toNat (List.replicate 16384 0)) ∧
    (∀ n qa qb init k va vb, (e.word = .mmul e.hdr n qa qb init ∨ ∃ crc, e.word = .mkat e.hdr n qa qb init crc) →
      wordK e.word (streamOf e.img1) (streamOf e.img2) = some k → r.tiles x e = [va, vb] → va.length = 128 * k →
      vb.length = 128 * k → 0 < k → n.toNat < y.acc.length →
      ∃ t z w, exec (.engineEntryCompletion h c .matrix) s = .next t ∧ t.ctx? h = some z ∧ t.Has h c w ∧ t.mem = s.mem ∧
        (∀ i j, i < 128 → j < 128 → (z.acc.getD n.toNat [])[128 * i + j]? =
          some (.ofNat 32 (Spec.stage init k va vb ((y.acc.getD n.toNat []).getD (128 * i + j) 0) i j))) ∧
        (∀ m, m ≠ n.toNat → z.acc.getD m [] = y.acc.getD m []) ∧
        (qa ≠ qb → (streamOf (w.gq qa)).head = (streamOf (x.gq qa)).head + .ofNat 32 ((streamOf e.img1).tileBytes k) ∧
          (streamOf (w.gq qb)).head = (streamOf (x.gq qb)).head + .ofNat 32 ((streamOf e.img2).tileBytes k)) ∧
        ((streamOf e.img1).stripe = 0 → (streamOf e.img2).stripe = 0 → w.last.getD 1 .ok =
          match e.word with
          | .mkat _ _ _ _ _ crc => if crc64 (tileImage (z.acc.getD n.toNat [])) = crc then .ok else .katMismatch
          | _ => .ok)) ∧
    (∀ n qa qb init sl va vb, e.word = .msl e.hdr n qa qb init sl → r.tiles x e = [va, vb] → va.length = 8192 → vb.length = 8192 →
      let k := sl.toNat + 1
      let row (v : List Machine.Num) (i : Nat) := (v.drop (64 * i)).take 64
      let old (m i j : Nat) : Nat := ((y.acc.getD m []).getD (128 * i + j) 0).toNat
      ∃ t z, exec (.engineEntryCompletion h c .matrix) s = .next t ∧ t.ctx? h = some z ∧ t.mem = s.mem ∧
        (∀ i j, (streamOf e.img1).code = 0x05 → n.toNat < y.acc.length → i < 128 → j < 128 →
          (z.acc.getD n.toNat [])[128 * i + j]? =
            some (.ofNat 32 (Spec.sliced F32 k init (row va i) (row vb j) (old n.toNat i j))) ∧
          (∀ m, m ≠ n.toNat → z.acc.getD m [] = y.acc.getD m [])) ∧
        (∀ i j, (streamOf e.img1).code = 0x1D → n.toNat + 1 < y.acc.length → i < 128 → j < 128 →
          let v := Spec.sliced F64 k init (row va i) (row vb j) (old n.toNat i j + 2 ^ 32 * old (n.toNat + 1) i j)
          (z.acc.getD n.toNat [])[128 * i + j]? = some (.ofNat 32 v) ∧
          (z.acc.getD (n.toNat + 1) [])[128 * i + j]? = some (.ofNat 32 (v / 2 ^ 32)))) ∧
    (∀ a b ba bb, operandsOf e = [a, b] → r.kept = [ba, bb] →
      (a.q.code = 0x04 → b.q.code = 0x04 → r.tiles x e = [ba, bb].map fun t => (codesOf 16 t).map BF16.decode) ∧
      (a.q.code = 0x05 → b.q.code = 0x05 → r.tiles x e = [ba, bb].map fun t => (codesOf 32 t).map F32.decode) ∧
      (a.q.code = 0x01 → b.q.code = 0x01 → r.tiles x e = [ba, bb].map fun t => t.map fun u => .ofInt u.toInt)) ∧
    crc64 [0x31, 0x32, 0x33, 0x34, 0x35, 0x36, 0x37, 0x38, 0x39] = 0x6C40DF5F0B497347

/-- R311, R314, R315: mst writes its accumulator to the 128 rows of its record, element by element, and no other byte changes; mld loads
its accumulator from 128 rows of f32. -/
def Sys2Proof.Spec.MatrixMoves : Prop :=
  ∀ (s : State) (h c : Nat) (x : Core) (y : HerdCtx) (e : Entry) (r : Run), Spec.Ends s h c .matrix x e r → s.ctx? h = some y →
    s.matrixSound h = true → (∀ t ∈ y.acc, t.length = 16384) → y.accErr = [] → Spec.Sound s →
    (∀ n b k sat off (rows : List Nat), e.word = .mst e.hdr n b k sat off → n.toNat < y.acc.length → (k = .f64 → n.toNat + 1 < y.acc.length) →
      s.blockRows h c e.user (recOf e.img1) off.toNat (outKindBytes k) true = some (rows.map some) →
      (∀ i j, i < 128 → j < 128 → i ≠ j → ∀ l l', rows[i]? = some l → rows[j]? = some l' →
        l + 128 * outKindBytes k ≤ l' ∨ l' + 128 * outKindBytes k ≤ l) →
      ∃ t, exec (.engineEntryCompletion h c .matrix) s = .next t ∧ (∀ z, t.ctx? h = some z → z.acc = y.acc) ∧
        (∀ i j b' l, i < 128 → j < 128 → b' < outKindBytes k → rows[i]? = some l →
          let lo := ((y.acc.getD n.toNat []).getD (128 * i + j) 0).toNat
          let hi := ((y.acc.getD (n.toNat + 1) []).getD (128 * i + j) 0).toNat
          t.mem.byte (l + j * outKindBytes k + b') =
            .ofNat 8 (Spec.mstCode k sat (if k = .f64 then lo + 2 ^ 32 * hi else lo) / 256 ^ b')) ∧
        (∀ l', (∀ l ∈ rows, l' < l ∨ l + 128 * outKindBytes k ≤ l') → t.mem.byte l' = s.mem.byte l')) ∧
    (∀ n b off (rows : List Nat), e.word = .mld e.hdr n b off → n.toNat < y.acc.length →
      s.blockRows h c e.user (recOf e.img1) off.toNat 4 false = some (rows.map some) →
      ∃ t z, exec (.engineEntryCompletion h c .matrix) s = .next t ∧ t.ctx? h = some z ∧ t.mem = s.mem ∧
        (∀ i j l, i < 128 → j < 128 → rows[i]? = some l →
          (z.acc.getD n.toNat [])[128 * i + j]? = some (.ofNat 32 (s.loadNat (l + 4 * j) 4))) ∧
        (∀ m, m ≠ n.toNat → z.acc.getD m [] = y.acc.getD m []))

namespace Sys2Proof.Spec

/-- R263: the stride of level i: natural, one of the record's, or zero. -/
def strideAt (j : PJob) (r : Rec) (sel : BitVec 2) (i : Nat) : Int :=
  if sel = 0 then (j.e * (j.counts.take i).prod : Nat) else if sel = 1 then r.str0 else if sel = 2 then r.str1 else 0

/-- R263: the digit of level i of element m in nest order. -/
def digitAt (j : PJob) (m i : Nat) : Nat := m / (j.counts.take i).prod % j.counts.getD i 1

/-- R267: the index of the row of element m, a signed word of the index list in the core's scratchpad. -/
def indexAt (s : State) (h c : Nat) (j : PJob) (m : Nat) : Int :=
  (BitVec.ofNat 32 (s.loadNat (scratchLoc h c (j.list + 4 * (m / j.counts.headD 1))) 4)).toInt

/-- R263, R267: the offset of element m through a record. -/
def offsetAt (s : State) (h c : Nat) (j : PJob) (r : Rec) (off : Nat) (sels : List (BitVec 2)) (indexed : Bool) (m : Nat) : Int :=
  if indexed then
    off + digitAt j m 0 * strideAt j r (sels.getD 0 0) 0 + indexAt s h c j m * strideAt j r (sels.getD 1 0) 1
  else off + ((List.range sels.length).map fun i => (digitAt j m i : Int) * strideAt j r (sels.getD i 0) i).sum

/-- Where byte b of element m of a side lies: in the core's own scratchpad, in a ring, or in a physical page. -/
def placeAt (s : State) (h c : Nat) (j : PJob) (m b : Nat) : PSide → Nat
  | .via r off sels x => scratchLoc h c (pAddr r.base + (offsetAt s h c j r off sels x m).toNat + b)
  | .ring q p => q.loc h c (p + j.e * m + b)
  | .page a => a + j.e * m + b
  | .fill _ => 0

/-- What byte b of element m of the source is. -/
def sourceAt (s : State) (h c : Nat) (j : PJob) (m b : Nat) : Byte :=
  match j.src with
  | .fill bs => bs.getD b 0
  | x => s.mem.byte (placeAt s h c j m b x)

/-- The record of a side is valid, and every element of it lies in the core's own scratchpad, within the record's extent. -/
def InPad (s : State) (h c : Nat) (j : PJob) : PSide → Prop
  | .via r off sels x => r.ok = true ∧ pSpace r.base = 1 ∧ ∀ m, m < j.counts.prod →
      let o := offsetAt s h c j r off sels x m
      0 ≤ o ∧ o + j.e ≤ r.extent.toNat ∧ pAddr r.base + o.toNat + j.e ≤ s.capacity h c
  | _ => True

end Sys2Proof.Spec

/-- R263, R266 to R268, R272: the job of each pump word: its element size, its counts, its sides from what it captured, a ring's from
the register's live tail or head, and its index list. -/
def Sys2Proof.Spec.PumpJobs : Prop :=
  ∀ (x : Core) (e : Entry) (k : EHdr),
    (∀ p, e.word = .pcopy k p ∨ e.word = .pgath k p ∨ e.word = .pscat k p → ∃ j, pumpJob x e = some j ∧
      j.e = recElem (recOf e.img1) ∧ j.counts = e.bounds ∧
      j.src = .via (recOf e.img1) p.soff.toNat (p.dims.map Dim.ssel) (decide (e.word = .pgath k p)) ∧
      (p.ring = false → j.dst = .via (recOf e.img2) p.doff.toNat (p.dims.map Dim.dsel) (decide (e.word = .pscat k p))) ∧
      (p.ring = true → j.dst = .ring (streamOf e.img2) (streamOf (x.gq p.db)).tail.toNat) ∧
      (e.word ≠ .pcopy k p → j.list = e.scal.toNat % 2 ^ 56)) ∧
    (∀ p, e.word = .pfill k p → p.ring = false → ∃ j, pumpJob x e = some j ∧ j.e = recElem (recOf e.img2) ∧ j.counts = e.bounds ∧
      j.src = .fill ((List.range j.e).map fun i => .ofNat 8 (e.scal.toNat / 256 ^ i)) ∧
      j.dst = .via (recOf e.img2) p.doff.toNat (p.dims.map Dim.dsel) false) ∧
    (∀ p, e.word = .pring k p → p.ring = false → ∃ j, pumpJob x e = some j ∧ j.counts = e.bounds ∧
      j.src = .ring (streamOf e.img1) (streamOf (x.gq p.sb)).head.toNat ∧
      j.dst = .via (recOf e.img2) p.doff.toNat (p.dims.map Dim.dsel) false) ∧
    (∀ sb db tok hreg, e.word = .ppage k sb db tok hreg → ∃ j, pumpJob x e = some j ∧ j.e = 4096 ∧
      j.counts = [(recOf e.img1).extent.toNat / 4096] ∧ j.src = .page ((recOf e.img1).base.toNat % 2 ^ 40) ∧
      j.dst = .page ((recOf e.img2).base.toNat % 2 ^ 40))

/-- R263 to R268, R272: a pump entry that completes has moved every byte of every element of its nest from its source to its
destination, and has changed no other byte; a ring that it produced into has B bytes more, and one that it consumed from B bytes
less. For sides in the core's own scratchpad, in its rings, in pages and in a fill value, where no byte is both read and written
and no byte is written twice. -/
def Sys2Proof.Spec.PumpsMoveBytes : Prop :=
  ∀ (s : State) (h c : Nat) (x : Core) (y : HerdCtx) (e : Entry) (r : Run) (j : PJob), Spec.Ends s h c .pump x e r →
    s.ctx? h = some y → pumpJob x e = some j → Spec.Sound s → r = .fresh r.unit r.started → 0 < j.e → x.q.length = 16 →
    Spec.InPad s h c j j.src → Spec.InPad s h c j j.dst →
    (∀ q p, j.dst = .ring q p → q.stripe = 0 ∧ 0 < q.size) →
    (∀ m m' b b', m < j.counts.prod → m' < j.counts.prod → b < j.e → b' < j.e →
      ((m, b) ≠ (m', b') → Spec.placeAt s h c j m b j.dst ≠ Spec.placeAt s h c j m' b' j.dst) ∧
      ((∀ bs, j.src ≠ .fill bs) → Spec.placeAt s h c j m b j.src ≠ Spec.placeAt s h c j m' b' j.dst)) →
    (∀ m m' b i, m < j.counts.prod → m' < j.counts.prod → b < j.e → i < 4 → j.indexed = true →
      scratchLoc h c (j.list + 4 * (m / j.counts.headD 1)) + i ≠ Spec.placeAt s h c j m' b j.dst) →
    (∀ q p, j.dst = .ring q p → y.otherStreams c (((producesIn e.word).head?).getD 0) = []) →
    ∃ t w, exec (.engineEntryCompletion h c .pump) s = .next t ∧ t.Has h c w ∧ w.last = x.last.set 0 .ok ∧
      (∀ m b, m < j.counts.prod → b < j.e → t.mem.byte (Spec.placeAt s h c j m b j.dst) = Spec.sourceAt s h c j m b) ∧
      (∀ l, (∀ m b, m < j.counts.prod → b < j.e → l ≠ Spec.placeAt s h c j m b j.dst) → t.mem.byte l = s.mem.byte l) ∧
      (∀ k p, (e.word = .pcopy k p ∨ e.word = .pgath k p) ∧ p.ring = true →
        (streamOf (w.gq p.db)).tail = (streamOf (x.gq p.db)).tail + .ofNat 32 (j.e * j.counts.prod)) ∧
      (∀ k p, e.word = .pring k p →
        (streamOf (w.gq p.sb)).head = (streamOf (x.gq p.sb)).head + .ofNat 32 (j.e * j.counts.prod))

namespace Sys2Proof.Spec

/-- R340: what wdrain gives for output n of a slot, by the row's function, alpha and beta. -/
def drained (v : CSlot) (r : RowState) (kind : DrainKind) (sat : Bool) (n : Nat) : Nat :=
  let acc := v.accs.getD n 0
  let sum := v.sums.getD n .zero
  let through (f : FFmt) : Nat :=
    if v.nan then f.nanOf
    else
      let y := if v.ql4 = some true then acc else roundTo F32 .rne false sum.num
      let z := roundTo F32 .rne false (Machine.Num.add .rne ((F32.decode y).mul (F32.decode (r.alpha.getD n 0)))
        (F32.decode (r.beta.getD n 0)))
      roundTo f .rne sat (F32.decode (actFn r.fn (F32.decode z)))
  match kind with
  | .ep128 => (if v.nan then ⟨0, true, false, true⟩ else if v.ql4 = some true then epFromF32 acc else sum : EP128).image
  | .f32 => through F32
  | .bf16 => through BF16
  | .f16 => through F16
  | .e4m3 => through E4M3

/-- R348: the test of a well that wchk makes. -/
def failsCheck (r : RowState) (l : Latch) (b : WBlock) : Prop :=
  (r.mlb = false ∧ l.checkOut b.a ≠ (l.products b.a).sum) ∨
  l.chk ≠ (List.range 32).map (fun k => (l.rows.map fun w => w.getD k 0).sum) ∨ l.tr = true ∧ l.chkT ≠ l.rows.map List.sum

end Sys2Proof.Spec

/-- R338, R340, R344, R345, R348: what well words leave: a wfeed completes once every vector has run through every row, and pops its
rings; wdrain writes the outputs of each slot of each row, vector after vector, to its ring, clears the slots, and adds its bytes
to the ring; wchk writes, row by row, a bit for each well that fails its test. -/
def Sys2Proof.Spec.WellResults : Prop :=
  ∀ (s : State) (h : Nat) (x : Core) (y : HerdCtx) (e : Entry) (r : Run) (z : Rect), Spec.Ends s h 0 .well x e r →
    s.ctx? h = some y → s.rect? h = some z → r.rows = [] → x.q.length = 16 →
    (∀ g src k n p, e.word = .wfeed e.hdr g src k n p → let rows := g.rows.nrm1.toNat + 1
      (r.pos < (n.toNat + 1) * rows → exec (.engineEntryCompletion h 0 .well) s = .next s) ∧
      ((n.toNat + 1) * rows ≤ r.pos → ∃ t w, exec (.engineEntryCompletion h 0 .well) s = .next t ∧ t.Has h 0 w ∧
        t.mem = s.mem ∧ t.rects = s.rects ∧ w.last = x.last.set 2 .ok ∧
        (∀ q b, src = .stream q b → (∀ u, p = some u → u ≠ q) → (streamOf (w.gq q)).head = (streamOf (x.gq q)).head +
          .ofNat 32 (64 * (n.toNat + 1) * if b = true then 1 else g.ncm1.toNat + 1)) ∧
        (∀ u, p = some u → (∀ b, src ≠ .stream u b) → (streamOf (w.gq u)).head = (streamOf (x.gq u)).head +
          .ofNat 32 (1024 * (n.toNat + 1) * rows)))) ∧
    (∀ g q k n kind sat, e.word = .wdrain e.hdr g q k n kind sat → Spec.Sound s →
      let rows := g.nrm1.toNat + 1
      let st := streamOf e.img1
      let w := drainKindBytes kind
      let tail := (streamOf (x.gq q)).tail.toNat
      32 * w * ((n.toNat + 1) * rows) ≤ st.size → y.otherStreams 0 q = [] →
      (∀ t i, t < n.toNat + 1 → i < rows → let v := z.slot (g.rrow.toNat + i) (k.toNat + t)
        v.errs = [] ∧ v.undef = false ∧ v.taint = false) →
      ∃ t c', exec (.engineEntryCompletion h 0 .well) s = .next t ∧ t.Has h 0 c' ∧ c'.last = x.last.set 2 .ok ∧
        (streamOf (c'.gq q)).tail = (streamOf (x.gq q)).tail + .ofNat 32 (32 * w * ((n.toNat + 1) * rows)) ∧
        (∀ v i a b, v < n.toNat + 1 → i < rows → a < 32 → b < w →
          t.mem.byte (st.loc h 0 (tail + 32 * w * (rows * v + i) + w * a + b)) =
            .ofNat 8 (Spec.drained (z.slot (g.rrow.toNat + i) (k.toNat + v)) (z.row (g.rrow.toNat + i)) kind sat a / 256 ^ b)) ∧
        (∀ l, (∀ p, p < 32 * w * ((n.toNat + 1) * rows) → l ≠ st.loc h 0 (tail + p)) → t.mem.byte l = s.mem.byte l) ∧
        (∀ z', t.rect? h = some z' → ∀ v i, v < n.toNat + 1 → i < rows →
          z'.slot (g.rrow.toNat + i) (k.toNat + v) = .fresh ∧ z'.wells = z.wells ∧ z'.rows = z.rows)) ∧
    (∀ g k sb l p t, e.word = .wchk e.hdr g k sb → let rows := g.rows.nrm1.toNat + 1
      let cols := g.ncm1.toNat + 1
      let live (i j : Nat) := z.live (g.rows.rrow.toNat + i) (g.rcol.toNat + j)
      let fails (i j : Nat) : Prop :=
        Spec.failsCheck (z.row (g.rows.rrow.toNat + i)) (live i j) (z.buf (g.rcol.toNat + j) k.toNat)
      s.reach h 0 e.user e.scal ⟨16 * rows, 8, true, false⟩ = (t, .at_ p (.loc l false)) → t.anyDead l = false → z.faults = [] →
      (∀ i j, i < rows → j < cols → (live i j).fill = none ∧ (live i j).zeroed = 0 ∧ (live i j).poison = 0) →
      ∃ u c', exec (.engineEntryCompletion h 0 .well) s = .next u ∧ u.Has h 0 c' ∧
        (∀ i b, i < rows → b < 128 → ((u.mem.byte (l + 16 * i + b / 8)).getLsbD (b % 8) = true ↔ b < cols ∧ fails i b)) ∧
        (∀ a, a < l ∨ l + 16 * rows ≤ a → u.mem.byte a = t.mem.byte a) ∧
        ((∃ i j, i < rows ∧ j < cols ∧ fails i j) → c'.last = x.last.set 2 .checksumMismatch) ∧
        ((∀ i j, i < rows → j < cols → ¬fails i j) → c'.last = x.last.set 2 .ok))

namespace Sys2Proof.Spec

/-- A collective word with another header and other buffers. -/
def rebuf (i : Instr) (k : EHdr) (d b : BitVec 4) : Instr :=
  match i with
  | .cred _ _ _ t n o sc g => .cred k d b t n o sc g
  | .cbcast _ _ _ t n sc g => .cbcast k d b t n sc g
  | .cgath _ _ _ t n sc g => .cgath k d b t n sc g
  | .cscat _ _ _ t n sc g => .cscat k d b t n sc g
  | .csync _ sc g => .csync k sc g
  | j => j

/-- R382: one combination of cred: sums round once to T, min and max follow R197. -/
def combine (t : ElemType) (op : CollOp) (a b : Nat) : Nat :=
  match op with
  | .sum => eAdd ⟨t, .rne, false⟩ a b
  | .min => eMin ⟨t, .rne, false⟩ a b
  | .max => eMax ⟨t, .rne, false⟩ a b
  | .and => a &&& b
  | .or => a ||| b
  | .xor => a ^^^ b

/-- R382: what participant p of the eight cores of a herd receives, from what each of them sends; cred combines in a tree of pairs. -/
def collected (i : Instr) (sends : List (List Byte)) (p : Nat) : List Byte :=
  let of (q : Nat) := sends.getD q []
  match i with
  | .cred _ _ _ t n op _ _ => (List.range n.toNat).flatMap fun m =>
      let v (q : Nat) := leNat (((of q).drop (elemWidth t / 8 * m)).take (elemWidth t / 8))
      let f := combine t op
      leBytes (elemWidth t / 8) (f (f (f (v 0) (v 1)) (f (v 2) (v 3))) (f (f (v 4) (v 5)) (f (v 6) (v 7))))
  | .cbcast _ _ _ _ _ _ _ => of 0
  | .cgath _ _ _ _ _ _ _ => of 0 ++ of 1 ++ of 2 ++ of 3 ++ of 4 ++ of 5 ++ of 6 ++ of 7
  | .cscat _ _ _ t n _ _ => ((of 0).drop (elemWidth t / 8 * n.toNat * p)).take (elemWidth t / 8 * n.toNat)
  | _ => []

/-- Elements that a participant of a herd's collective sends, and that it receives (R380, R382). -/
def sends (i : Instr) (q : Nat) : Nat :=
  match i with
  | .cred _ _ _ _ n _ _ _ | .cgath _ _ _ _ n _ _ => n.toNat
  | .cbcast _ _ _ _ n _ _ => if q = 0 then n.toNat else 0
  | .cscat _ _ _ _ n _ _ => if q = 0 then 8 * n.toNat else 0
  | _ => 0

def receives : Instr → Nat
  | .cgath _ _ _ _ n _ _ => 8 * n.toNat
  | .cred _ _ _ _ n _ _ _ | .cbcast _ _ _ _ n _ _ | .cscat _ _ _ _ n _ _ => n.toNat
  | _ => 0

/-- n elements of e bytes through a record lie in a core's own scratchpad. -/
def PadBuffer (s : State) (h c : Nat) (r : Rec) (e n : Nat) : Prop :=
  r.ok = true ∧ pSpace r.base = 1 ∧ e * n ≤ r.extent.toNat ∧ pAddr r.base + e * n ≤ s.capacity h c ∧ pAddr r.base % e = 0

end Sys2Proof.Spec

/-- R381 to R383: a collective of the eight cores of a herd, over buffers in their scratchpads, reads what they send when it starts,
and each run holds what its core is to receive. -/
def Sys2Proof.Spec.CollectivesCompute : Prop :=
  ∀ (s : State) (h c : Nat) (x : Core) (e : Entry) (k : Coll) (n : Held) (en : Nat → Entry), s.Has h c x → x.head .coll = some e →
    collOf e.word = some k → k.scope = .herd → (s.ctx? h).bind HerdCtx.held = some n → Spec.Sound s → 8 ≤ elemWidth k.ty →
    elemWidth k.ty % 8 = 0 →
    (∀ q, q < 8 → s.collHead n k e.num (h, q) = some (en q) ∧ (∃ hd d b, (en q).word = Spec.rebuf e.word hd d b) ∧
      Spec.PadBuffer s h q (recOf (en q).img1) k.e (Spec.sends e.word q)) →
    let sent := (List.range 8).map fun q => (List.range (k.e * Spec.sends e.word q)).map fun i =>
      s.mem.byte (scratchLoc h q (pAddr (recOf (en q).img1).base + i))
    ∃ t, exec (.collectiveStart h c) s = .next t ∧ t.mem = s.mem ∧ ∀ q, q < 8 → ∃ z r, t.Has h q z ∧
      z.head .coll = some { en q with run := some r } ∧ r.kept = [Spec.collected e.word sent q] ∧ r.final = .ok ∧ r.pos = 0

/-- R382, R383: the completion of a Running collective gives every participant's receive buffer what its run holds, and changes no other
byte; once they have it, the entry completes. -/
def Sys2Proof.Spec.CollectivesDeliver : Prop :=
  ∀ (s : State) (h c : Nat) (x : Core) (e : Entry) (r : Run) (k : Coll) (n : Held), Spec.Ends s h c .coll x e r → c < 8 →
    collOf e.word = some k → k.scope = .herd → (s.ctx? h).bind HerdCtx.held = some n → Spec.Sound s →
    (∀ z q d w, q < 8 → s.Has h q z → z.head .coll = some d → d.run = some w → (collOf d.word).map Coll.group = some k.group →
      (collOf d.word).map Coll.scope = some .herd → d.num = e.num → w.pos = 0 → w.unit = 8 ∧ w.final = .ok ∧
      (∃ hd a b, d.word = Spec.rebuf e.word hd a b) ∧ 8 ≤ elemWidth k.ty ∧ elemWidth k.ty % 8 = 0 ∧
      Spec.PadBuffer s h q (recOf d.img2) k.e (Spec.receives e.word) ∧
      ∃ bs, w.kept = [bs] ∧ bs.length = k.e * Spec.receives e.word) →
    ∃ t w, exec (.engineEntryCompletion h c .coll) s = .next t ∧ t.Has h c w ∧ w.last = x.last.set 3 .ok ∧
      (w.queue .coll).map (·.seq) = ((x.queue .coll).drop 1).map (·.seq) ∧
      (∀ z q d v bs i, q < 8 → s.Has h q z → z.head .coll = some d → d.run = some v → v.pos = 0 → v.kept = [bs] →
        (collOf d.word).map Coll.group = some k.group → (collOf d.word).map Coll.scope = some .herd → d.num = e.num →
        i < k.e * Spec.receives e.word → t.mem.byte (scratchLoc h q (pAddr (recOf d.img2).base + i)) = bs.getD i 0) ∧
      (∀ l, (∀ z q d i, q < 8 → s.Has h q z → z.head .coll = some d → i < k.e * Spec.receives e.word →
        l ≠ scratchLoc h q (pAddr (recOf d.img2).base + i)) → t.mem.byte l = s.mem.byte l)

/-- R263 to R272, R312 to R319, R338 to R348, R381 to R383: what Running engine entries do to accumulators, to memory and to rings when
they complete. -/
def Obligations.EngineResults : Prop :=
  Spec.MatrixCommits ∧ Spec.MatrixMoves ∧ Spec.PumpJobs ∧ Spec.PumpsMoveBytes ∧ Spec.WellResults ∧ Spec.CollectivesCompute ∧
    Spec.CollectivesDeliver

/-- R273, R274: pcancel of a value that no handle has, or of a handle not given out, answers 2; of an entry that has completed 1; of an
entry that waits 0, and the entry will perform nothing; of the Running entry it waits for the acknowledgement, which ends the entry
as cancelled. Entries that are queued are found first, so that a handle given out anew names the later entry. -/
def Sys2Proof.Spec.PumpCancel : Prop :=
  ∀ (s : State) (c : Core) (rd a : BitVec 5), s.Runs c → c.free [a] [rd] = true →
    let k : BitVec 32 := .ofNat 32 (c.gs a).toNat
    (2 ^ 32 ≤ (c.gs a).toNat → exec (.pcancel rd a) s = .next (s.fin (c.post rd 2))) ∧
    ((c.gs a).toNat < 2 ^ 32 →
      ((∀ e ∈ c.queue .pump, e.handle ≠ k) → exec (.pcancel rd a) s =
        .next (s.fin (c.post rd (if c.wrapped = true ∨ k.toNat < c.handles.toNat then 1 else 2)))) ∧
      (∀ e r q, c.queue .pump = e :: q → e.handle = k → e.run = some r →
        ∃ t y, exec (.pcancel rd a) s = .next t ∧ t.Runs y ∧ t.mem = s.mem ∧ y.cancelRd = c.cancelRd ++ [(k, rd)] ∧
          y.queue .pump = { e with run := some { r with stop := true } } :: q ∧ (rd ≠ 0 → y.isPend rd = true)) ∧
      (∀ p e q, c.queue .pump = p ++ e :: q → (∀ x ∈ p, x.handle ≠ k) → e.handle = k → e.run = none →
        (pumpJob c e).isSome = true → ∃ t y, exec (.pcancel rd a) s = .next t ∧ t.Runs y ∧
          y.queue .pump = p ++ { e with cancel := true } :: q ∧ (rd ≠ 0 → y.landings = c.landings ++ [⟨rd, 0⟩]))) ∧
    (∀ h n x e, s.Has h n x → s.oldCore? h n = none → x.head .pump = some e → (∀ r, e.run = some r → r.stop = false) →
      exec (.pumpCancelAck h n) s = .next s) ∧
    (∀ h n x e r j, s.Has h n x → s.oldCore? h n = none → x.head .pump = some e → e.run = some r → r.stop = true →
      pumpJob x e = some j → e.hdr.bar = none → e.hdr.scnt = 0 →
      let u := s.forgetDst h n e.user j 0
      exec (.pumpCancelAck h n) s = .next ((u.modCore h n fun y => y.complete .pump e (EStatus.worse .cancelled r.final) r.bytes
        r.bytes (u.waitCk h)).modCore h n fun y => y.answerCancel e.handle 0))

/-- R119 to R123, R169, R170: engine words are checked and enter their queue with what they capture. -/
def Obligations.EngineWordsAreQueued : Prop := Spec.EngineWordsEnterTheirQueue ∧ Spec.EngineIssueChecks

/-- R171 to R175, R381: the steps of an entry, and when one starts. -/
def Obligations.EngineEntriesStart : Prop :=
  Spec.EntrySteps ∧ Spec.PumpEntriesStart ∧ Spec.MatrixEntriesStart ∧ Spec.WellEntriesStart ∧ Spec.LeasesGoRound ∧
    Spec.CollectivesStartTogether

/-- R178, R181, R182, R273, R274, R372, R373: the actions of a completion, and cancellation. -/
def Obligations.EngineEntriesEnd : Prop :=
  Spec.CompletionOfACore ∧ Spec.IdleCompletions ∧ Spec.RunningMrelCompletes ∧ Spec.PumpCancel

/-! ## The host side, slots and packets -/

namespace Sys2Proof.Spec

/-- R4, R50, R51: what the doubleword of the control space at an offset reads: the global registers, the tails of the queues, of one that
is unmapped as it was left, and the MSI-X table as it was written; everything else reads zero. -/
def register (s : State) (off : Nat) : Nat :=
  if off = 0 then 0x5708 + Config.stepping.toNat * 2 ^ 16
  else if off = 8 then s.tahr.ready.toNat + s.tahr.patched.toNat * 2 + Config.narrow.toNat * 4 + s.tahr.fatal.toNat * 8 +
    min s.logged (2 ^ 32 - 1) * 2 ^ 32
  else if off = 0x40 then s.tahr.mqbase.toNat
  else if off = 0x48 then s.tahr.mqsize % 2 ^ 64
  else if off = 0x50 then s.tahr.mqtail.toNat
  else if off = 0x58 then s.tahr.mqhead.toNat
  else if off = 0x60 then s.tahr.w2base.toNat
  else if 0x10000 ≤ off ∧ off < 0x18000 then ((s.queue? ((off - 0x10000) / 8)).map fun q => q.tail.toNat).getD
    (((s.tahr.tails.find? fun x => x.1 == (off - 0x10000) / 8).map fun x => x.2.toNat).getD 0)
  else if 0x100000 ≤ off ∧ off < 0x108000 then leNat ((List.range 8).map fun i => (cellAt s.tahr.bar0 (off + i)).getD 0)
  else 0

end Sys2Proof.Spec

/-- R47, R49 to R53, R65: a tail write sets the queue's tail and lets its slot go on; one too far beyond the head stops the queue
with tail_invalid; a tail of no queue, and a register access of another width or off its alignment, is ignored and logged, which the
model logs under die 0 (log 50). MQTAIL, MQBASE and W2BASE take what is written, whole or by halves; a read returns the register's 4
or 8 bytes (log 12). -/
def Obligations.ControlRegisters : Prop :=
  ∀ (s : State), s.powered = true →
    (∀ qid v, s.queue? qid = none → exec (.qtailWrite qid v) s = .next (s.record 0 8 0xFFF 0 (.ofNat 64 (0x10000 + 8 * qid)) 0)) ∧
    (∀ qid v q, s.queue? qid = some q →
      (q.status ≠ 0 → ∃ u x, exec (.qtailWrite qid v) s = .next u ∧ u.queue? qid = some x ∧ x.tail = v ∧ x.status = q.status) ∧
      (q.status = 0 → 2 ^ q.n < (v - q.head).toNat →
        ∃ u x, exec (.qtailWrite qid v) s = .next u ∧ u.queue? qid = some x ∧ x.tail = v ∧ x.status = 3 ∧ x.head = q.head) ∧
      (q.status = 0 → (v - q.head).toNat ≤ 2 ^ q.n →
        ∃ u x, exec (.qtailWrite qid v) s = .next u ∧ u.queue? qid = some x ∧ x.tail = v ∧ x.status = 0 ∧ x.head = q.head ∧
          u.mem = s.mem ∧ u.herds = s.herds)) ∧
    (∀ v, exec (.mqtailWrite v) s = .next { s with tahr := { s.tahr with
      mqtail := v, mqsince := if s.tahr.mqtail = s.tahr.mqhead then s.now else s.tahr.mqsince } }) ∧
    (∀ off n v, (n ≠ 8 ∧ n ≠ 4 ∨ off.toNat % n ≠ 0) →
      exec (.registerWrite off n v) s = .next (s.record 0 8 0xFFF 0 (.ofNat 64 off.toNat) 0)) ∧
    (∀ v, exec (.registerWrite 0x40 8 v) s = .next { s with tahr := { s.tahr with mqbase := v &&& 0xFFFFFFFFFFFFF000 } }) ∧
    (∀ v, ∃ w, exec (.registerWrite 0x44 4 v) s = .next { s with tahr := { s.tahr with mqbase := w } } ∧
      w.toNat / 2 ^ 32 = v.toNat % 2 ^ 32 ∧ w.toNat % 2 ^ 32 = s.tahr.mqbase.toNat % 2 ^ 32 / 4096 * 4096) ∧
    (∀ v, exec (.registerWrite 0x48 8 v) s = .next { s with tahr := { s.tahr with mqsize := v.toNat % 16 } }) ∧
    (∀ v, exec (.registerWrite 0x50 8 v) s = exec (.mqtailWrite (v.truncate 32)) s) ∧
    (s.tahr.bar2Log ≤ 64 → ∀ v, ∃ w, exec (.registerWrite 0x60 8 v) s = .next { s with tahr := { s.tahr with w2base := w } } ∧
      w.toNat = v.toNat / 2 ^ s.tahr.bar2Log * 2 ^ s.tahr.bar2Log) ∧
    (∀ q v, q < 4096 → exec (.registerWrite (.ofNat 26 (0x10000 + 8 * q)) 8 v) s = exec (.qtailWrite q (v.truncate 32)) s) ∧
    (∀ v, exec (.registerWrite 0x68 8 v) s = .next s) ∧
    (∀ off n, (n = 8 ∨ n = 4) → off % n = 0 → ∃ bs, bs.length = n ∧
      leNat bs = Spec.register s (off / 8 * 8) / 2 ^ (8 * (off % 8)) % 2 ^ (8 * n) ∧
      s.choose (.regRead off n) = { s with tahr := { s.tahr with bar0Read := bs } }) ∧
    (∀ off n, (n ≠ 8 ∧ n ≠ 4 ∨ off % n ≠ 0) → s.choose (.regRead off n) = s.record 0 8 0xFFF 0 (.ofNat 64 off) 0)

namespace Sys2Proof.Spec

/-- The atomics in the order of their codes. -/
def atomicCodes : List AmoOp := [.add, .and, .or, .xor, .min, .max, .minu, .maxu, .swap, .cas, .fadd]

/-- Whether a core's store queue holds a write to a page of host memory. -/
def stillWrites (c : Core) (page : Nat) : Prop :=
  ∃ e ∈ c.sq, (∃ l bs, e.op = .store l bs ∧ l < 2 ^ 60 + page + 4096 ∧ 2 ^ 60 + page < l + bs.length) ∨
    ∃ op l n v k d, e.op = .amo op l n v k d ∧ l < 2 ^ 60 + page + 4096 ∧ 2 ^ 60 + page < l + n

end Sys2Proof.Spec

/-- R46, R387: an access through BAR2, of the size that the host has given it, meets device memory at W2BASE plus its offset; what it
reads is kept (log 12), and one outside the window changes nothing (log 47). -/
def Sys2Proof.Spec.Bar2Accesses : Prop :=
  ∀ (s : State), s.powered = true →
    let size := 2 ^ s.tahr.bar2Log
    (∀ off d, off + d.length ≤ size → s.tahr.w2base.toNat + off + d.length ≤ Config.dramBytes →
      exec (.bar2Access (.write off d)) s = .next (s.writeLoc (s.tahr.w2base.toNat + off) d)) ∧
    (∀ off n, off + n ≤ size → s.tahr.w2base.toNat + off + n ≤ Config.dramBytes → s.marks = [] → s.misses = [] →
      exec (.bar2Access (.read off n)) s =
        .next { s with tahr := { s.tahr with bar2Read := (List.range n).map fun i => s.mem.byte (s.tahr.w2base.toNat + off + i) } }) ∧
    (∀ off n d, size < off + n → d.length = n →
      exec (.bar2Access (.read off n)) s = .next s ∧ exec (.bar2Access (.write off d)) s = .next s) ∧
    (∀ n, 28 ≤ n → n ≤ 40 → ∃ w, s.choose (.barResize n) = { s with tahr := { s.tahr with bar2Log := n, w2base := w } } ∧
      w.toNat = s.tahr.w2base.toNat / 2 ^ n * 2 ^ n)

/-- R48: an ATS invalidation drops what the part holds of the range, and its completion is sent once no store queue holds a write to
those pages (log 49); the answer to a page request reaches that request and no other, and lets a status record go out that waited. -/
def Sys2Proof.Spec.HostTranslations : Prop :=
  ∀ (s : State),
    (∀ p va n, (∀ h c x, s.core? h c = some x → x.block = none) → ∃ t gone, exec (.atsInvalidation p va n) s = .next t ∧
      t = { s with pages := t.pages, tahr := { s.tahr with invals := s.tahr.invals ++ [⟨p, va, n, gone⟩] } } ∧
      (∀ g, g ∈ t.pages ↔ g ∈ s.pages ∧ ¬ (g.pasid = p ∧ g.host.isSome ∧ g.page * 4096 < va + n ∧ va < (g.page + 1) * 4096)) ∧
      (∀ a, a ∈ gone ↔ ∃ g ∈ s.pages, g.pasid = p ∧ g.host = some a ∧ g.page * 4096 < va + n ∧ va < (g.page + 1) * 4096)) ∧
    (∀ i r, s.tahr.invals = i :: r →
      ((∀ h ∈ s.herds, ∀ x, (x = h.act ∨ h.old = some x) → ∀ c ∈ x.cores, ∀ p ∈ i.pages, ¬ Spec.stillWrites c p) →
        s.choose .invalSend = { s with tahr := { s.tahr with invals := r, invalsDone := s.tahr.invalsDone ++ [i] } }) ∧
      (∀ h ∈ s.herds, ∀ c ∈ h.act.cores, ∀ p ∈ i.pages, Spec.stillWrites c p → s.choose .invalSend = s)) ∧
    (∀ p va, ∃ ans : Option Nat → HostPage → HostPage,
      (∀ g (x : HostPage), x.pasid = p → x.page = va / 4096 → x.host = none → x.refused = false →
        (∀ a, g = some a → a % 4096 = 0 → a < 2 ^ 59 → ans g x = { x with host := some a }) ∧
        (g = none → ans g x = { x with refused := true })) ∧
      (∀ g (x : HostPage), (x.pasid ≠ p ∨ x.page ≠ va / 4096 ∨ x.host ≠ none ∨ x.refused = true) → ans g x = x) ∧
      (∀ g, (∀ q ∈ s.tahr.queues, q.owed = none) →
        exec (.pageRequestResponse p va g) s = .next { s with pages := s.pages.map (ans g) }) ∧
      (∀ g q vs, s.tahr.queues = [q] → q.owed = some vs → exec (.pageRequestResponse p va g) s =
        .next (({ s with pages := s.pages.map (ans g) } : State).tellStatus q.qid [])))

/-- R219, R357, R367, R384 to R386: what an abutting part sends meets device memory at W2BASE plus its address, a store with its bytes,
an atomic in one step; outside the window it does nothing (log 47). A peer port goes down and up, and takes nothing while it is
down. -/
def Sys2Proof.Spec.PeerAccesses : Prop :=
  ∀ (s : State), s.powered = true →
    let base := s.tahr.w2base.toNat
    let inside (a n : Nat) : Prop := a + n ≤ 2 ^ s.tahr.bar2Log ∧ base + a + n ≤ Config.dramBytes
    (∀ port a d, s.ports.getD port.toNat false = true → inside a d.length →
      exec (.remoteAccessReceived port (.store a d)) s = .next (s.writeLoc (base + a) d)) ∧
    (∀ port code a n v k op, s.ports.getD port.toNat false = true → inside a n → (n = 4 ∨ n = 8) →
      Spec.atomicCodes[code.toNat]? = some op → (op = .fadd → n = 4) → s.marks = [] →
      let old := leNat (s.mem.read (base + a) n)
      (Spec.stored op n old v.toNat k.toNat = none → exec (.remoteAccessReceived port (.amo code a n v k)) s = .next s) ∧
      (∀ w, Spec.stored op n old v.toNat k.toNat = some w →
        exec (.remoteAccessReceived port (.amo code a n v k)) s = .next (s.writeLoc (base + a) (leBytes n w)))) ∧
    (∀ port a d, ¬ inside a d.length → exec (.remoteAccessReceived port (.store a d)) s = .next s) ∧
    (∀ port op, s.ports.getD port.toNat false = false → exec (.remoteAccessReceived port op) s = .next s) ∧
    (∀ port, exec (.peerPortDown port) s = .next { s with ports := s.ports.set port.toNat false } ∧
      exec (.peerPortUp port) s = .next { s with ports := s.ports.set port.toNat true })

/-- R46, R48, R219, R384 to R387: accesses by the host and by an abutting part, and what the host says of its translations. -/
def Obligations.HostAndPeerAccesses : Prop := Spec.Bar2Accesses ∧ Spec.HostTranslations ∧ Spec.PeerAccesses

/-- R64 to R68, R105: a slot goes, serving, to what SLOT_GRANT chooses: an unheld slot, to something that waits, and to a slot of
its own class while a class below its reserve waits for one that is unheld. A slot idle for 4,096 ck is freed; a borrower is
unmapped when a class has to regain a slot, its WAIT abandoned; once its context is saved the slot is free. -/
def Obligations.Slots : Prop :=
  ∀ (s : State), s.powered = true → s.tahr.ready = true →
    (s.grantNext = none → exec .slotGrant s = .next s) ∧
    (∀ w i, s.grantNext = some (w, i) →
      exec .slotGrant s = .next (s.modSlot i fun _ => ⟨some w.qid, .serving, s.now, 0⟩) ∧
      w ∈ s.waiting ∧ (∃ x, s.tahr.slots[i]? = some x ∧ x.qid = none) ∧
      ((∃ y ∈ s.waiting, s.held y.cls < reserveOf y.cls ∧ ∃ j z, s.tahr.slots[j]? = some z ∧ z.qid = none ∧ slotOwner j = y.cls) →
        slotOwner i = w.cls ∧ s.held w.cls < reserveOf w.cls)) ∧
    (∀ i x, s.tahr.slots[i]? = some x → x.state = .idle →
      (x.idle + 4096 ≤ s.now → exec (.slotIdleRelease i) s = .next (s.modSlot i fun _ => ⟨none, .free, 0, 0⟩)) ∧
      (s.now < x.idle + 4096 → exec (.slotIdleRelease i) s = .next s)) ∧
    (s.robbed = none → exec .forcedUnmapping s = .next s) ∧
    (∀ c i x q, s.robbed = some c → s.borrower c = some i → s.tahr.slots[i]? = some x → x.qid = some q →
      (∀ j y, s.tahr.slots[j]? = some y → slotOwner j = c → y.state ≠ .unmapping) →
      exec .forcedUnmapping s = .next ((s.modSlot i fun x => { x with state := .unmapping }).modQueue q fun x =>
        { x with wait := none, fence := false })) ∧
    (∀ i x, s.tahr.slots[i]? = some x → x.state = .unmapping →
      exec (.queueContextSaved i) s = .next (s.modSlot i fun _ => ⟨none, .free, 0, 0⟩)) ∧
    (∀ i x, s.tahr.slots[i]? = some x → x.state ≠ .unmapping → exec (.queueContextSaved i) s = .next s)

namespace Sys2Proof.Spec

/-- The Tahr may read the packet at the head of queue q, and reads these 64 bytes, whose header is good; t is the state after the
read. -/
def packetRead (s t : State) (qid : Nat) (q : Queue) (bs : List Byte) : Prop :=
  s.queue? qid = some q ∧ s.mayRead q = true ∧ q.unbound = false ∧ headerBad (dwAt bs 0) = false ∧
  s.fwRead q.pasid (pAddr q.base + 64 * (q.head.toNat % 2 ^ q.n)) 64 = (t, .bytes bs)

/-- The tag and the irq bit of a packet (R56). -/
def tagOf (bs : List Byte) : BitVec 16 := (dwAt bs 0).extractLsb' 16 16
def irqOf (bs : List Byte) : Bool := (dwAt bs 0).getLsbD 8

/-- Doublewords of a packet from an offset up are zero. -/
def clear (bs : List Byte) (lo : Nat) : Prop := ∀ i, i < 8 → lo ≤ 8 * i → dwAt bs (8 * i) = 0

/-- A pointer to one of some spaces, aligned; and one to a barrier object, which may be zero for none. -/
def pointsTo (p : Word) (spaces : List Nat) (align : Nat) : Bool := spaces.any fun k => decide (p.toNat / 2 ^ 61 = k ∧ p.toNat % align = 0)
def barrierOrNone (p : Word) : Bool := p == 0 || pointsTo p [0, 3] 16

/-- The doublewords of a 64-byte record from an offset up, each with whether it is zero. -/
def zeros (bs : List Byte) (lo : Nat) : List (Nat × Bool) :=
  ([0, 8, 0x10, 0x18, 0x20, 0x28, 0x30, 0x38].filter fun o => decide (lo ≤ o)).map fun o => (o, decide (dwAt bs o = 0))

/-- R38: the doublewords of a launch record, each with whether it is as the rule asks. That the image base is a space-0 address aligned
to 64 bytes is the model's reading of R26 (log 52). -/
def recordRules (bs : List Byte) : List (Nat × Bool) :=
  let n := Word.fieldAt (dwAt bs 0) 26 16
  [(0, decide (Word.fieldAt (dwAt bs 0) 15 0 = 1 ∧ 1 ≤ n ∧ n ≤ 1024 ∧ Word.fieldAt (dwAt bs 0) 63 27 = 0)),
    (8, pointsTo (dwAt bs 8) [0] 64), (0x10, pointsTo (dwAt bs 0x10) [0] 64), (0x18, barrierOrNone (dwAt bs 0x18))] ++ zeros bs 0x20

/-- R39, R43: a side of a copy of n bytes: space 0, or a range of the die scratchpad that the named die has. -/
def sideOk (s : State) (p : Word) (n : Nat) : Bool :=
  decide (p.toNat / 2 ^ 61 = 0) || decide (p.toNat / 2 ^ 61 = 3 ∧ p.toNat / 2 ^ 56 % 32 ≤ 7 ∧
    p.toNat % 2 ^ 56 + n ≤ s.dspSize (p.toNat / 2 ^ 56 % 32))

/-- R39: the doublewords of a node descriptor. -/
def descriptorRules (s : State) (bs : List Byte) : List (Nat × Bool) :=
  let f (hi lo : Nat) := Word.fieldAt (dwAt bs 0) hi lo
  let n := Word.fieldAt (dwAt bs 0x20) 39 0
  [(0, decide (f 1 0 ≤ 2 ∧ f 7 2 = 0 ∧ f 18 8 ≤ 1023 ∧ f 31 22 = 0 ∧ f 42 32 ≤ 1023 ∧ f 63 43 = 0)),
    (8, if f 42 32 = 0 then decide (dwAt bs 8 = 0) else pointsTo (dwAt bs 8) [0] 2)] ++
  (if f 1 0 = 2 then [(0x10, sideOk s (dwAt bs 0x10) n), (0x18, sideOk s (dwAt bs 0x18) n),
      (0x20, decide (1 ≤ n ∧ Word.fieldAt (dwAt bs 0x20) 63 43 = 0))]
    else [(0x10, pointsTo (dwAt bs 0x10) [0] 64), (0x18, decide (dwAt bs 0x18 = 0)), (0x20, decide (dwAt bs 0x20 = 0))]) ++
  [(0x28, barrierOrNone (dwAt bs 0x28))] ++ zeros bs 0x30

/-- R33, R40: the doublewords of a launch header; a rectangle stays within the dies that lie east of its first. -/
def headerRules (well : Bool) (bs : List Byte) : List (Nat × Bool) :=
  let g (hi lo : Nat) := Word.fieldAt (dwAt bs 0x10) hi lo
  let w (hi lo : Nat) := Word.fieldAt (dwAt bs 0x18) hi lo
  [(0, pointsTo (dwAt bs 0) [0] 4),
    (0x10, decide (1 ≤ g 7 0 ∧ g 7 0 ≤ (if well then 1 else 128) ∧ g 16 8 ≤ 256 ∧
      (if g 17 17 = 1 then 1 ≤ g 20 18 ∧ g 20 18 ≤ 4 else g 20 18 = 0) ∧ g 22 22 = 0 ∧ (g 21 21 = 1 → g 30 24 = 0) ∧ g 63 31 = 0)),
    (0x18, if well then decide (w 63 27 = 0 ∧ 1 ≤ w 18 13 ∧ w 18 13 ≤ 32 ∧ 1 ≤ w 26 19 ∧ w 26 19 ≤ 128 ∧ w 7 3 + w 18 13 ≤ 32 ∧
      w 12 8 + w 26 19 ≤ 32 * (4 - w 2 0 % 4)) else decide (dwAt bs 0x18 = 0))] ++ zeros bs 0x20

/-- The first doubleword of a record that offends. -/
def offence (rules : List (Nat × Bool)) : Option Nat := (rules.find? fun r => !r.2).map Prod.fst

/-- R54: the detail of a field of a record: of the launch record 0, a node descriptor 1, a header 2, a successor list 3 or a context
descriptor 4, of a node, at an offset. -/
def detailOf (k node off : Nat) : Nat := 2 ^ 31 + k * 2 ^ 22 + node * 2 ^ 11 + off / 8 * 8

/-- The first index with a property. -/
def isFirst (P : Nat → Prop) (i : Nat) : Prop := P i ∧ ∀ j, j < i → ¬ P j

end Sys2Proof.Spec

/-- R54, R56, R58, R59, R62, R82, R373, R374: what the packets other than LAUNCH and COPY do once they are read. MODE sets the level
in the queue's class and strict; FENCE passes once no launch of the queue is outstanding, and holds the queue until then; WAIT
passes at a phase that is reached, stops on an error where it asks to, and blocks else; SIGNAL makes its arrivals. A field that is not valid, an
object that is malformed or cannot be reached, and an arrival that is discarded stop the queue. -/
def Sys2Proof.Spec.SynchronisingPackets : Prop :=
  ∀ (s t : State) (qid : Nat) (q : Queue) (bs : List Byte), Spec.packetRead s t qid q bs →
    let d1 := dwAt bs 8
    let d2 := dwAt bs 0x10
    let pass (u : State) : State := u.passDone qid (Spec.tagOf bs) (Spec.irqOf bs)
    (Word.fieldAt (dwAt bs 0) 7 0 = 4 → Spec.clear bs 0x10 → d1.toNat % 2 ^ 6 / 12 = q.cls → d1.toNat / 2 ^ 6 % 4 = 0 →
      d1.toNat / 2 ^ 9 = 0 → exec (.modePacket qid) s = .next (pass (t.modQueue qid fun x =>
        { x with level := d1.toNat % 2 ^ 6, strict := d1.getLsbD 8 }))) ∧
    (Word.fieldAt (dwAt bs 0) 7 0 = 4 → d1.toNat % 2 ^ 6 / 12 ≠ q.cls →
      exec (.modePacket qid) s = .next (t.stopQueue qid .invalidField 8)) ∧
    (Word.fieldAt (dwAt bs 0) 7 0 = 5 → Spec.clear bs 0x10 → 2 ≤ d1.toNat / 2 ^ 8 % 8 → d1.toNat / 2 ^ 8 % 8 ≤ 4 → d1.toNat / 2 ^ 11 = 0 →
      ((∀ l ∈ t.tahr.launches, l.qid ≠ qid) → exec (.fencePacket qid) s = .next (pass t)) ∧
      ((∃ l ∈ t.tahr.launches, l.qid = qid) → exec (.fencePacket qid) s = .next (t.modQueue qid fun x =>
        { x with fence := true, ptag := Spec.tagOf bs, pirq := Spec.irqOf bs }))) ∧
    (Word.fieldAt (dwAt bs 0) 7 0 = 2 → Spec.clear bs 0x18 → d2.toNat / 2 ^ 17 = 0 → ptrOk d1 [0, 3] 16 = true →
      (∀ u k, t.fwObject q.pasid d1 false = (u, .kind k) →
        exec (.waitPacket qid) s = .next (u.stopQueue qid .translation (valueDetail k))) ∧
      (∀ u, t.fwObject q.pasid d1 false = (u, .bad) → exec (.waitPacket qid) s = .next (u.stopQueue qid .invalidField 8)) ∧
      ∀ u v l x, t.fwObject q.pasid d1 false = (u, .at_ l) → u.homeRead l 16 = (v, x) →
        let b := Machine.barOf x
        let reached := b.reached (d2.truncate 16)
        (b.malformed = true → exec (.waitPacket qid) s = .next (v.stopQueue qid .invalidField 8)) ∧
        (b.malformed = false →
          (reached = true → (d2.getLsbD 16 = false ∨ b.err = 0) → exec (.waitPacket qid) s = .next (pass v)) ∧
          (reached = true → d2.getLsbD 16 = true → b.err ≠ 0 →
            exec (.waitPacket qid) s = .next (v.stopQueue qid .barrierError (valueDetail b.err.toNat))) ∧
          (reached = false → exec (.waitPacket qid) s = .next ((v.modQueue qid fun x => { x with
            wait := some ⟨d1, d2.truncate 16, d2.getLsbD 16, l, none⟩, ptag := Spec.tagOf bs, pirq := Spec.irqOf bs }).setSlot qid
              .blocked)))) ∧
    (Word.fieldAt (dwAt bs 0) 7 0 = 3 → Spec.clear bs 0x18 → d2.toNat % 2 ^ 32 ≠ 0 → d2.toNat / 2 ^ 40 = 0 → ptrOk d1 [0, 3] 16 = true →
      ∀ u l, t.fwObject q.pasid d1 true = (u, .at_ l) →
        (∀ v, u.arriveAt l (d2.toNat % 2 ^ 32) (d2.extractLsb' 32 8) none true = (v, true) →
          exec (.signalPacket qid) s = .next (pass v)) ∧
        (∀ v, u.arriveAt l (d2.toNat % 2 ^ 32) (d2.extractLsb' 32 8) none true = (v, false) →
          exec (.signalPacket qid) s = .next (v.stopQueue qid .invalidField 8)))

/-- R58, R86, R372, R374, R376: what a blocked packet waits for lets it go on: a FENCE's last launch, a WAIT's arrival, which wakes it
whatever becomes of the object afterwards, or its phase, looked at where its object lies, and a launch's room in the pools. While it does
not hold, nothing changes. -/
def Sys2Proof.Spec.BlockedPacketsGoOn : Prop :=
  ∀ (s : State) (qid : Nat) (q : Queue), s.queue? qid = some q → q.status = 0 → s.preempting qid = false →
    (q.fence = true → (∀ x ∈ s.tahr.launches, x.qid ≠ qid) →
      exec (.fencePacketComplete qid) s = .next (s.passDone qid q.ptag q.pirq)) ∧
    (q.fence = true → (∃ x ∈ s.tahr.launches, x.qid = qid) → exec (.fencePacketComplete qid) s = .next s) ∧
    (∀ w e, q.wait = some w → w.met = some e →
      (w.stop = false ∨ e = 0 → exec (.waitSatisfied qid) s = .next (s.passDone qid q.ptag q.pirq)) ∧
      (w.stop = true → e ≠ 0 → exec (.waitSatisfied qid) s = .next (s.stopQueue qid .barrierError (valueDetail e.toNat)))) ∧
    (∀ w t l, q.wait = some w → w.met = none → s.fwObject q.pasid w.bar false = (t, .at_ l) →
      (isHost l = false → exec (.hostBarrierPoll qid) s = .next t) ∧
      (isHost l = true → exec (.waitSatisfied qid) s = .next t) ∧
      ∀ u x, t.homeRead l 16 = (u, x) → (Machine.barOf x).malformed = false →
        let ev : Instr := if isHost l then .hostBarrierPoll qid else .waitSatisfied qid
        let b := Machine.barOf x
        (b.reached w.phase = true → (w.stop = false ∨ b.err = 0) → exec ev s = .next (u.passDone qid q.ptag q.pirq)) ∧
        (b.reached w.phase = true → w.stop = true → b.err ≠ 0 →
          exec ev s = .next (u.stopQueue qid .barrierError (valueDetail b.err.toNat))) ∧
        (b.reached w.phase = false → ∃ v, exec ev s = .next v ∧ v.mem = u.mem ∧ v.herds = u.herds ∧
          (v.queue? qid).map Queue.head = some q.head)) ∧
    (∀ x, q.held = some x → s.slotState qid = some .serving →
      (s.poolRoom x = true → exec (.poolRoomAdmit qid) s = .next (s.accept qid x)) ∧
      (s.poolRoom x = false → exec (.poolRoomAdmit qid) s = .next s))

namespace Sys2Proof.Spec

/-- The code of a record in a detail (R54). -/
def recCode : RecKind → Nat
  | .launch => 0 | .node => 1 | .header => 2 | .succ => 3 | .context => 4

/-- What firmware takes bytes bs at an address up for, where a queue has read some of them before for its packet: of each byte it has
read, the first value (R44). -/
def firstRead (t : State) (qid va : Nat) (bs xs : List Byte) : Prop :=
  let covers (e : Nat × List Byte) (a : Nat) : Prop := e.1 ≤ a ∧ a < e.1 + e.2.length
  xs.length = bs.length ∧ ∀ (q : Queue) (j : Nat) (b : Byte), t.queue? qid = some q → bs[j]? = some b →
    ((∀ e ∈ q.seen, ¬ covers e (va + j)) → xs[j]? = some b) ∧
    (∀ (i : Nat) e, q.seen[i]? = some e → covers e (va + j) → (∀ (k : Nat) x, k < i → q.seen[k]? = some x → ¬ covers x (va + j)) →
      xs[j]? = e.2[va + j - e.1]?)

end Sys2Proof.Spec

/-- R43, R44, R54, R82: firmware reads a record that a LAUNCH names page by page, and no byte of it twice for one packet: what it has
read is kept with the queue, also where it then waits for the host, until the head passes. An error is of the doubleword that held it,
and a page that does not translate of the kind that R238 gives. It may have read any doubleword ahead of the others (R44). -/
def Sys2Proof.Spec.RecordsAreRead : Prop :=
  (∀ (s t : State) (q : Queue) (va n node off : Nat) (k : RecKind), 0 < n → va % 4096 + n ≤ 4096 → node < 2048 → off + n ≤ 2048 →
    (∀ x, s.fwRead q.pasid va n = (t, .kind x) → x < 8 → s.recRead q va n k node off = (t, .stop .translation (2 ^ 30 + x))) ∧
    (∀ o, s.fwRead q.pasid va n = (t, .error o) → o < n →
      s.recRead q va n k node off = (t, .stop .dataError (Spec.detailOf (Spec.recCode k) node (off + o)))) ∧
    (s.fwRead q.pasid va n = (t, .wait) → s.recRead q va n k node off = (t, .wait)) ∧
    (∀ bs, s.fwRead q.pasid va n = (t, .bytes bs) → ∃ xs, Spec.firstRead t q.qid va bs xs ∧
      s.recRead q va n k node off = (t.modQueue q.qid fun y => { y with seen := y.seen ++ [(va, xs)] }, .ok xs))) ∧
  (∀ (s t : State) (q : Queue) (va n node off : Nat) (k : RecKind), 4096 < va % 4096 + n →
    let m := 4096 - va % 4096
    (∀ x, (∀ xs, x ≠ .ok xs) → s.recRead q va m k node off = (t, x) → s.recRead q va n k node off = (t, x)) ∧
    (∀ xs, s.recRead q va m k node off = (t, .ok xs) →
      (∀ u ys, t.recRead q (va + m) (n - m) k node (off + m) = (u, .ok ys) → s.recRead q va n k node off = (u, .ok (xs ++ ys))) ∧
      (∀ u x, (∀ ys, x ≠ .ok ys) → t.recRead q (va + m) (n - m) k node (off + m) = (u, x) →
        s.recRead q va n k node off = (u, x)))) ∧
  (∀ (s : State) (q : Queue) (va node off : Nat) (k : RecKind), s.recRead q va 0 k node off = (s, .ok [])) ∧
  (∀ (s t : State) (qid va : Nat) (q : Queue) (bs : List Byte), s.queue? qid = some q → s.mayRead q = true → q.unbound = false →
    va % 8 = 0 → s.fwRead q.pasid va 8 = (t, .bytes bs) → ∃ xs, Spec.firstRead t qid va bs xs ∧
    s.choose (.fieldRead qid va) = t.modQueue qid fun y => { y with seen := y.seen ++ [(va, xs)] })

/-- R58, R373: the generation tag of a node's or a graph's barrier is read with the launch, where its object lies: by translation in
space 0, on the named die in space 3. One that cannot be reached stops the queue as it does for a WAIT, which is the model's choice
(log 74). -/
def Sys2Proof.Spec.BarrierTagsAreRead : Prop :=
  ∀ (s t u : State) (p : BitVec 20) (b : Word) (d x : Nat), s.loadTag p 0 d = (s, .ok 0) ∧
    (b ≠ 0 → ∀ l, s.fwObject p b false = (t, .at_ l) → t.homeRead l 16 = (u, x) → s.loadTag p b d = (u, .ok (Machine.barOf x).gen)) ∧
    (b ≠ 0 → s.fwObject p b false = (t, .bad) → s.loadTag p b d = (t, .stop .invalidField d)) ∧
    (b ≠ 0 → ∀ k, s.fwObject p b false = (t, .kind k) → k < 8 → s.loadTag p b d = (t, .stop .translation (2 ^ 30 + k))) ∧
    (b.toNat / 2 ^ 61 = 0 →
      (∀ l r, s.fwTranslate p (b.toNat % 2 ^ 56) false = (t, .loc l r) → s.fwObject p b false = (t, .at_ l)) ∧
      (∀ k, s.fwTranslate p (b.toNat % 2 ^ 56) false = (t, .kind k) → s.fwObject p b false = (t, .kind k))) ∧
    (b.toNat / 2 ^ 61 = 3 →
      let rank := b.toNat / 2 ^ 56 % 32
      (rank ≤ 7 → b.toNat % 2 ^ 56 + 16 ≤ s.dspSize rank →
        s.fwObject p b false = (s, .at_ (dspLoc (s.physDie rank) (b.toNat % 2 ^ 56)))) ∧
      (7 < rank ∨ s.dspSize rank < b.toNat % 2 ^ 56 + 16 → s.fwObject p b false = (s, .bad)))

/-- R38, R43, R54, R63: the launch record is read and checked first, then each node in order, then the whole graph, then the context
descriptor if there is one, then the graph's barrier (log 37); the first of these that stops the queue does. -/
def Sys2Proof.Spec.LaunchRecordsAreChecked : Prop :=
  (∀ (s t : State) (q : Queue) (record ctx : Word) (tag : BitVec 16) (irq : Bool),
    let launch := s.readLaunch q record ctx tag irq
    (∀ st d, s.recRead q (record.toNat % 2 ^ 56) 64 .launch 0 0 = (t, .stop st d) → launch = (t, .stop st d)) ∧
    (s.recRead q (record.toNat % 2 ^ 56) 64 .launch 0 0 = (t, .wait) → launch = (t, .wait)) ∧
    (∀ bs, s.recRead q (record.toNat % 2 ^ 56) 64 .launch 0 0 = (t, .ok bs) →
      (∀ o, Spec.offence (Spec.recordRules bs) = some o → launch = (t, .stop .invalidField (Spec.detailOf 0 0 o))) ∧
      (Spec.offence (Spec.recordRules bs) = none →
        let total := Word.fieldAt (dwAt bs 0) 26 16
        let nodes := t.readNodes q (dwAt bs 8) total (List.range total)
        (∀ u st d, nodes = (u, .stop st d) → launch = (u, .stop st d)) ∧
        (∀ u ns st d, nodes = (u, .ok ns) → u.graphStop q ns = some (st, d) → launch = (u, .stop st d)) ∧
        (∀ u ns, nodes = (u, .ok ns) → u.graphStop q ns = none →
          (∀ v st d, u.readContext q record ctx ns = (v, .stop st d) → launch = (v, .stop st d)) ∧
          (∀ v ms gtrig, u.readContext q record ctx ns = (v, .ok (ms, gtrig)) →
            let bar := v.loadTag q.pasid (dwAt bs 0x18) (Spec.detailOf 0 0 0x18)
            (∀ w st d, bar = (w, .stop st d) → launch = (w, .stop st d)) ∧
            (∀ w gtag, bar = (w, .ok gtag) → launch =
              (w, .ok ⟨0, q.qid, q.pasid, record, dwAt bs 0x10, dwAt bs 0x18, gtag, ms, gtrig, tag, irq, false, false⟩))))))) ∧
  (∀ (s t : State) (q : Queue) (table : Word) (total i : Nat) (r : List Nat),
    (∀ st d, s.readNode q table total i = (t, .stop st d) → s.readNodes q table total (i :: r) = (t, .stop st d)) ∧
    (∀ n, s.readNode q table total i = (t, .ok n) →
      (∀ u ns, t.readNodes q table total r = (u, .ok ns) → s.readNodes q table total (i :: r) = (u, .ok (n :: ns))) ∧
      (∀ u st d, t.readNodes q table total r = (u, .stop st d) → s.readNodes q table total (i :: r) = (u, .stop st d))) ∧
    s.readNodes q table total [] = (s, .ok []))

/-- R39, R40, R43, R54, R373: a node is read as its descriptor, then its launch header, which the node of a copy has none of, then its
successor list, then its barrier's tag, which is the model's order (log 37); the first doubleword that offends stops the queue. What is
read well gives the node, of whichever kind, with each field of its records. -/
def Sys2Proof.Spec.NodesAreRead : Prop :=
  ∀ (s t : State) (q : Queue) (table : Word) (total i : Nat), i < 1024 →
    let node := s.readNode q table total i
    let desc := s.recRead q (table.toNat % 2 ^ 56 + 64 * i) 64 .node i 0
    (∀ st d, desc = (t, .stop st d) → node = (t, .stop st d)) ∧
    (∀ bs, desc = (t, .ok bs) →
      let copy := Word.fieldAt (dwAt bs 0) 1 0 = 2
      let count := Word.fieldAt (dwAt bs 0) 42 32
      (∀ o, Spec.offence (Spec.descriptorRules t bs) = some o → node = (t, .stop .invalidField (Spec.detailOf 1 i o))) ∧
      (Spec.offence (Spec.descriptorRules t bs) = none →
        let head := t.recRead q ((dwAt bs 0x10).toNat % 2 ^ 56) 64 .header i 0
        (¬ copy → ∀ u st d, head = (u, .stop st d) → node = (u, .stop st d)) ∧
        (¬ copy → ∀ u hs, head = (u, .ok hs) →
          let rules := Spec.headerRules (decide (Word.fieldAt (dwAt bs 0) 1 0 = 1)) hs
          ∀ o, Spec.offence rules = some o → node = (u, .stop .invalidField (Spec.detailOf 2 i o))) ∧
        (∀ (u : State) (hs : List Byte), (copy ∧ u = t) ∨ (¬ copy ∧ head = (u, .ok hs) ∧
            Spec.offence (Spec.headerRules (decide (Word.fieldAt (dwAt bs 0) 1 0 = 1)) hs) = none) →
          let succs := u.recRead q ((dwAt bs 8).toNat % 2 ^ 56) (2 * count) .succ i 0
          (∀ v st d, succs = (v, .stop st d) → node = (v, .stop st d)) ∧
          (∀ v xs, succs = (v, .ok xs) →
            let named (j : Nat) := Machine.fieldAt xs (2 * j) 2
            (∀ j, Spec.isFirst (fun j => j < count ∧ total ≤ named j) j →
              node = (v, .stop .invalidField (Spec.detailOf 3 i (2 * j)))) ∧
            ((∀ j, j < count → named j < total) →
              let bar := v.loadTag q.pasid (dwAt bs 0x28) (Spec.detailOf 1 i 0x28)
              (∀ w st d, bar = (w, .stop st d) → node = (w, .stop st d)) ∧
              (∀ w tag, bar = (w, .ok tag) → ∃ n, node = (w, .ok n) ∧
                n.kind = (match Word.fieldAt (dwAt bs 0) 1 0 with | 0 => .herd | 1 => .well | _ => .copy) ∧
                n.die = Word.fieldAt (dwAt bs 0) 21 19 ∧ n.preds = Word.fieldAt (dwAt bs 0) 18 8 ∧ n.count = n.preds ∧
                n.succs = (List.range count).map named ∧ n.nbar = dwAt bs 0x28 ∧ n.ntag = tag ∧ n.level = q.level ∧
                n.slot = (w.slotOf q.qid).getD 0 ∧ n.state = (if n.preds = 0 then .ready else .waiting) ∧ n.herds = [] ∧
                n.saved = none ∧
                (copy → n.src = dwAt bs 0x10 ∧ n.dst = dwAt bs 0x18 ∧ n.bytes = Word.fieldAt (dwAt bs 0x20) 39 0 ∧
                  n.colour.toNat = Word.fieldAt (dwAt bs 0x20) 42 40) ∧
                (¬ copy → n.hdr.entry = dwAt hs 0 ∧ n.hdr.arg = dwAt hs 8 ∧ n.hdr.gang = Word.fieldAt (dwAt hs 0x10) 7 0 ∧
                  n.hdr.fp = Word.fieldAt (dwAt hs 0x10) 16 8 ∧ n.hdr.matrix = (dwAt hs 0x10).getLsbD 17 ∧
                  n.hdr.acc = Word.fieldAt (dwAt hs 0x10) 20 18 ∧ n.hdr.reloc = (dwAt hs 0x10).getLsbD 21 ∧
                  n.hdr.det = (dwAt hs 0x10).getLsbD 23 ∧ n.hdr.base = Word.fieldAt (dwAt hs 0x10) 30 24 ∧
                  n.hdr.wdie = Word.fieldAt (dwAt hs 0x18) 2 0 ∧ n.hdr.row0 = Word.fieldAt (dwAt hs 0x18) 7 3 ∧
                  n.hdr.col0 = Word.fieldAt (dwAt hs 0x18) 12 8 ∧ n.hdr.rows = Word.fieldAt (dwAt hs 0x18) 18 13 ∧
                  n.hdr.cols = Word.fieldAt (dwAt hs 0x18) 26 19)))))))

/-- R54, R63, R424: a context descriptor names its version, the launch record and its node count, and each of its entries a state 0 to 5,
Running and Triggered for no copy, with an offset exactly where it holds a context; what offends stops the queue. Of an offset of 2,048
or more the low 11 bits are given (log 37). -/
def Sys2Proof.Spec.ContextsAreChecked : Prop :=
  (∀ (s : State) (q : Queue) (record : Word) (ns : List Node), s.readContext q record 0 ns = (s, .ok (ns, false)) ∧
    ∀ ctx i, s.readEntries q ctx i [] = (s, .ok [])) ∧
  (∀ (s t : State) (q : Queue) (record ctx : Word) (ns : List Node) (st : QStatus) (d : Nat), ctx ≠ 0 →
    s.recRead q (ctx.toNat % 2 ^ 56) 64 .context 0 0 = (t, .stop st d) → s.readContext q record ctx ns = (t, .stop st d)) ∧
  (∀ (s t : State) (q : Queue) (record ctx : Word) (ns : List Node) (bs : List Byte), ctx ≠ 0 →
    s.recRead q (ctx.toNat % 2 ^ 56) 64 .context 0 0 = (t, .ok bs) →
    let rules := [(0, decide (Word.fieldAt (dwAt bs 0) 15 0 = 1 ∧ Word.fieldAt (dwAt bs 0) 26 16 = ns.length)),
      (8, decide (dwAt bs 8 = record))]
    (∀ o, Spec.offence rules = some o → s.readContext q record ctx ns = (t, .stop .invalidField (Spec.detailOf 4 0 o))) ∧
    (Spec.offence rules = none →
      (∀ u st d, t.readEntries q (ctx.toNat % 2 ^ 56) 0 ns = (u, .stop st d) → s.readContext q record ctx ns = (u, .stop st d)) ∧
      (∀ u ms, t.readEntries q (ctx.toNat % 2 ^ 56) 0 ns = (u, .ok ms) →
        s.readContext q record ctx ns = (u, .ok (ms, (dwAt bs 0x18).getLsbD 0))))) ∧
  (∀ (s t : State) (q : Queue) (ctx i : Nat) (n : Node) (r : List Node) (bs : List Byte), i < 1024 →
    s.recRead q (ctx + 0x40 + 16 * i) 16 .context i (0x40 + 16 * i) = (t, .ok bs) →
    let st := Word.fieldAt (dwAt bs 0) 2 0
    let rules := [(0x40 + 16 * i, decide (st ≤ 5 ∧ (n.kind = .copy → st ≠ 3 ∧ st ≠ 4))),
      (0x48 + 16 * i, decide (dwAt bs 8 ≠ 0 ↔ st = 3 ∨ st = 4))]
    (∀ o, Spec.offence rules = some o → s.readEntries q ctx i (n :: r) = (t, .stop .invalidField (Spec.detailOf 4 i (o % 2 ^ 11)))) ∧
    (Spec.offence rules = none → ∀ u x d, t.readEntries q ctx (i + 1) r = (u, .stop x d) →
      s.readEntries q ctx i (n :: r) = (u, .stop x d)) ∧
    (Spec.offence rules = none → ∀ u ms, t.readEntries q ctx (i + 1) r = (u, .ok ms) → ∃ m : Node,
      s.readEntries q ctx i (n :: r) = (u, .ok (m :: ms)) ∧ m.count = Word.fieldAt (dwAt bs 0) 12 3 ∧
      m.ntrig = (dwAt bs 0).getLsbD 13 ∧ m.kind = n.kind ∧ m.hdr = n.hdr ∧ m.succs = n.succs ∧
      (st = 2 → m.state = .reserving) ∧ (st = 5 → m.state = .retired) ∧ (st = 1 ∨ st = 3 ∨ st = 4 → m.state = .ready) ∧
      (st = 0 → m.count ≠ 0 → m.state = .waiting) ∧
      m.saved = if st = 3 ∨ st = 4 then some (.virt q.pasid (ctx + (dwAt bs 8).toNat)) else none))

/-- R33, R43, R54, R57, R87: the checks of a whole graph, in the model's order (log 37): preds against the entries that name a node,
cycles, strict, the rectangles, and whether the part could ever place each node. -/
def Sys2Proof.Spec.GraphsAreChecked : Prop :=
  ∀ (s : State) (q : Queue) (ns : List Node), ns.length ≤ 1024 →
    let at_ (i : Nat) (P : Node → Prop) : Prop := ∃ n, ns[i]? = some n ∧ P n
    let wrong (i : Nat) : Prop := at_ i fun n => n.preds ≠ (ns.flatMap Node.succs).count i
    let cyclic (i : Nat) : Prop := Relation.TransGen (fun a b => at_ a fun n => b ∈ n.succs) i i
    let loose (i : Nat) : Prop := at_ i fun n => q.strict = true ∧ n.kind ≠ .copy ∧ n.hdr.det = false
    let down (i : Nat) : Prop := at_ i fun n => n.kind = .well ∧ s.wellsUp n.hdr = false
    let large (i : Nat) : Prop := at_ i fun n => s.satisfiable n = false
    (∀ i, Spec.isFirst wrong i → s.graphStop q ns = some (.invalidField, Spec.detailOf 1 i 0)) ∧
    ((∀ i, ¬ wrong i) → (∀ i, Spec.isFirst cyclic i → s.graphStop q ns = some (.invalidField, Spec.detailOf 1 i 0)) ∧
      ((∀ i, ¬ cyclic i) → (∀ i, Spec.isFirst loose i → s.graphStop q ns = some (.invalidField, Spec.detailOf 2 i 0x10)) ∧
        ((∀ i, ¬ loose i) → (∀ i, Spec.isFirst down i → s.graphStop q ns = some (.unavailableRectangle, 2 ^ 30 + i)) ∧
          ((∀ i, ¬ down i) → (∀ i, Spec.isFirst large i → s.graphStop q ns = some (.unplaceable, 2 ^ 30 + i)) ∧
            ((∀ i, ¬ large i) → s.graphStop q ns = none)))))

/-- R43, R54, R58, R86, R88: a LAUNCH or a COPY that is read and passes its checks is accepted as the head passes it, with the next
sequence number, or waits for room in the pools; an offending field stops the queue. The head of a queue whose packet has
passed is one on, and a packet that completes leaves its tag. -/
def Sys2Proof.Spec.PacketsStartLaunches : Prop :=
  (∀ (s t : State) (qid : Nat) (q : Queue) (bs : List Byte), Spec.packetRead s t qid q bs →
    (Word.fieldAt (dwAt bs 0) 7 0 = 1 → Spec.clear bs 0x18 → ptrOk (dwAt bs 8) [0] 64 = true → pSpace (dwAt bs 0x10) = 0 →
      (∀ u l, t.readLaunch q (dwAt bs 8) (dwAt bs 0x10) (Spec.tagOf bs) (Spec.irqOf bs) = (u, .ok l) →
        (u.poolRoom l = true → exec (.launchPacket qid) s = .next (u.accept qid l)) ∧
        (u.poolRoom l = false → exec (.launchPacket qid) s = .next (u.modQueue qid fun x => { x with held := some l }))) ∧
      (∀ u st d, t.readLaunch q (dwAt bs 8) (dwAt bs 0x10) (Spec.tagOf bs) (Spec.irqOf bs) = (u, .stop st d) →
        exec (.launchPacket qid) s = .next (u.stopQueue qid st d)) ∧
      (∀ u, t.readLaunch q (dwAt bs 8) (dwAt bs 0x10) (Spec.tagOf bs) (Spec.irqOf bs) = (u, .wait) →
        exec (.launchPacket qid) s = .next u)) ∧
    (Word.fieldAt (dwAt bs 0) 7 0 = 1 → ptrOk (dwAt bs 8) [0] 64 = false →
      exec (.launchPacket qid) s = .next (t.stopQueue qid .invalidField 8)) ∧
    (Word.fieldAt (dwAt bs 0) 7 0 = 6 → Spec.clear bs 0x28 → Spec.barrierOrNone (dwAt bs 0x20) = true →
      (dwAt bs 0x18).toNat / 2 ^ 46 = 0 →
      let n := (dwAt bs 0x18).toNat % 2 ^ 40
      n ≠ 0 → Spec.sideOk t (dwAt bs 8) n = true → Spec.sideOk t (dwAt bs 0x10) n = true → ∃ x : Node,
        x.kind = .copy ∧ x.src = dwAt bs 8 ∧ x.dst = dwAt bs 0x10 ∧ x.bytes = n ∧ x.die = (dwAt bs 0x18).toNat / 2 ^ 43 ∧
        x.colour = (dwAt bs 0x18).extractLsb' 40 3 ∧ x.level = q.level ∧ x.state = .ready ∧ x.succs = [] ∧
        (t.satisfiable x = false → exec (.copyPacket qid) s = .next (t.stopQueue qid .unplaceable (valueDetail 0))) ∧
        (t.satisfiable x = true → ∀ u tag, t.loadTag q.pasid (dwAt bs 0x20) 0x20 = (u, .ok tag) →
          let l : Launch := ⟨0, qid, q.pasid, 0, 0, dwAt bs 0x20, tag, [x], false, Spec.tagOf bs, Spec.irqOf bs, true, false⟩
          (u.poolRoom l = true → exec (.copyPacket qid) s = .next (u.accept qid l)) ∧
          (u.poolRoom l = false → exec (.copyPacket qid) s = .next (u.modQueue qid fun x => { x with held := some l }))))) ∧
  (∀ (s : State) (qid : Nat) (q : Queue) (l : Launch), s.queue? qid = some q →
    (∃ y, (s.accept qid l).queue? qid = some y ∧ y.head = q.head + 1 ∧ y.held = none ∧ y.seen = [] ∧
      y.hold = (if l.gtrig then none else some s.tahr.lseq)) ∧
    (s.accept qid l).tahr.launches = s.tahr.launches ++ [{ l with lseq := s.tahr.lseq }] ∧
    (s.accept qid l).tahr.lseq = s.tahr.lseq + 1 ∧
    (∀ tag irq, ∃ y, (s.passDone qid tag irq).queue? qid = some y ∧ y.head = q.head + 1 ∧ y.tag = tag ∧ y.wait = none ∧
      y.fence = false))

/-- R47, R48, R54, R55: an update of a queue's status record is one write of its 16 bytes, and its messages follow it; while the host's
page is awaited the update is owed. A record that does not translate stops a running queue with translation, and its vector is signalled
(log 48). A queue that stops keeps its head and reads no further. -/
def Sys2Proof.Spec.StatusRecords : Prop :=
  ∀ (s t : State) (qid : Nat) (q : Queue) (vs : List Nat), s.queue? qid = some q →
    let va := q.srec.toNat % 2 ^ 56
    (∀ l b, s.fwTranslate q.pasid va true = (t, .loc l b) →
      (s.tellStatus qid vs).mem = (t.writeLoc l
        (leBytes 4 q.head.toNat ++ leBytes 2 q.tag.toNat ++ leBytes 2 (q.status % 2 ^ 16) ++ leBytes 4 q.done.toNat ++
          leBytes 4 (q.detail % 2 ^ 32))).mem ∧
      (s.tellStatus qid vs).tahr.msix = s.tahr.msix ++ q.owed.getD [] ++ vs ∧
      (s.tellStatus qid vs).queue? qid = some { q with owed := none }) ∧
    (s.fwTranslate q.pasid va true = (t, .wait) → (s.tellStatus qid vs).mem = s.mem ∧ (s.tellStatus qid vs).tahr.msix = s.tahr.msix ∧
      (s.tellStatus qid vs).queue? qid = some { q with owed := some (q.owed.getD [] ++ vs) }) ∧
    (∀ k, s.fwTranslate q.pasid va true = (t, .kind k) → ∃ x, (s.tellStatus qid vs).queue? qid = some x ∧ x.head = q.head ∧
      x.owed = none ∧ (s.tellStatus qid vs).tahr.msix = s.tahr.msix ++ [q.vector] ∧
      (q.status ≠ 0 → x = { q with owed := none }) ∧ (q.status = 0 → k < 8 → x.status = 5 ∧ x.detail = 2 ^ 30 + k)) ∧
    (∀ st d, st.code ≠ 0 → ∃ x, (s.stopQueue qid st d).queue? qid = some x ∧ x.head = q.head ∧ x.status = st.code ∧ x.detail = d ∧
      x.held = none ∧ x.wait = none ∧ x.fence = false ∧ (s.stopQueue qid st d).mayRead x = false)

/-- R38 to R43, R54, R55, R58, R86 to R88: what a LAUNCH or a COPY reads, how it is checked, and how its queue goes on or stops. -/
def Obligations.LaunchesAreAccepted : Prop :=
  Spec.RecordsAreRead ∧ Spec.BarrierTagsAreRead ∧ Spec.LaunchRecordsAreChecked ∧ Spec.NodesAreRead ∧ Spec.ContextsAreChecked ∧ Spec.GraphsAreChecked ∧ Spec.PacketsStartLaunches ∧ Spec.StatusRecords

/-- R54 to R62: the packets that synchronise, and what lets a blocked one go on. -/
def Obligations.QueuePackets : Prop := Spec.SynchronisingPackets ∧ Spec.BlockedPacketsGoOn

/-! ## Management commands -/

namespace Sys2Proof.Spec

/-- The commands of R70: each with its code and the first operand offset from which it lists nothing. -/
def commands : List (Instr × Nat × Nat) :=
  [(.mapq, 1, 0x20), (.unmapq, 2, 0x10), (.qreset, 3, 0x10), (.pasidBind, 4, 0x18), (.pasidRetire, 5, 0x10), (.preempt, 6, 0x20),
    (.resync, 7, 0x18), (.attest, 8, 0x20), (.patch, 9, 0x18), (.dsp, 10, 0x10)]

/-- Firmware takes the next command, and its 64 bytes are these; t is the state after the read. -/
def taken (s t : State) (bs : List Byte) : Prop := s.mayCommand = true ∧ ∃ l e, s.commandLoc = some l ∧ s.copyRead l 64 = (t, bs, e)

/-- A command of a code is taken whose common fields are as R69 asks. -/
def commandRead (s t : State) (code : Nat) (bs : List Byte) : Prop :=
  taken s t bs ∧ commandBad bs = false ∧ Word.fieldAt (dwAt bs 0) 7 0 = code

/-- Operand doublewords from an offset up are zero. -/
def operandsClear (bs : List Byte) (lo : Nat) : Prop := ∀ o ∈ [0x08, 0x10, 0x18, 0x20, 0x28], lo ≤ o → dwAt bs o = 0

end Sys2Proof.Spec

/-- R69, R70, R82: a command completes with its status and result in bytes 0x30 to 0x3F of its slot, MQHEAD one on, and a message of
vector 0 if it asks for one. One of another code, with a reserved bit, or with an operand that is not listed, completes with
invalid_field. Nothing is taken while another command is under way; PREEMPT and PASID_RETIRE go on with their own. -/
def Obligations.CommandsComplete : Prop :=
  (∀ (s : State) (st : QStatus) (r l : Nat), s.commandLoc = some l →
    (s.finishCommand st r).tahr.mqhead = s.tahr.mqhead + 1 ∧ (s.finishCommand st r).tahr.mgmt = none ∧
    (s.finishCommand st r).mem = (s.writeLoc (l + 0x30) (leBytes 8 st.code ++ leBytes 8 r)).mem ∧
    (s.finishCommand st r).tahr.msix = s.tahr.msix ++ if (s.mem.byte (l + 1)).getLsbD 0 then [0] else []) ∧
  (∀ (s t : State) (bs : List Byte), Spec.taken s t bs → ∀ x ∈ Spec.commands,
    ((commandBad bs = true ↔ Word.fieldAt (dwAt bs 0) 7 0 = 0 ∨ 10 < Word.fieldAt (dwAt bs 0) 7 0 ∨
      Word.fieldAt (dwAt bs 0) 15 9 ≠ 0 ∨ Word.fieldAt (dwAt bs 0) 63 32 ≠ 0 ∨ dwAt bs 0x30 ≠ 0 ∨ dwAt bs 0x38 ≠ 0) ∧
    (commandBad bs = true → exec x.1 s = .next (t.finishCommand .invalidField 0)) ∧
    (commandBad bs = false → Word.fieldAt (dwAt bs 0) 7 0 ≠ x.2.1 → exec x.1 s = .next s) ∧
    (commandBad bs = false → Word.fieldAt (dwAt bs 0) 7 0 = x.2.1 → ¬ Spec.operandsClear bs x.2.2 →
      exec x.1 s = .next (t.finishCommand .invalidField 0)))) ∧
  (∀ (s : State), s.tahr.mgmt.isSome ∨ s.tahr.mqhead = s.tahr.mqtail → (∀ q a f n, s.tahr.mgmt ≠ some (.preempt q a f n)) →
    (∀ p n, s.tahr.mgmt ≠ some (.retire p n)) → ∀ x ∈ Spec.commands, exec x.1 s = .next s)

/-- R52, R54, R64, R70, R71, R74, R235, R451: MAPQ makes a queue of the fields that it names, not strict, with its tail register's
value and its head there too (log 73), if there is none of that number and its PASID is bound; UNMAPQ removes one that needs no slot,
whose tail register keeps its value, and its launches run on (log 56); PASID_BIND binds a root.
PASID_RETIRE, once accepted, stops the queues of the PASID that read, the others at their next read, whatever becomes of them
before it, with a space_retired whose kind is the model's choice of 0 (log 46), and refuses its requests to the
host; as it completes it drops the root with every translation held for it, in the caches of R451 and of the host's pages (log 46). A
PASID that is not bound is rejected with pasid_unbound (log 53). -/
def Obligations.QueuesAndAddressSpaces : Prop :=
  ∀ (s t : State) (bs : List Byte),
    let d := dwAt bs 8
    let qid := Word.fieldAt d 11 0
    let p : BitVec 20 := d.extractLsb' 44 20
    let p0 : BitVec 20 := d.truncate 20
    (Spec.commandRead s t 1 bs → Spec.operandsClear bs 0x20 → Word.fieldAt d 43 35 = 0 → Word.fieldAt d 23 20 ≤ 12 →
      Word.fieldAt d 19 14 / 12 = Word.fieldAt d 13 12 → ptrOk (dwAt bs 0x10) [0] (64 * 2 ^ (Word.fieldAt d 23 20 + 4)) = true →
      ptrOk (dwAt bs 0x18) [0] 16 = true →
      ((t.queue? qid).isSome → exec .mapq s = .next (t.finishCommand .queueBusy 0)) ∧
      (t.queue? qid = none → (∀ r ∈ t.roots, r.pasid ≠ p) → exec .mapq s = .next (t.finishCommand .pasidUnbound 0)) ∧
      (t.queue? qid = none → (∃ r ∈ t.roots, r.pasid = p) → ∃ q : Queue,
        q.qid = qid ∧ q.cls = Word.fieldAt d 13 12 ∧ q.level = Word.fieldAt d 19 14 ∧ q.strict = false ∧
        q.n = Word.fieldAt d 23 20 + 4 ∧ q.vector = Word.fieldAt d 34 24 ∧ q.pasid = p ∧ q.base = dwAt bs 0x10 ∧
        q.srec = dwAt bs 0x18 ∧ q.head = q.tail ∧ q.tail = t.tahr.tailOf qid ∧ q.status = 0 ∧
        exec .mapq s = .next ((t.modTahr fun x =>
          { x with queues := x.queues ++ [q], tails := x.tails.filter fun y => y.1 != qid }).finishCommand .ok 0))) ∧
    (Spec.commandRead s t 2 bs → Spec.operandsClear bs 0x10 → Word.fieldAt d 63 12 = 0 →
      (t.queue? qid = none → exec .unmapq s = .next (t.finishCommand .noSuchQueue 0)) ∧
      (∀ q, t.queue? qid = some q →
        (q.status = 0 → (q.head ≠ q.tail ∨ q.hold.isSome) → exec .unmapq s = .next (t.finishCommand .queueBusy 0)) ∧
        (q.status ≠ 0 ∨ (q.head = q.tail ∧ q.hold = none) →
          (q.owed.isSome → exec .unmapq s = .next t) ∧
          (q.owed = none → ∃ u : State, u.queue? qid = none ∧ (∀ k, k ≠ qid → u.queue? k = t.queue? k) ∧
            u.tahr.tailOf qid = q.tail ∧ (∀ k, k ≠ qid → u.tahr.tailOf k = t.tahr.tailOf k) ∧
            u.tahr.launches = t.tahr.launches ∧ u.mem = t.mem ∧ exec .unmapq s = .next (u.finishCommand .ok 0))))) ∧
    (Spec.commandRead s t 4 bs → Spec.operandsClear bs 0x18 → Word.fieldAt d 63 20 = 0 →
      ((dwAt bs 0x10).toNat % 256 ≠ 0 ∨ Config.dramBytes ≤ (dwAt bs 0x10).toNat →
        exec .pasidBind s = .next (t.finishCommand .invalidField 0)) ∧
      ((dwAt bs 0x10).toNat % 256 = 0 → (dwAt bs 0x10).toNat < Config.dramBytes →
        ((∃ r ∈ t.roots, r.pasid = p0) → exec .pasidBind s = .next (t.finishCommand .pasidBound 0)) ∧
        ((∀ r ∈ t.roots, r.pasid ≠ p0) → 256 ≤ t.roots.length → exec .pasidBind s = .next (t.finishCommand .resources 0)) ∧
        ((∀ r ∈ t.roots, r.pasid ≠ p0) → t.roots.length < 256 → exec .pasidBind s =
          .next (({ t with roots := t.roots ++ [⟨p0, (dwAt bs 0x10).toNat⟩] } : State).finishCommand .ok 0)))) ∧
    (Spec.commandRead s t 5 bs → Spec.operandsClear bs 0x10 → Word.fieldAt d 63 20 = 0 →
      ((∀ r ∈ t.roots, r.pasid ≠ p0) → exec .pasidRetire s = .next (t.finishCommand .pasidUnbound 0)) ∧
      ((∃ r ∈ t.roots, r.pasid = p0) → ∃ u : State, exec .pasidRetire s = .next u ∧
        u.tahr.mgmt = some (.retire p0 (t.tahr.queues.filter fun q => q.pasid == p0 && t.reading q).length) ∧
        u.roots = t.roots ∧ (∀ g ∈ u.pages, g.pasid = p0 → g.host.isSome) ∧
        (∀ q ∈ t.tahr.queues, q.pasid = p0 → t.reading q = true → ∃ y, u.queue? q.qid = some y ∧ y.status = 4) ∧
        ((t.tahr.queues.map Queue.qid).Nodup → ∀ q ∈ t.tahr.queues, q.pasid = p0 → t.reading q = false →
          ∃ y, u.queue? q.qid = some y ∧ y.unbound = true))) ∧
    (∀ k q, s.queue? k = some q → q.unbound = true →
      (s.mayRead q = true → ∀ x ∈ [Instr.launchPacket k, .waitPacket k, .signalPacket k, .modePacket k, .fencePacket k, .copyPacket k],
        exec x s = .next (s.stopQueue k .spaceRetired (2 ^ 30))) ∧
      (∀ st v, st ≠ .spaceRetired → ∃ y, (s.stopQueue k st v).queue? k = some y ∧ y.unbound = true) ∧
      ∃ y, (s.restartQueue k).queue? k = some y ∧ y.unbound = true) ∧
    (∀ p1 n, s.tahr.mgmt = some (.retire p1 n) → ∃ u : State, exec .pasidRetire s = .next (u.finishCommand .ok n) ∧
      (∀ r ∈ u.roots, r.pasid ≠ p1) ∧ (∀ g ∈ u.pages, g.pasid ≠ p1) ∧
      (∀ x ∈ u.herds, ∀ e ∈ x.tlb, e.pasid ≠ p1) ∧ (∀ x ∈ u.dies, (∀ e ∈ x.tlb, e.pasid ≠ p1) ∧ ∀ e ∈ x.walks, e.pasid ≠ p1) ∧
      u.tahr.queues = s.tahr.queues ∧ u.mem = s.mem) ∧
    (∀ p1 n va, s.tahr.mgmt = some (.retire p1 n) → (∀ g ∈ s.pages, g.pasid ≠ p1 ∨ g.page ≠ va / 4096) →
      s.hostPage p1 va = (s, .kind 6))

/-- R72, R73, R75, R82: QRESET leaves no launch of the queue and no herd with its work, and the head at the tail; PREEMPT refuses a
save area that is too small or cannot be reached and goes ahead else; of a queue with nothing outstanding it stops with
preempted, its head where it was. The launches that PREEMPT takes leave out abandoned ones (log 55), and the layout of the save area,
whose size it needs, is the model's (log 39). -/
def Obligations.ResetAndPreemptQueues : Prop :=
  ∀ (s t : State) (bs : List Byte) (q : Queue),
    let d := dwAt bs 8
    let qid := Word.fieldAt d 11 0
    Word.fieldAt d 63 12 = 0 → t.queue? qid = some q →
    (Spec.commandRead s t 3 bs → Spec.operandsClear bs 0x10 → ∃ u : State, exec .qreset s = .next (u.finishCommand .ok q.tail.toNat) ∧
      (∀ x ∈ u.tahr.launches, x.qid ≠ qid) ∧
      (∀ x ∈ t.tahr.launches, x.qid = qid → ∀ h ∈ u.herds, h.act.isOf x.lseq = false ∧ ∀ o, h.old = some o → o.isOf x.lseq = false) ∧
      ∃ y, u.queue? qid = some y ∧ y.head = q.tail ∧ y.tail = q.tail ∧ y.held = none ∧ y.hold = none ∧ y.wait = none ∧
        ((∀ x ∈ t.tahr.launches, x.qid ≠ qid) → (∀ v k, t.fwTranslate q.pasid (q.srec.toNat % 2 ^ 56) true ≠ (v, .kind k)) →
          y.status = 0)) ∧
    (Spec.commandRead s t 6 bs → Spec.operandsClear bs 0x20 → ptrOk (dwAt bs 0x10) [0] 4096 = true →
      (∀ x ∈ t.launchesOf qid, ∀ n ∈ x.nodes, n.moving = []) →
      let a := pAddr (dwAt bs 0x10)
      let n := (dwAt bs 0x18).toNat
      let lay := layArea (t.launchesOf qid)
      (n < lay.2 → exec .preempt s = .next (t.finishCommand .resources 0)) ∧
      (lay.2 ≤ n → ∀ u k, t.fwProbe q.pasid true (pagePieces a n) = (u, some (some k)) →
        exec .preempt s = .next (u.finishCommand .translation k)) ∧
      (lay.2 ≤ n → ∀ u w, t.fwProbe q.pasid true (pagePieces a n) = (u, none) → u.savedReach (t.launchesOf qid) = (w, true) →
        exec .preempt s = .next (w.beginPreempt q a lay)) ∧
      (t.tahr.launches = [] → 64 ≤ n → ∀ u, t.fwProbe q.pasid true (pagePieces a n) = (u, none) → ∃ w y, exec .preempt s = .next w ∧
        w.queue? qid = some y ∧ y.status = 0x0B ∧ y.head = q.head ∧ y.tail = q.tail ∧ w.tahr.mgmt = none ∧
        w.tahr.mqhead = s.tahr.mqhead + 1))

/-- R76, R77, R434: the fields of the RESYNC summary, each record a doubleword at its offset: the header, the slots, the pools, the herds,
the wells, the queues in ascending qid, the launches in ascending sequence number, and the log, oldest first. What holds no queue reports
qid 0xFFFF; the management ring's own slot is not told here (log 44). -/
def Sys2Proof.Spec.SummaryFields : Prop :=
  ∀ (s : State), s.tahr.slots.length = 32 → s.herds.length = 128 → s.dies.length = 8 → s.dieMap.length = 8 →
    let out := s.summary
    let is (off v : Nat) : Prop := dwAt out off = .ofNat 64 v
    let qs := s.tahr.queues
    let ls := s.tahr.launches
    let bytes := 2688 + 32 * qs.length + 32 * ls.length + 32 * s.log.length
    out.length = bytes ∧
    is 0 (1 + qs.length * 2 ^ 32) ∧ is 8 (ls.length + s.log.length * 2 ^ 32) ∧
    is 0x10 ((List.range 8).map fun d => s.dieMap.getD d 0 * 2 ^ (3 * d)).sum ∧
    is 0x18 (s.tahr.ready.toNat + 2 * s.tahr.patched.toNat + 4 * s.tahr.fatal.toNat) ∧
    (s.tahr.patches = [] → is 0x20 0) ∧ (∀ ps p, s.tahr.patches = ps ++ [p] → is 0x20 p.1) ∧ is 0x28 s.tahr.lseq ∧ is 0x30 s.logged ∧
    is 0x38 ((List.range 8).map fun d => ((s.dies[d]?).map Die.ways).getD 0 * 2 ^ (4 * d)).sum ∧
    (∀ (i : Nat) (x : Slot), s.tahr.slots[i]? = some x → is (72 + 16 * i) 0 ∧
      (x.qid = none → is (64 + 16 * i) (0xFFFF + slotOwner i * 2 ^ 16 + x.state.code * 2 ^ 28)) ∧
      (∀ k q, x.qid = some k → k < 4096 → s.queue? k = some q →
        is (64 + 16 * i) (k + slotOwner i * 2 ^ 16 + q.level * 2 ^ 20 + q.cls * 2 ^ 26 + x.state.code * 2 ^ 28))) ∧
    (∀ d c, d < 8 → c < 4 → Machine.fieldAt out (576 + 8 * d + 2 * c) 2 = (s.nodes.countP fun x =>
      decide (x.2.2.die = d ∧ x.2.2.level / 12 = c ∧ (x.2.2.state.pooled = true ∨ x.2.2.state.onUnits = true))) % 2 ^ 16) ∧
    (∀ (h : Nat) (x : Herd) (d : Die), s.herds[h]? = some x → s.dies[h / 16]? = some d →
      is (640 + 8 * h) (x.capacity + x.mstate * 2 ^ 21 + x.retired.toNat * 2 ^ 23 + d.budgets.getD (h % 16) 0 * 2 ^ 24 +
        ((d.zones[h % 16]?).map Zone.state).getD 0 * 2 ^ 28)) ∧
    (∀ (d w : Nat) (x : Die), s.dies[d]? = some x → w < 1024 →
      ((out.getD (1664 + 128 * d + w / 8) 0).getLsbD (w % 8) = true ↔ w ∈ x.wellsOut)) ∧
    ((qs.map Queue.qid).Nodup → ∀ q ∈ qs,
      let off := 2688 + 32 * qs.countP fun y => decide (y.qid < q.qid)
      is off (q.qid + q.cls * 2 ^ 12 + q.level * 2 ^ 14 + q.strict.toNat * 2 ^ 20 + q.n * 2 ^ 24 + q.pasid.toNat * 2 ^ 44) ∧
      is (off + 8) (q.head.toNat + q.tail.toNat * 2 ^ 32) ∧
      is (off + 0x10) (q.status + (s.slotOf q.qid).getD 0x3F * 2 ^ 8 + q.done.toNat * 2 ^ 32) ∧ is (off + 0x18) q.base.toNat) ∧
    ((ls.map Launch.lseq).Nodup → ∀ l ∈ ls,
      let off := 2688 + 32 * qs.length + 32 * ls.countP fun y => decide (y.lseq < l.lseq)
      is off (l.qid + l.nodes.length * 2 ^ 16 + (l.nodes.countP fun n => n.state == .retired) * 2 ^ 27 + l.gtrig.toNat * 2 ^ 38 +
        (if ∀ n ∈ l.nodes, n.hdr.det = true then 2 ^ 39 else 0)) ∧
      is (off + 8) l.record.toNat ∧ is (off + 0x10) l.lseq ∧
      is (off + 0x18) ((l.nodes.countP fun n => n.state.onUnits) + (l.nodes.countP fun n => n.state.pooled) * 2 ^ 11)) ∧
    (∀ (i : Nat) (e : LogEntry), s.log.reverse[i]? = some e →
      let off := 2688 + 32 * qs.length + 32 * ls.length + 32 * i
      is off (e.time % 2 ^ 44 + e.die * 2 ^ 44 + e.kind * 2 ^ 47 + e.qid * 2 ^ 52) ∧ dwAt out (off + 8) = e.w1 ∧
      dwAt out (off + 0x10) = e.w2 ∧ dwAt out (off + 0x18) = e.w3)

/-- R78, R79: the ATTEST buffer: its directory, the public key, the certificate, the report and the signature, each from a 64-byte boundary
up with zeros between them. The keys, the digests and the signatures are the model's constants, and a leaf's number is the count of those
used before it (log 13). -/
def Sys2Proof.Spec.AttestationFields : Prop :=
  ∀ (s : State) (nonce : List Byte), nonce.length = 32 → s.tahr.leaves ≤ 32768 → s.tahr.patches.length < 2 ^ 20 → s.dieMap.length = 8 →
    let out := s.attestation nonce
    let p := s.tahr.patches.length
    let sig := (3136 + 80 + 32 * p + 63) / 64 * 64
    let report := (out.drop 3136).take (80 + 32 * p)
    let leaf := 32768 - s.tahr.leaves
    let is (off : Nat) (bs : List Byte) : Prop := (out.drop off).take bs.length = bs
    out.length = sig + 2668 ∧
    dwAt out 0 = .ofNat 64 (1 + out.length * 2 ^ 32) ∧ dwAt out 8 = .ofNat 64 (64 + 56 * 2 ^ 32) ∧
    dwAt out 0x10 = .ofNat 64 (128 + 2956 * 2 ^ 32) ∧ dwAt out 0x18 = .ofNat 64 (3136 + (80 + 32 * p) * 2 ^ 32) ∧
    dwAt out 0x20 = .ofNat 64 (sig + 2668 * 2 ^ 32) ∧ dwAt out 0x28 = .ofNat 64 (s.tahr.leaves - 1) ∧ dwAt out 0x30 = 0 ∧
    dwAt out 0x38 = 0 ∧
    is 64 ([0, 0, 0, 7, 0, 0, 0, 3] ++ (List.range 48).map Config.identityKey ++ .replicate 8 0) ∧
    is 128 ([1, 0, 0x08, 0x57, Config.stepping] ++ .replicate 11 0 ++ (List.range 16).map (fun i => Config.identityKey (48 + i)) ++
      [0, 0, 0, 7, 0, 0, 0, 3] ++ (List.range 48).map Config.identityKey ++ .replicate 40 0) ∧
    is 3084 (.replicate 52 0) ∧
    is 3136 (nonce ++ (List.range 32).map Config.romDigest) ∧
    Machine.fieldAt out 3200 4 = p ∧
    Machine.fieldAt out 3204 4 = ((List.range 8).map fun d => s.dieMap.getD d 0 * 2 ^ (3 * d)).sum % 2 ^ 32 ∧
    is 3208 ([0x08, 0x57, Config.stepping] ++ .replicate 5 0) ∧
    (∀ (i : Nat) (x : Nat × List Byte), s.tahr.patches[i]? = some x → is (3216 + 32 * i) ((List.range 32).map (Config.patchDigest x.2))) ∧
    is (3216 + 32 * p) (.replicate (sig - (3216 + 32 * p)) 0) ∧
    is sig ((leBytes 4 leaf).reverse ++ [0, 0, 0, 3] ++ (List.range 2176).map (Config.lmsSign report leaf) ++ [0, 0, 0, 7] ++
      (List.range 480).map fun i => Config.lmsSign report leaf (2176 + i))

/-- R76 to R81, R234: RESYNC writes the first bytes of the summary that fit, laid out as R77 says; ATTEST uses one
leaf, and none if the buffer is too small; PATCH takes a good image of no lower number while no queue needs a slot; DSP changes
the ways of one die, and completes when the change does. The buffers are reached under PASID 0 (log 44); keys, signatures and what makes a
patch image good are the model's constants (log 13). -/
def Obligations.ServiceCommands : Prop :=
  Spec.SummaryFields ∧ Spec.AttestationFields ∧
  (∀ (s t : State) (bs : List Byte),
    (Spec.commandRead s t 7 bs → Spec.operandsClear bs 0x18 → ptrOk (dwAt bs 8) [0] 4096 = true →
      let n := min t.summary.length (dwAt bs 0x10).toNat
      (∀ u, t.fwProbe 0 true (pagePieces (pAddr (dwAt bs 8)) n) = (u, none) → exec .resync s =
        .next ((u.fwWrite 0 (pAddr (dwAt bs 8)) (t.summary.take n)).finishCommand
          (if n < t.summary.length then .resources else .ok) n))) ∧
    (Spec.commandRead s t 8 bs → Spec.operandsClear bs 0x20 → ptrOk (dwAt bs 8) [0] 1 = true → ptrOk (dwAt bs 0x10) [0] 1 = true →
      ∀ u v nonce, t.fwProbe 0 false (pagePieces (pAddr (dwAt bs 8)) 32) = (u, none) →
        u.fwRead 0 (pAddr (dwAt bs 8)) 32 = (v, .bytes nonce) →
        let out := v.attestation nonce
        (v.tahr.leaves = 0 ∨ (dwAt bs 0x18).toNat < out.length → exec .attest s = .next (v.finishCommand .resources 0)) ∧
        (v.tahr.leaves ≠ 0 → out.length ≤ (dwAt bs 0x18).toNat →
          ∀ w, v.fwProbe 0 true (pagePieces (pAddr (dwAt bs 0x10)) out.length) = (w, none) → exec .attest s =
            .next (((w.fwWrite 0 (pAddr (dwAt bs 0x10)) out).modTahr fun x => { x with leaves := x.leaves - 1 }).finishCommand
              .ok out.length))) ∧
    (Spec.commandRead s t 9 bs → Spec.operandsClear bs 0x18 → ptrOk (dwAt bs 8) [0] 1 = true →
      ((∃ q ∈ t.tahr.queues, q.needsSlot = true) → exec .patch s = .next (t.finishCommand .queueBusy 0)) ∧
      ((∀ q ∈ t.tahr.queues, q.needsSlot = false) → ∀ u v img,
        t.fwProbe 0 false (pagePieces (pAddr (dwAt bs 8)) (dwAt bs 0x10).toNat) = (u, none) →
        u.fwRead 0 (pAddr (dwAt bs 8)) (dwAt bs 0x10).toNat = (v, .bytes img) →
        (Config.patchGood img = false ∨ (∃ x ∈ v.tahr.patches, Config.patchSeq img < x.1) →
          exec .patch s = .next (v.finishCommand .signatureBad 0)) ∧
        (Config.patchGood img = true → (∀ x ∈ v.tahr.patches, x.1 ≤ Config.patchSeq img) → exec .patch s =
          .next ((v.modTahr fun x => { x with patches := x.patches ++ [(Config.patchSeq img, img)], patched := true }).finishCommand
            .ok (Config.patchSeq img))))) ∧
    (Spec.commandRead s t 10 bs → Spec.operandsClear bs 0x10 → Word.fieldAt (dwAt bs 8) 63 7 = 0 →
      let ways := Word.fieldAt (dwAt bs 8) 6 3
      let die := Word.fieldAt (dwAt bs 8) 2 0
      (8 < ways → exec .dsp s = .next (t.finishCommand .invalidField 0)) ∧
      (ways ≤ 8 → ∀ x, t.dies[die]? = some x →
        (x.change.isSome → exec .dsp s = .next t) ∧
        (x.change = none → x.ways = ways →
          exec .dsp s = .next ((t.modDie die fun z => { z with waysSet := ways }).finishCommand .ok ways)) ∧
        (x.change = none → x.ways ≠ ways → ∃ u y, exec .dsp s = .next u ∧ u.tahr.mgmt = some (.dsp die) ∧ u.dies[die]? = some y ∧
          y.change = some ⟨ways, none⟩ ∧ y.ways = x.ways ∧ y.waysSet = ways ∧ u.mem = t.mem)))) ∧
  (∀ (s : State) (die : Nat) (x : Die), s.dies[die]? = some x →
    (x.change = none → exec (.dspChangeComplete die) s = .next s) ∧
    (∀ w, x.change = some w → ∃ u y, exec (.dspChangeComplete die) s = .next u ∧ u.dies[die]? = some y ∧ y.ways = w.target ∧
      y.change = none ∧ (w.asker = none → s.tahr.mgmt ≠ some (.dsp die) → ∀ a,
        let lo := dspLoc (s.physDie die) (2 ^ 25 * min x.ways w.target)
        let hi := dspLoc (s.physDie die) (2 ^ 25 * max x.ways w.target)
        u.mem.byte a = if lo ≤ a ∧ a < hi then 0 else s.mem.byte a)))

/-! ## Nodes, eviction and resumption -/

namespace Sys2Proof.Spec

/-- Whether node b comes before node a in the choice of a pool whose slots were last served as given: R89's order, a rotated node
first of all. -/
def precedes (served : List Nat) (lb jb : Nat) (b : Node) (la ja : Nat) (a : Node) : Prop :=
  let turn (n : Node) : Nat := (n.slot + 63 - served.getD n.level 31) % 32
  (b.first = true ∧ a.first = false) ∨
  (b.first = a.first ∧ (a.level < b.level ∨ (a.level = b.level ∧
    (turn b < turn a ∨ (turn b = turn a ∧ (lb < la ∨ (lb = la ∧ jb < ja)))))))

/-- Every node that waits for executors can be satisfied by the units of the part. -/
def allSatisfiable (s : State) : Prop := ∀ l ∈ s.tahr.launches, ∀ n ∈ l.nodes, n.state.pooled = true → s.satisfiable n = true

/-- A core's mark is set, and every write that it covers is visible: no store, store of a vector word, or pump, matrix or well entry
issued before its cut point is left (R98). -/
def covered (c : Core) (cut : Option Nat) : Prop :=
  ∃ k, cut = some k ∧ (∀ e ∈ c.sq, k ≤ e.seq) ∧ (∀ e ∈ c.vlands, e.seq < k → ∀ t ∈ e.targets, t.cells = []) ∧
    ∀ g ∈ [Engine.pump, .matrix, .well], ∀ e ∈ c.queue g, k ≤ e.seq

/-- Every core of the herds that a node holds. -/
def gang (s : State) (n : Node) (f : Core → Prop) : Prop := ∀ h ∈ n.herds, ∀ x, s.ctx? h = some x → ∀ c ∈ x.cores, f c

end Sys2Proof.Spec

/-- R88 to R90, R95, R103: a pool chooses the Ready node that comes first; one that finds its executors is placed, its slot served, and
the pool's next choice is 16 ck off; one that does not becomes Reserving. At 64 passes a node's level rises by one, never above
the top of its class. Reserving nodes claim in order of precedence, and one whose set is complete is placed. That a node which becomes
Reserving counts as no dispatch is the model's choice (log 58), and so is the order of Reserving nodes of one launch at one level, by
node index (log 59). -/
def Obligations.NodesAreDispatched : Prop :=
  (∀ (s : State) (die : Nat) (l : Launch) (i : Nat) (n : Node), s.bestReady die [] = some (l, i, n) →
    (∀ x ∈ s.nodes, x.2.2.level < 48) →
    (l, i, n) ∈ s.nodes ∧ n.state = .ready ∧ n.die = die ∧
    ∀ x ∈ s.nodes, x.2.2.state = .ready → x.2.2.die = die → x.2.2.moving = [] →
      ¬ Spec.precedes (((s.dies[die]?).getD .idle).served) x.1.lseq x.2.1 x.2.2 l.lseq i n) ∧
  (∀ (s : State) (die : Nat) (d : Die), s.dies[die]? = some d →
    (s.now < d.nextPick → exec (.nodeDispatch die) s = .next s) ∧
    (d.nextPick ≤ s.now → Spec.allSatisfiable s → s.nodesIn .reserving = [] → (∀ x ∈ s.nodes, x.2.2.aging < 64) →
      (s.bestReady die [] = none → exec (.nodeDispatch die) s = .next s) ∧
      (∀ l i n, s.bestReady die [] = some (l, i, n) →
        ((s.fit l.lseq i n [] []).whole = true → exec (.nodeDispatch die) s =
          .next (((((s.place l.lseq i (s.fit l.lseq i n [] [])).serve die n).modPool die fun m =>
            if m.state = .ready ∧ m.level < n.level then { m with aging := m.aging + 1 } else m).modDie die fun d =>
              { d with nextPick := s.now + 16 }))) ∧
        ((s.fit l.lseq i n [] []).whole = false → s.nodesIn .ready = [(l, i, n)] → exec (.nodeDispatch die) s =
          .next (((s.modNode l.lseq i fun m => { m with state := .reserving }).serve die n).claimAll))))) ∧
  (∀ (s : State), Spec.allSatisfiable s →
    (s.nodesIn .reserving = [] → exec .reservingClaim s = .next s) ∧
    (∀ l i n, s.nodesIn .reserving = [(l, i, n)] →
      exec .reservingClaim s = .next (if (s.fit l.lseq i n [] []).whole then s.place l.lseq i (s.fit l.lseq i n [] [])
        else s.modNode l.lseq i fun m => { m with herds := (s.fit l.lseq i n [] []).herds })) ∧
    s.reserving.Pairwise (fun a b => (∀ x ∈ s.nodes, x.2.2.level < 48) → b.2.2.level < a.2.2.level ∨
      (b.2.2.level = a.2.2.level ∧ (a.1.lseq < b.1.lseq ∨ (a.1.lseq = b.1.lseq ∧ a.2.1 ≤ b.2.1))))) ∧
  (∀ (s : State) (lseq i : Nat) (n : Node), s.node? lseq i = some n → ∃ t m, exec (.levelAging lseq i) s = .next t ∧
    t.node? lseq i = some m ∧
    (n.state = .ready → 64 ≤ n.aging → m = { n with aging := 0, level := if n.level % 12 = 11 then n.level else n.level + 1 }) ∧
    (n.state ≠ .ready ∨ n.aging < 64 → m = n))

/-- R41, R91, R94, R137, R154, R449: the herds that a fresh node takes hold it in gang ranks 0 up, and every core begins at the entry point
at user level, with arg, its core index and the number of cores in s1 to s3, the record of the image in b15, zeros in every
other register, every guard resolved true, and empty queues; the herd's semaphores are zero. On every core s0 reads as zero and discards what is written. -/
def Obligations.EntryState : Prop :=
  (∀ (c : Core) (v : Word), c.gs 0 = 0 ∧ c.ps 0 v = c) ∧
  ∀ (s : State) (lseq i : Nat) (l : Launch) (n : Node) (f : Fit), s.launch? lseq = some l → s.node? lseq i = some n →
    n.saved = none → f.herds.Nodup → (∀ h ∈ f.herds, h < s.herds.length) →
    (∃ m, (s.place lseq i f).node? lseq i = some m ∧ m.state = .running ∧ m.herds = f.herds ∧ m.pump = f.pump) ∧
    ∀ k h, f.herds[k]? = some h → ∃ x y, (s.place lseq i f).ctx? h = some x ∧ x.held = some y ∧ y.lseq = l.lseq ∧ y.node = i ∧
      y.grank = k ∧ y.gang = n.hdr.gang ∧ y.pasid = l.pasid ∧ (∀ j, x.k.getD j 0 = 0) ∧ x.stream = n.hdr.entry.truncate 56 ∧
      ∀ c, c < 8 → ∃ e, (s.place lseq i f).core? h c = some e ∧ e.gs 1 = n.hdr.arg ∧ e.gs 2 = .ofNat 64 (8 * k + c) ∧
        e.gs 3 = .ofNat 64 (8 * n.hdr.gang) ∧ (∀ r, r ≠ 1 → r ≠ 2 → r ≠ 3 → e.gs r = 0) ∧ (∀ r, e.gv r = 0) ∧
        (recOf (e.gb 15)).base = l.image ∧ (recOf (e.gb 15)).extent = 0xFFFFFFFF ∧ (recOf (e.gb 15)).fmt = 3 ∧
        (recOf (e.gb 15)).bounds = 0 ∧ (recOf (e.gb 15)).colour = 0 ∧ (recOf (e.gb 15)).stride0 = 0 ∧ (recOf (e.gb 15)).stride1 = 0 ∧
        (recOf (e.gb 15)).ok = true ∧ (∀ r, r ≠ 15 → e.gb r = 0) ∧
        (∀ r, e.gq r = 0) ∧ (∀ r, e.gl r = 0) ∧ (∀ r, r ≠ 0 → e.gp r = 0) ∧ (∀ r : Fin 16, e.g.getD r .no = .yes) ∧
        (∀ g, e.queue g = []) ∧ e.x.priv = false ∧ e.x.intrap = false ∧ e.front = .attached ∧ e.pc = n.hdr.entry.truncate 56

/-- R60, R88, R98, R99, R104, R105: the node-level trigger fires once every core of the gang is marked and what its marks cover is visible,
and lowers its successors' counts, one that reaches zero becoming Ready; the graph-level trigger fires when every node has
retired or is covered by its graph marks, and lets the queue go on. Until then nothing fires. -/
def Sys2Proof.Spec.TriggersFire : Prop :=
  (∀ (s : State) (lseq i : Nat) (n : Node), s.node? lseq i = some n → n.runs = true → n.state = .running → n.ntrig = false →
    (Spec.gang s n (fun c => Spec.covered c c.cutN) → ∃ u m, exec (.nodeTriggerFire lseq i) s = .next u ∧ u.mem = s.mem ∧
      u.herds = s.herds ∧ (i ∉ n.succs → u.node? lseq i = some m ∧ m = { n with ntrig := true, state := .triggered }) ∧
      (n.succs.Nodup → i ∉ n.succs → ∀ j x, j ≠ i → s.node? lseq j = some x → u.node? lseq j = some (
        if j ∈ n.succs ∧ x.state = .waiting then
          { x with count := x.count - 1, state := if x.count ≤ 1 then .ready else .waiting } else x))) ∧
    (¬ Spec.gang s n (fun c => Spec.covered c c.cutN) → exec (.nodeTriggerFire lseq i) s = .next s)) ∧
  (∀ (s : State) (lseq i : Nat) (n : Node), s.node? lseq i = some n → (n.state ≠ .running ∨ n.ntrig = true) →
    exec (.nodeTriggerFire lseq i) s = .next s) ∧
  (∀ (s : State) (lseq : Nat) (l : Launch), s.launch? lseq = some l → l.gtrig = false → l.abandoned = false →
    s.preempting l.qid = false →
    ((∀ n ∈ l.nodes, n.gdone = true ∨ n.state = .retired ∨ (n.runs = true ∧ Spec.gang s n (fun c => Spec.covered c c.cutG))) →
      ∃ u m, exec (.graphTriggerFire lseq) s = .next u ∧ u.mem = s.mem ∧ u.launch? lseq = some m ∧ m = { l with gtrig := true } ∧
        ∀ q, s.queue? l.qid = some q → ∃ y, u.queue? l.qid = some y ∧ y.hold = if q.hold = some lseq then none else q.hold) ∧
    ((∃ n ∈ l.nodes, n.gdone = false ∧ n.state ≠ .retired ∧
        (n.runs = false ∨ ¬ Spec.gang s n (fun c => Spec.covered c c.cutG))) →
      ∃ u m, exec (.graphTriggerFire lseq) s = .next u ∧ u.mem = s.mem ∧ u.launch? lseq = some m ∧ m.gtrig = false ∧
        u.tahr.queues = s.tahr.queues)) ∧
  (∀ (s : State) (lseq : Nat) (l : Launch), s.launch? lseq = some l → l.gtrig = true → exec (.graphTriggerFire lseq) s = .next s)

/-- R20, R56, R88, R104, R373, R429, R432: a node retires when its cores have ended, what they issued is done and its fills have ended: its
herds are free, its rectangle gone, its successors lowered if its trigger has not done so, and its barrier holds one arrival
more. A graph retires when its nodes have: its barrier holds one arrival more, then the record of its queue shows
the count and the tag, and the launch is gone. That the
queue of vector 0 sends no message then is the model's reading (log 40), and so is that a graph waits while a PREEMPT of its queue is under
way (log 39). -/
def Sys2Proof.Spec.NodesRetire : Prop :=
  (∀ (s : State) (lseq i : Nat) (l : Launch) (n : Node), s.launch? lseq = some l → s.node? lseq i = some n → n.runs = true →
    l.abandoned = false →
    (Spec.gang s n (fun c => c.front = .halted ∧ c.block = none ∧ (∀ q ∈ c.eq, q = []) ∧ c.sq = [] ∧ c.vlands = []) →
      s.fillsDone lseq i = true → ∀ t a, (n.nbar = 0 ∨ s.fwObject l.pasid n.nbar true = (t, .at_ a)) →
      ∃ u m, exec (.nodeRetirement lseq i) s = .next u ∧
        (∀ h ∈ n.herds, h < s.herds.length → u.ctx? h = some .idle) ∧ (∀ x ∈ u.rects, x.isOf lseq i = false) ∧
        (n.nbar = 0 → u.mem = s.mem) ∧
        (n.nbar ≠ 0 → (∀ d ∈ s.dieMap, d < 8) → u.mem = (t.arriveAt a 1 0 (some n.ntag) n.hdr.det).1.mem) ∧
        (i ∉ n.succs → u.node? lseq i = some m ∧ m.state = .retired ∧ m.herds = [] ∧ m.ntrig = true) ∧
        (n.succs.Nodup → ∀ j x, j ≠ i → s.node? lseq j = some x → u.node? lseq j = some (
          if n.ntrig = false ∧ j ∈ n.succs ∧ x.state = .waiting then
            { x with count := x.count - 1, state := if x.count ≤ 1 then .ready else .waiting } else x))) ∧
    (¬ Spec.gang s n (fun c => c.front = .halted ∧ c.block = none ∧ (∀ q ∈ c.eq, q = []) ∧ c.sq = [] ∧ c.vlands = []) →
      exec (.nodeRetirement lseq i) s = .next s)) ∧
  (∀ (s : State) (lseq : Nat) (l : Launch), s.launch? lseq = some l → l.abandoned = false → s.preempting l.qid = false →
    ((∃ n ∈ l.nodes, n.state ≠ .retired) → exec (.graphRetirement lseq) s = .next s) ∧
    ((∀ n ∈ l.nodes, n.state = .retired) → ∀ w : State,
      (l.gbar = 0 ∧ w = s) ∨ (l.gbar ≠ 0 ∧ ∃ t a, s.fwObject l.pasid l.gbar true = (t, .at_ a) ∧
        w = (t.arriveAt a 1 0 (some l.gtag) (l.nodes.all fun n => n.hdr.det)).1) → ∀ q u v b, s.queue? l.qid = some q →
      w.fwTranslate q.pasid (q.srec.toNat % 2 ^ 56) true = (u, .loc v b) → ∃ t y, exec (.graphRetirement lseq) s = .next t ∧
        t.mem = (u.writeLoc v (leBytes 4 q.head.toNat ++ leBytes 2 l.tag.toNat ++ leBytes 2 (q.status % 2 ^ 16) ++
          leBytes 4 (q.done + 1).toNat ++ leBytes 4 (q.detail % 2 ^ 32))).mem ∧
        (∀ x ∈ t.tahr.launches, x.lseq ≠ lseq) ∧ t.queue? l.qid = some y ∧ y.done = q.done + 1 ∧ y.tag = l.tag ∧
        y.hold = (if q.hold = some lseq then none else q.hold) ∧
        t.tahr.msix = s.tahr.msix ++ q.owed.getD [] ++ if l.irq ∧ q.vector ≠ 0 then [q.vector] else []))

/-- R430, R431: a copy node carries its bytes from source to destination, every one and no other, and retires. The statement takes the
die scratchpads as its spaces, where no translation can fail and no other agent writes. -/
def Obligations.CopiesMoveTheirBytes : Prop :=
  ∀ (s : State) (lseq i : Nat) (l : Launch) (n : Node), s.launch? lseq = some l → s.node? lseq i = some n → l.abandoned = false →
    n.copying = true → n.copied = 0 → n.stop = .ok → n.lost = [] → n.nbar = 0 → s.marks = [] → s.dieStopped n.die = false →
    pSpace n.src = 3 → pSpace n.dst = 3 → pAddr n.src + n.bytes ≤ s.dspSize (pRank n.src) →
    pAddr n.dst + n.bytes ≤ s.dspSize (pRank n.dst) →
    let a := dspLoc (s.physDie (pRank n.src)) (pAddr n.src)
    let b := dspLoc (s.physDie (pRank n.dst)) (pAddr n.dst)
    s.physDie (pRank n.src) < 8 → s.physDie (pRank n.dst) < 8 → s.dspSize (pRank n.src) ≤ 2 ^ 28 → s.dspSize (pRank n.dst) ≤ 2 ^ 28 →
    (a + n.bytes ≤ b ∨ b + n.bytes ≤ a) →
    ∃ t m, exec (.copyNodeRetirement lseq i) s = .next t ∧
      (∀ x, t.mem.byte x = if b ≤ x ∧ x < b + n.bytes then s.mem.byte (x - b + a) else s.mem.byte x) ∧
      (i ∉ n.succs → t.node? lseq i = some m ∧ m.state = .retired ∧ m.lost = [] ∧ m.stop = .ok) ∧ t.log = s.log

/-- R103, R409, R410, R413, R414: a rotation asks the gang to leave; a core swaps once its vector results have landed, and with the last
core the context makes way; it is quiescent once nothing that it started is under way, and only then is it spilled, after which
the herd holds it no more. The spill leaves in the save area the image of each core with its scratchpad's footprint, the accumulator
tiles, and for PREEMPT of a well node the rectangle state (R351, R418); where the part lays out an image itself is the model's (log 18), and
where firmware's areas lie too (log 26). That the contexts change places with the last core, all eight at once, is the model's (log 41). -/
def Obligations.ContextsLeave : Prop :=
  (∀ (s : State) (lseq i : Nat) (l : Launch) (n : Node), s.launch? lseq = some l → s.node? lseq i = some n →
    (s.mayRotate l n = true → ∃ t, exec (.nodeRotation lseq i) s = .next t ∧
      t.node? lseq i = some { n with moving := n.herds, turned := some s.now } ∧
      ∀ h ∈ n.herds, ∀ x, t.herds[h]? = some x → x.evict.isSome) ∧
    (n.hdr.reloc = false ∨ (∃ k, n.turned = some k ∧ s.now < k + 4194304) → exec (.nodeRotation lseq i) s = .next s)) ∧
  (∀ (s : State) (h c : Nat) (x : Herd) (r : SaveRef) (y : Core), s.herds[h]? = some x → s.Has h c y → x.evict = some r →
    (x.old ≠ none → exec (.contextSwap h c) s = .next s) ∧
    (x.old = none → y.vlands ≠ [] → y.swapped = false → exec (.contextSwap h c) s = .next s) ∧
    (x.old = none → y.vlands = [] → y.swapped = false → (∀ q ∈ y.aq, q = []) →
      ((∃ j z, j ≠ c ∧ s.Has h j z ∧ z.swapped = false) → ∃ t z, exec (.contextSwap h c) s = .next t ∧ t.Has h c z ∧
        z = { y.withdraw with swapped := true } ∧ t.mem = s.mem) ∧
      ((∀ j z, j ≠ c → s.Has h j z → z.swapped = true) → ∃ t z o, exec (.contextSwap h c) s = .next t ∧
        t.herds[h]? = some z ∧ z.act = .idle ∧ z.evict = none ∧ z.spill = some ⟨r, false⟩ ∧ z.old = some o ∧ o.held = x.act.held ∧
        o.k = x.act.k ∧ o.acc = x.act.acc ∧ o.cores.length = x.act.cores.length ∧ t.mem = s.mem))) ∧
  (∀ (s : State) (h : Nat) (x : Herd) (o : HerdCtx) (r : SaveRef), s.herds[h]? = some x → x.old = some o → x.spill = some ⟨r, false⟩ →
    ((∀ c ∈ o.cores, c.still = true) → ∃ t y, exec (.herdQuiescence h) s = .next t ∧ t.herds[h]? = some y ∧
      y.spill = some ⟨r, true⟩ ∧ y.act = x.act ∧ t.mem = s.mem) ∧
    ((∃ c ∈ o.cores, c.still = false) → exec (.herdQuiescence h) s = .next s) ∧
    exec (.contextSpillComplete h) s = .next s) ∧
  (∀ (s : State) (h : Nat) (x : Herd) (o : HerdCtx) (r : SaveRef) (n : Held), s.herds[h]? = some x → x.old = some o →
    x.spill = some ⟨r, true⟩ → o.held = some n → ∀ t, s.saveReach r true (r.pieces (n.bytes + (s.rectOut o n r).length)) = (t, true) →
    (∃ u y, exec (.contextSpillComplete h) s = .next u ∧ u.herds[h]? = some y ∧ y.old = none ∧ y.spill = none) ∧
    (s.marks = [] → s.misses = [] → o.accErr = [] → (∀ c a, t.inDeadGroup (scratchLoc h c a) = false) → h < 128 → o.cores.length = 8 →
      n.fp ≤ 256 → (∀ i, i < n.acc → (o.acc.getD i []).length = 16384) →
      let image := (o.cores.zipIdx.flatMap fun c => t.coreImage o h c.2 c.1 ++
          (List.range (4096 * n.fp)).map fun j => t.mem.byte (scratchLoc h c.2 j)) ++
        ((List.range n.acc).flatMap fun i => (o.acc.getD i []).flatMap fun v => leBytes 4 v.toNat) ++ s.rectOut o n r
      exec (.contextSpillComplete h) s = .next (((((t.saveWrite r (r.pieces image.length) image).keepNums o r).spilled h n).evicted
        n.lseq n.node h r)) ∧
      (∀ k a, r = .firm k a → ∃ u, exec (.contextSpillComplete h) s = .next u ∧
        ∀ (j : Nat) (v : Byte), image[j]? = some v → u.mem.byte (2 ^ 61 + k * 2 ^ 31 + a + j) = v))) ∧
  (∀ (s : State) (x : HerdCtx) (h i : Nat) (c : Core), (s.coreImage x h i c).length = 40960) ∧
  (∀ (s t : State) (p : BitVec 20) (va l : Nat) (b : Bool) (bs : List Byte), bs ≠ [] → va % 4096 + bs.length ≤ 4096 →
    s.fwTranslate p va true = (t, .loc l b) →
    s.saveWrite (.virt p va) ((SaveRef.virt p va).pieces bs.length) bs = t.writeLoc l bs) ∧
  (∀ (s : State) (p : BitVec 20) (va n : Nat) (bs : List Byte), 4096 < va % 4096 + n → bs.length = n →
    let m := 4096 - va % 4096
    s.saveWrite (.virt p va) ((SaveRef.virt p va).pieces n) bs =
      (s.saveWrite (.virt p va) ((SaveRef.virt p va).pieces m) (bs.take m)).saveWrite (.virt p (va + m))
        ((SaveRef.virt p (va + m)).pieces (n - m)) (bs.drop m))

/-- R154, R407, R415, R419, R421: a context that is restored stands on its herd again, its registers absent, with everything else as its
save area holds it: footprints, accumulator tiles, semaphores, trap registers, conditional streams, the cores' addresses and the shared
stream's, unless every live core waits in a join, and a rectangle that PREEMPT saved; what a core's image says of these is what the core held
(log 18 for the places that the part lays out). A register that is missed is
fetched from its place in the core's image by the first word that uses it, and holds what it held when it was saved; one that cannot be
read is zero, and the word takes the reconstruction trap with detail 2. That the cores of a gang begin together and which images are taken
at once is the model's (log 41). -/
def Obligations.ContextsReturn : Prop :=
  (∀ (s : State) (h : Nat) (x : Herd) (n : Held) (c : Core) (r : SaveRef), s.herds[h]? = some x → x.act.held = some n →
    x.act.cores.head? = some c → c.saved = some r → c.swapped = true → x.evict = none →
    (x.old ≠ none → exec (.contextRestore h) s = .next s) ∧
    (x.old = none → ∀ t, s.saveReach r false (r.pieces (n.bytes +
        if r.isVirt ∧ n.well then 67072 * n.rows + 4608 * n.cols else 0)) = (t, true) →
      ∃ u y, exec (.contextRestore h) s = .next u ∧ u.ctx? h = some y ∧ y.held = some n ∧ y.cores.length = 8 ∧
        (∀ z ∈ y.cores, z.saved.isSome ∧ (∀ k, k ≠ 0 → z.isAbsent (.s k) = true) ∧ ∀ k, z.isAbsent (.v k) = true) ∧
        (s.marks = [] → s.misses = [] → (∀ c a, s.inDeadGroup (scratchLoc h c a) = false) → h < 128 → n.fp ≤ 256 → n.acc ≤ 4 →
          let len := 40960 + 4096 * n.fp
          let area (off k : Nat) : List Byte := (t.saveBytes (r.add off) k).2.1
          let image (i : Nat) : List Byte := area (len * i) 40960
          let joins (i : Nat) : Bool := (fieldAt (image i) 0x180 1 / 4 % 2 == 1)
          let front (i : Nat) : Nat := fieldAt (image i) 0x180 1 % 4
          let st (i : Nat) : Word := dwAt (image i) 0x600
          (∀ i j, i < 8 → j < 4096 * n.fp →
            u.mem.byte (scratchLoc h i j) = (area (len * i + 40960) (4096 * n.fp)).getD j 0) ∧
          (∀ i j, i < 4 → j < 16384 → (y.acc.getD i []).getD j 0 =
            if i < n.acc then .ofNat 32 (fieldAt (area (8 * len) (65536 * n.acc)) (65536 * i + 4 * j) 4) else 0) ∧
          (∀ k : Fin 256, y.k.getD k 0 = .ofNat 16 (fieldAt (image 0) (0x9000 + 2 * k) 2)) ∧
          (∀ (i : Nat) (z : Core), y.cores[i]? = some z → z.saved = some (r.add (len * i)) ∧
            z.x = ⟨(st i).getLsbD 0, (st i).getLsbD 1, (st i).getLsbD 2, (st i).getLsbD 3, (st i).getLsbD 4, (st i).getLsbD 5,
              (st i).extractLsb' 8 16, dwAt (image i) 0x608, dwAt (image i) 0x610, dwAt (image i) 0x618, dwAt (image i) 0x620,
              dwAt (image i) 0x628, dwAt (image i) 0x630, dwAt (image i) 0x680⟩ ∧
            (∀ m : Fin 4, z.cs.getD m [] = (List.range (min 256 ((dwAt (image i) 0x658).toNat / 2 ^ (9 * m.val) % 512))).map fun j =>
              .ofNat 32 (fieldAt (image i) (0x2800 + 1024 * m + 4 * j) 4)) ∧
            (((∃ j, j < 8 ∧ front j ≤ 1 ∧ joins j = false) ∨ ∀ j, j < 8 → 2 ≤ front j) →
              z.pc = .ofNat 56 (fieldAt (image i) 0x188 7) ∧ y.stream = .ofNat 56 (4 * fieldAt (image 0) 0x9209 7))) ∧
          (∀ x, s.rects.find? (fun x => x.isOf n.lseq n.node) = some x → r.isVirt = true → n.well = true →
            x.restore (area n.bytes (67072 * n.rows + 4608 * n.cols)) ∈ u.rects)))) ∧
  (∀ (s : State) (x : HerdCtx) (h i : Nat) (c : Core) (r : Option SaveRef) (k : Nat),
    let d := coreOf (s.coreImage x h i c) r k
    d.pc = c.pc ∧ d.front = c.front ∧ d.join = c.join ∧ d.x = c.x ∧
    (c.cs.length = 4 → (∀ q ∈ c.cs, q.length ≤ 256) → d.cs = c.cs)) ∧
  (∀ (s : State) (x : HerdCtx) (h i : Nat) (c d : Core) (r : BankReg), c.s.length = 32 → c.p.length = 8 → c.l.length = 8 →
    c.g.length = 16 → c.b.length = 16 → c.q.length = 16 → c.v.length = 32 → d.s.length = 32 → d.p.length = 8 → d.l.length = 8 →
    d.g.length = 16 → d.b.length = 16 → d.q.length = 16 → d.v.length = 32 →
    let e := d.fetched r (((s.coreImage x h i c).drop (regPlace r).1).take (regPlace r).2)
    e.isAbsent r = false ∧ e.pc = d.pc ∧ e.sq = d.sq ∧
    match r with
    | .s n => e.gs n = c.gs n ∧ ∀ m, m ≠ n → e.gs m = d.gs m
    | .p n => e.gp n = c.gp n ∧ ∀ m, m ≠ n → e.gp m = d.gp m
    | .l n => e.gl n = c.gl n ∧ ∀ m, m ≠ n → e.gl m = d.gl m
    | .g n => e.g.getD n.toNat .no = c.g.getD n.toNat .no
    | .b n => e.gb n = c.gb n ∧ ∀ m, m ≠ n → e.gb m = d.gb m
    | .q n => e.gq n = c.gq n ∧ ∀ m, m ≠ n → e.gq m = d.gq m
    | .v n => e.gv n = c.gv n ∧ ∀ m, m ≠ n → e.gv m = d.gv m
    | .x _ => True) ∧
  (∀ (s : State) (h c : Nat) (x : Core) (r : BankReg) (base : SaveRef), s.Has h c x → x.saved = some base → x.isLive = true →
    x.block = none → x.join = none → x.boundary = none → s.mayIssue h x = true →
    (x.isAbsent r = false → exec (.registerMiss h c r) s = .next s) ∧
    (x.isAbsent r = true → ∀ v i n, s.fetchNext h x = (v, .word i n) →
      (r ∉ x.uses i → exec (.registerMiss h c r) s = .next v) ∧
      (r ∈ x.uses i → ∀ t, v.saveReach (base.add (regPlace r).1) false ((base.add (regPlace r).1).pieces (regPlace r).2) = (t, true) →
        ∀ u bs bad, t.saveBytes (base.add (regPlace r).1) (regPlace r).2 = (u, bs, bad) →
          (bad = false →
            exec (.registerMiss h c r) s = .next (u.modCore h c fun z => if eagerReg r then z.present r else z.fetched r bs)) ∧
          (bad = true → exec (.registerMiss h c r) s = .next ((u.modCore h c fun z =>
            z.fetched r (.replicate (regPlace r).2 0)).enterTrap h c (.reconstruction 2 (.ofNat 64 (regNumber r))) false))))) ∧
  (∀ (x : Core) (d a b : BitVec 5) (r : BitVec 4) (o : BitVec 15), x.uses (.add d a b) = [.s a, .s b] ∧
    x.uses (.stD a r o) = [.s a, .b r] ∧ x.uses (.ldD d r o) = [.b r] ∧ (∀ h k p, x.uses (.pcnt h k p) = predBank p) ∧ x.uses .halt = [])

/-- R98, R99, R429, R432: triggers fire, and nodes and graphs retire. -/
def Obligations.TriggersAndRetirement : Prop := Spec.TriggersFire ∧ Spec.NodesRetire

/-! ## Scratchpads, translation, pages and wells -/

namespace Sys2Proof.Spec

/-- The physical side of a core. -/
def physOf (s : State) (h c : Nat) : Option CorePhys := (s.herds[h]?).bind fun x => x.phys[c]?

/-- Whether a unit's counts have reached the thresholds of R435, and the count that did. -/
def threshold (s : State) (u : UnitId) (v : Nat) : Prop :=
  let k := s.counter (.unit u)
  match u with
  | .dataBank _ _ _ | .parityBank _ _ _ => (2 ≤ k.unc ∧ v = k.unc) ∨ (k.unc < 2 ∧ 4096 ≤ k.cor ∧ v = k.cor)
  | .herd _ => 1 ≤ k.unc ∧ v = k.unc
  | .matrix _ | .diePump _ _ => 3 ≤ k.unc ∧ v = k.unc
  | .well d w => (3 ≤ k.unc ∧ v = k.unc) ∨ (k.unc < 3 ∧ 16 ≤ (s.counter (.beats d w)).unc ∧ v = (s.counter (.beats d w)).unc)

end Sys2Proof.Spec

/-- R227, R230, R231, R435, R448: a parity update clears the mark of its row and no other; a rebuild leaves its group degraded. A unit
retires when its counts reach their threshold, or bring-up finds it bad, and not before: a data bank of a sound group is to be
rebuilt, a parity bank leaves its group degraded, a second bank takes the whole group, and the fourth group takes the herd. -/
def Obligations.UnitsRetire : Prop :=
  (∀ (s : State) (h c g r : Nat) (p : CorePhys), s.core? h c ≠ none → Spec.physOf s h c = some p →
    ∃ t q, exec (.parityUpdate h c g r) s = .next t ∧ Spec.physOf t h c = some q ∧ t.mem = s.mem ∧ q.groups = p.groups ∧
      q.moved = p.moved ∧ ∀ x, x ∈ q.stale ↔ x ∈ p.stale ∧ x ≠ (g, r)) ∧
  (∀ (s : State) (h c b : Nat) (p : CorePhys) (y : Group), s.core? h c ≠ none → Spec.physOf s h c = some p → p.groups[b / 4]? = some y →
    (y.rebuild = some b → ∃ t q, exec (.bankRebuild h c b) s = .next t ∧ t.mem = s.mem ∧ Spec.physOf t h c = some q ∧
      q.groups[b / 4]? = some { y with rebuild := none, degraded := true } ∧
      ∀ j, j ≠ b / 4 → q.groups[j]? = p.groups[j]?) ∧
    (y.rebuild ≠ some b → exec (.bankRebuild h c b) s = .next s)) ∧
  (∀ (s : State) (u : UnitId),
    (s.hasUnit u = false → exec (.unitRetirement u) s = .fault .noSuchUnit) ∧
    (s.hasUnit u = true → s.unitOut u = true → exec (.unitRetirement u) s = .next s) ∧
    (s.hasUnit u = true → s.unitOut u = false → s.powered = true →
      (∀ v, Spec.threshold s u v → exec (.unitRetirement u) s = .next (s.retireUnit u v).recheck) ∧
      ((∀ v, ¬ Spec.threshold s u v) → exec (.unitRetirement u) s =
        .next (if s.tahr.testing && unitTested u then s.retireUnit u 0 else s)))) ∧
  (∀ (s : State) (h c b v : Nat) (p : CorePhys) (y : Group), Spec.physOf s h c = some p → p.groups[b / 4]? = some y →
    ∃ q z, Spec.physOf (s.retireUnit (.dataBank h c b) v) h c = some q ∧ q.groups[b / 4]? = some z ∧ b ∈ z.lostBanks ∧
      (y.degraded = false → y.lostBanks = [] → z.rebuild = some b ∧ z.dead = y.dead) ∧
      ((y.degraded = true ∨ y.lostBanks ≠ []) → z.dead = true)) ∧
  (∀ (s : State) (h c g v : Nat) (p : CorePhys) (y : Group), Spec.physOf s h c = some p → p.groups[g]? = some y →
    ∃ q z, Spec.physOf (s.retireUnit (.parityBank h c g) v) h c = some q ∧ q.groups[g]? = some z ∧ z.degraded = true ∧
      ((y.degraded = true ∨ y.lostBanks ≠ []) → z.dead = true) ∧ (4 ≤ q.deadGroups.length → (y.degraded = true ∨ y.lostBanks ≠ []) →
        ∃ x, (s.retireUnit (.parityBank h c g) v).herds[h]? = some x ∧ x.retired = true)) ∧
  (∀ (s : State) (h v : Nat) (x : Herd), s.herds[h]? = some x →
    (∃ y, (s.retireUnit (.herd h) v).herds[h]? = some y ∧ y.retired = true) ∧
    (x.mstate ≤ 2 → ∃ y, (s.retireUnit (.matrix h) v).herds[h]? = some y ∧ y.mstate = 2)) ∧
  (∀ (s : State) (d k v : Nat) (x : Die), s.dies[d]? = some x →
    (∃ y, (s.retireUnit (.well d k) v).dies[d]? = some y ∧ k ∈ y.wellsOut) ∧
    (∃ y, (s.retireUnit (.diePump d k) v).dies[d]? = some y ∧ k ∈ y.pumpsOut))

/-- R235, R238, R242: a die's TLB serves a miss from what it holds, else with the leaf of a walk, which it keeps; a walk ends at the
first descriptor that is not valid, else is malformed, and an address whose PASID has no root is not present. At the leaf, the
first check that fails of privilege, execution, writing and copy on write is the one reported. -/
def Sys2Proof.Spec.TranslationWalks : Prop :=
  (∀ (s : State) (d : Nat) (x : Die) (p : BitVec 20) (va : Nat), s.dies[d]? = some x →
    (∀ e, tlbFind x.tlb p va = some e → exec (.tlbMissWalk d p va) s = .next s) ∧
    (tlbFind x.tlb p va = none → ∃ t y, exec (.tlbMissWalk d p va) s = .next t ∧ t.mem = s.mem ∧ t.herds = s.herds ∧
      t.dies[d]? = some y ∧
      (∀ e, (s.walk x.walks p va).leaf = .ok e → y.tlb = (e :: x.tlb).take 32768) ∧
      (∀ k, (s.walk x.walks p va).leaf = .error k → y.tlb = x.tlb))) ∧
  (∀ (s : State) (d : Nat) (p : BitVec 20) (va : Nat), s.dies.length ≤ d → exec (.tlbMissWalk d p va) s = .fault .noSuchUnit) ∧
  (∀ (s : State) (p : BitVec 20) (va : Nat), (∀ r ∈ s.roots, r.pasid ≠ p) → ∀ c, (s.walk c p va).leaf = .error 0) ∧
  (∀ (s : State) (p : BitVec 20) (va k table : Nat),
    let d := s.descAt (table + 16 * vaIndex k va)
    (PD.v d = false → (s.walkFrom [] p va (k + 1) table [] []).leaf = .error 0) ∧
    (PD.v d = true → PD.t d = true → tableMalformed k d = true → (s.walkFrom [] p va (k + 1) table [] []).leaf = .error 5) ∧
    (PD.v d = true → PD.t d = true → tableMalformed k d = false →
      (s.walkFrom [] p va (k + 1) table [] []).leaf = (s.walkFrom [] p va k (PD.frame d) [] []).leaf) ∧
    (PD.v d = true → PD.t d = false → s.leafMalformed k d = true → (s.walkFrom [] p va (k + 1) table [] []).leaf = .error 5) ∧
    (PD.v d = true → PD.t d = false → s.leafMalformed k d = false → ∃ e n, pageSize (PD.sz d) = some n ∧
      (s.walkFrom [] p va (k + 1) table [] []).leaf = .ok e ∧ e.pasid = p ∧ e.size = n ∧ e.base = va / n * n ∧ e.dw0 = d.dw0)) ∧
  (∀ (s : State) (p : BitVec 20) (va : Nat) (e : TlbEntry) (i : Intent),
    let kind (k : Nat) : Prop := s.throughLeaf p va i (.ok e) = (s, .kind k)
    (i.user = true → wbit e.dw0 7 = false → kind 2) ∧
    (i.fetch = true → (i.user = false ∨ wbit e.dw0 7 = true) → wbit e.dw0 8 = false → kind 3) ∧
    (i.write = true → (i.user = false ∨ wbit e.dw0 7 = true) → (i.fetch = false ∨ wbit e.dw0 8 = true) →
      (wbit e.dw0 6 = false → kind 1) ∧
      (wbit e.dw0 6 = true → ∀ n, e.count = some n → 1 < n → kind 4)) ∧
    ((i.user = false ∨ wbit e.dw0 7 = true) → (i.fetch = false ∨ wbit e.dw0 8 = true) → i.write = false → wbit e.dw0 11 = false →
      s.throughLeaf p va i (.ok e) = (s, .loc (Word.fieldAt e.dw0 43 16 * 4096 + (va - e.base)) false)))

/-- R234, R244, R245: a pop takes the frame on top of its list, or of the lowest well that has one, into xfres; a push writes the link
into the frame and puts it on top; an operation that fails changes no list and leaves xfres 0 in bit 0. A write of xdsp begins a
change once no other is in progress on the die; one that changes nothing lets its core go on. What was written is what xdsp reads, and
values above 8 act as 8. -/
def Sys2Proof.Spec.PageListsAndWays : Prop :=
  (∀ (s : State) (h c : Nat) (x : Core) (r : FreeReq), s.Has h c x → x.freeReq = some r → s.oldHas h c Core.hasFreeReq = false →
    (r.push = false → ∀ d, s.dies[r.die]? = some d →
      ((r.sz ≤ 8 ∧ r.any = false ∧ d.frames r.well r.sz = []) ∨ 8 < r.sz ∨ (r.any = true ∧ ∀ w, w < 1024 → d.frames w r.sz = []) →
        exec (.freePagePop h c) s = .next (s.modCore h c fun y => { y with freeReq := none, x := { y.x with xfres := 0 } })) ∧
      (∀ w f fs, r.sz ≤ 8 → d.frames w r.sz = f :: fs → (r.any = false ∧ w = r.well ∨
          r.any = true ∧ w < 1024 ∧ ∀ v, v < w → d.frames v r.sz = []) →
        ∃ t y e, exec (.freePagePop h c) s = .next t ∧ t.mem = s.mem ∧ t.dies[r.die]? = some e ∧ e.frames w r.sz = fs ∧
          (∀ v z, (v, z) ≠ (w, r.sz) → e.frames v z = d.frames v z) ∧ t.Has h c y ∧ y.freeReq = none ∧
          y.x.xfres = .ofNat 64 (1 + f / 4096 % 2 ^ 28 * 4096))) ∧
    (r.push = true → let a := r.frame * 4096
      (frameOk a r.sz = false → ∃ t y, exec (.freePagePush h c) s = .next t ∧ t.dies = s.dies ∧ t.mem = s.mem ∧ t.Has h c y ∧
        y.freeReq = none ∧ y.x.xfres.getLsbD 0 = false) ∧
      (frameOk a r.sz = true → ∀ d, s.dies[s.logDie (paDie a)]? = some d → ∃ t y e, exec (.freePagePush h c) s = .next t ∧
        t.dies[s.logDie (paDie a)]? = some e ∧ e.frames (paWell a) r.sz = a :: d.frames (paWell a) r.sz ∧
        (∀ v z, (v, z) ≠ (paWell a, r.sz) → e.frames v z = d.frames v z) ∧ t.Has h c y ∧ y.freeReq = none ∧
        y.x.xfres = .ofNat 64 (1 + a / 4096 % 2 ^ 28 * 4096) ∧
        t.mem = (s.writeLoc a (leBytes 8 (match d.frames (paWell a) r.sz with
          | [] => 0
          | f :: _ => f / 4096 * 4096 + 1))).mem))) ∧
  (∀ (s : State) (h c : Nat) (x : Core) (d : Die) (n : Nat), s.Has h c x → s.oldHas h c Core.inXdsp = false →
    x.block = some (.xdsp n false) → s.dies[h / 16]? = some d →
    (d.change.isSome → exec (.xdspWrite h c) s = .next s) ∧
    (d.change = none → d.ways = min n 8 → exec (.xdspWrite h c) s =
      .next ((s.modDie (h / 16) fun e => { e with waysSet := n }).modCore h c fun y => { y with block := none, issueAt := s.now + 1 })) ∧
    (d.change = none → d.ways ≠ min n 8 → ∃ t y e, exec (.xdspWrite h c) s = .next t ∧ t.mem = s.mem ∧ t.dies[h / 16]? = some e ∧
      e.change = some ⟨min n 8, some (h, c)⟩ ∧ e.ways = d.ways ∧ e.waysSet = n ∧ t.Has h c y ∧ y.block = some (.xdsp n true)))

namespace Sys2Proof.Spec

/-- Whether a fill loses the beat that lies at a location: its line holds an uncorrectable error (R347). -/
def lost (s : State) (a : Nat) : Bool := (s.marks.find? fun e => e.row = a / 64 * 4).map ErrMark.kind == some .double

/-- A fill that has read on to a byte of its image: what the banks hold, with zeros for a beat that is lost (R328, R347). -/
def readTo (s : State) (die well off : Nat) (f : Fill) (k : Nat) : Fill :=
  let at_ (i : Nat) : Nat := s.wellBase die well + off + i
  { beats := decide ((off + k) / 2 ^ 13 = (off + f.got.length) / 2 ^ 13)
    got := f.got ++ (List.range (k - f.got.length)).map fun i =>
      if lost s (at_ (f.got.length + i)) then 0 else s.bankByte (at_ (f.got.length + i))
    bad := f.bad ++ (List.range (k / 64)).filter fun j => decide (f.got.length / 64 ≤ j) && lost s (at_ (64 * j)) }

/-- A column's buffers after vector t of a wfeed from a stream whose bytes are these, a chunk of 64 for each column or one for all. -/
def injected (x : Rect) (rect : WellRect) (bcast : Bool) (slot t : Nat) (bs : List Byte) : Rect :=
  { x with bufs := x.bufs.zipIdx.map fun b =>
      if rect.rcol.toNat ≤ b.2 ∧ b.2 ≤ rect.rcol.toNat + rect.ncm1.toNat then
        b.1.set (slot + t) (wa16 (codesOf 16 ((bs.drop (if bcast then 0 else 64 * (b.2 - rect.rcol.toNat))).take 64)))
      else b.1 }

end Sys2Proof.Spec

/-- R286, R327, R328, R330 to R339, R344, R347: a fill opens its row when the bank is not in refresh, and reads its image's beats, in
order, from the banks, once the well fills no other latch; while it fills the other, a row of another bank opens early, and a fill in the
same bank waits. The latch holds the bytes that the banks held, or weights of zero where a beat that holds weights or checks is lost. A
refresh closes its bank's row for 200 ck. The first arrival of a wfeed waits for the fills of the latches that it uses, and reports and
clears their error records; with a vector's first row the vector goes from its stream into the columns' buffers; each arrival goes into
the slot of its vector and row, upon the partial sums of its part where it has one. -/
def Obligations.WellFillsAndArrivals : Prop :=
  (∀ (s : State) (die well : Nat) (li : Bool) (d : Die) (x : Rect) (r c : Nat) (l : Latch) (f : Fill),
    s.fillOf die well li = some (x, r, c, l, f) → s.dies[die]? = some d →
    let p := bankRow (l.off.getD 0 + f.got.length)
    let m := (x.well r c).latch (!li)
    let begun (b : Nat) : Prop := ∃ g, m.fill = some g ∧ (g.beats = true ∨ g.got ≠ []) ∧ (bankRow (m.off.getD 0 + g.got.length)).1 = b
    (f.beats = false → d.refreshing well p.1 s.now = false → (∀ b, ¬ begun b) → ∃ t e,
      exec (.fillRowActivation die well li) s = .next t ∧ t.mem = s.mem ∧ t.dies[die]? = some e ∧ ⟨well, p.1, p.2⟩ ∈ e.openRows ∧
      (∀ o ∈ e.openRows, o.well = well → o.bank = p.1 → o.row = p.2) ∧ t = (s.putRect (x.putFill r c li { f with beats := true })).modDie die
        fun d => d.openRow well p.1 p.2) ∧
    (f.beats = false → d.refreshing well p.1 s.now = false → (∃ b, b ≠ p.1 ∧ begun b) →
      exec (.fillRowActivation die well li) s = .next (s.modDie die fun d => d.openRow well p.1 p.2)) ∧
    (f.beats = true ∨ d.refreshing well p.1 s.now = true ∨ begun p.1 → exec (.fillRowActivation die well li) s = .next s) ∧
    (f.beats = false → exec (.fillComplete die well li) s = .next s) ∧
    (f.beats = true → ∀ o, l.off = some o → o % 64 = 0 → s.wellBase die well % 64 = 0 → f.got.length % 64 = 0 →
      let total := imageBytes l.fmt l.tr
      let rowEnd := ((o + f.got.length) / 2 ^ 13 + 1) * 2 ^ 13 - o
      ∃ t, exec (.fillComplete die well li) s = .next t ∧ t.mem = s.mem ∧
        (total ≤ f.got.length →
          t.rects = (s.putRect (x.modWell r c fun w => w.setLatch li (l.filled f))).rects) ∧
        (f.got.length < total → total ≤ rowEnd →
          t.rects = (s.putRect (x.modWell r c fun w => w.setLatch li (l.filled (Spec.readTo s die well o f total)))).rects) ∧
        (f.got.length < total → rowEnd < total → t.rects = (s.putRect (x.putFill r c li (Spec.readTo s die well o f rowEnd))).rects))) ∧
  (∀ (s : State) (die well : Nat) (li : Bool), s.fillOf die well li = none →
    exec (.fillRowActivation die well li) s = .next s ∧ exec (.fillComplete die well li) s = .next s) ∧
  (∀ (l : Latch) (f : Fill), ((∃ i ∈ f.bad, i < tileBeats l.fmt) → (l.filled f).zeroed = 1 ∧
      (l.filled f).image = if l.fmt = .ql4 then .replicate 512 0x77 else []) ∧
    (l.filled f).fill = none ∧ (l.filled f).fmt = l.fmt ∧ (l.filled f).tr = l.tr ∧ (l.filled f).off = l.off ∧
    ((∀ i ∈ f.bad, tileBeats l.fmt ≤ i) → (l.filled f).zeroed = 0 ∧ (l.filled f).image.length = f.got.length ∧
      (∀ j, j < f.got.length → ((∃ i ∈ f.bad, j = 64 * i + 9 ∨ j = 64 * i + 25 ∨ j = 64 * i + 41 ∨ j = 64 * i + 57) →
        (l.filled f).image[j]? = some 1) ∧
        ((∀ i ∈ f.bad, j ≠ 64 * i + 9 ∧ j ≠ 64 * i + 25 ∧ j ≠ 64 * i + 41 ∧ j ≠ 64 * i + 57) →
          (l.filled f).image[j]? = f.got[j]?)))) ∧
  (∀ (s : State) (die well bank : Nat) (d : Die), s.dies[die]? = some d → well < 1024 → bank < 16 →
    (d.refreshing well bank s.now = true → exec (.bankRefresh die well bank) s = .next s) ∧
    (d.refreshing well bank s.now = false → ∃ t e, exec (.bankRefresh die well bank) s = .next t ∧ t.mem = s.mem ∧
      t.dies[die]? = some e ∧ (∀ o ∈ e.openRows, ¬ (o.well = well ∧ o.bank = bank)) ∧
      (∀ k, e.refreshing well bank k = true ↔ k < s.now + 200))) ∧
  (∀ (s : State) (h : Nat) (y : Core) (x : Rect) (e : Entry) (g : Run), s.Has h 0 y → s.oldHas h 0 Core.feeds = false →
    s.rect? h = some x → y.head .well = some e → e.run = some g →
    ∀ k rect src slot n part, e.word = .wfeed k rect src slot n part →
    let rows := rect.rows.nrm1.toNat + 1
    let used := x.actives (x.used e.word)
    let filling : Prop := ∃ p ∈ used, ((x.well p.1 p.2.1).latch p.2.2).fill ≠ none
    (g.stop = true ∨ (n.toNat + 1) * rows ≤ g.pos ∨ s.wellRingsHeld h 0 y e.word = true ∨ (g.pos = 0 ∧ filling) →
      exec (.cisternArrival h) s = .next s) ∧
    (g.stop = false → g.pos < (n.toNat + 1) * rows → s.wellRingsHeld h 0 y e.word = false → ¬ (g.pos = 0 ∧ filling) → s.marks = [] →
      s.misses = [] →
      let row := g.pos % rows
      let vec := g.pos / rows
      let told := if g.pos = 0 then x.report used else (x, 0, 0)
      let fed : Rect := match src with
        | .stream q b => if row = 0 then
            let chunks := if b then 1 else rect.ncm1.toNat + 1
            Spec.injected told.1 rect b slot.toNat vec (s.ringRead h 0 (streamOf e.img1)
              ((streamOf (y.gq q)).head.toNat + 64 * chunks * vec) (64 * chunks)).2.1
          else told.1
        | _ => told.1
      let sums : Option (List EP128) := part.map fun q =>
        (codesOf 256 (s.ringRead h 0 (streamOf (if (feedStream e.word).isSome then e.img2 else e.img1))
          ((streamOf (y.gq q)).head.toNat + 1024 * g.pos) 1024).2.1).map EP128.ofImage
      ∃ t z, exec (.cisternArrival h) s = .next t ∧ t.rects = (s.putRect z).rects ∧ t.mem = s.mem ∧
        z = (fed.arrive (rect.rows.rrow.toNat + row) rect.rcol.toNat (rect.ncm1.toNat + 1) (slot.toNat + vec) sums).1 ∧
        ((t.core? h 0).bind fun w => (w.head .well).bind Entry.run).map (fun k => (k.pos, k.poisoned)) =
          some (g.pos + 1, g.poisoned + told.2.2))) ∧
  (∀ (x : Rect) (ws : List (Nat × Nat × Bool)), ws.Nodup →
    let latch (y : Rect) (p : Nat × Nat × Bool) : Latch := (y.well p.1 p.2.1).latch p.2.2
    (x.report ws).2 = ((ws.map fun p => (latch x p).zeroed).sum, (ws.map fun p => (latch x p).poison).sum) ∧
    (∀ p ∈ ws, latch (x.report ws).1 p = { latch x p with zeroed := 0, poison := 0 }) ∧
    (∀ p, p ∉ ws → latch (x.report ws).1 p = latch x p) ∧ (x.report ws).1.bufs = x.bufs ∧ (x.report ws).1.slots = x.slots) ∧
  (∀ (k : CSlot) (ql mix rdb : Bool) (ch : Chain) (hs : List Latch),
    let z := k.combine ql mix rdb ch hs
    (z.taint = true ↔ k.taint = true ∨ ch.c ≠ ch.u) ∧ z.ql4 = some (k.ql4.getD ql) ∧
    (z.undef = true ↔ k.undef = true ∨ mix = true ∨ k.ql4 = some (!ql)) ∧
    (z.nan = true ↔ ch.bad = true ∨ (rdb = false ∧ k.nan = true)))

/-! ## Health, notices, reports and resets -/

/-- R331, R396, R402, R434, R438, R439, R441, R443, R445, R446: a sample moves each zone at most one state, but to emergency at once, and
logs each change with its zone, states and temperature; the allowance falls by one where the module's power over its last 1,048,576 ck
averages above 6.0 kW, rises by one below 5.7 kW, and is 7 while the inlet is above 45 degrees. The average of a shorter history is that
of the samples there are (log 62). Budgets are the least of the zone's cap, the allowance and 15. Notices of an emergency reach their cores
one by one and end a wait. -/
def Sys2Proof.Spec.HeatAndNotices : Prop :=
  (∀ t st, st ≤ 3 →
    (105 < t → nextZone t st = 3) ∧
    (t ≤ 105 → nextZone t st = match st with
      | 0 => if 85 < t then 1 else 0
      | 1 => if 95 < t then 2 else if t ≤ 82 then 0 else 1
      | 2 => if t ≤ 92 then 1 else 2
      | _ => if t ≤ 100 then 2 else 3)) ∧
  (∀ (s : State) (x : Sample) (d z v : Nat) (e : Die) (k : Zone), s.powered = true → s.dies.length = 8 → s.dies[d]? = some e →
    e.zones[z]? = some k → z < 16 → (∃ ts, x.temps[d]? = some ts ∧ ts[z]? = some v) → ∃ t f, exec (.sensorSample x) s = .next t ∧
      t.mem = s.mem ∧ t.dies[d]? = some f ∧ f.zones[z]? = some ⟨v, nextZone v k.state⟩ ∧ f.budgets = e.budgets ∧
      (nextZone v k.state = 3 → k.state ≠ 3 → z ∈ f.stops) ∧
      (∀ y, s.herds[16 * d + z]? = some y → ∃ w, t.herds[16 * d + z]? = some w ∧
        w.hot = (if nextZone v k.state = 0 then 0 else y.hot + 1) ∧ w.act = y.act) ∧
      (nextZone v k.state ≠ k.state → ∃ g ∈ t.log, g.kind = 6 ∧ g.die = d ∧ g.qid = 0xFFF ∧
        g.w1 = .ofNat 64 (z + 2 ^ 4 * k.state + 2 ^ 6 * nextZone v k.state + 2 ^ 8 * min v 255)) ∧
      t.tahr.power = (x.power :: s.tahr.power).take 1024 ∧
      let ps := (x.power :: s.tahr.power).take 1024
      t.tahr.allow = (if 45 < x.inlet then 7 else if 6000000 * ps.length < ps.sum then s.tahr.allow - 1
        else if ps.sum < 5700000 * ps.length then min 15 (s.tahr.allow + 1) else s.tahr.allow)) ∧
  (∀ (s : State) (x : Sample), s.powered = true → (∀ (d z : Nat) (e : Die) (k : Zone) (ts : List Nat) (v : Nat), s.dies[d]? = some e →
    e.zones[z]? = some k → x.temps[d]? = some ts → ts[z]? = some v → nextZone v k.state = k.state) →
    ∃ t, exec (.sensorSample x) s = .next t ∧ t.log = s.log ∧ t.logged = s.logged) ∧
  (∀ (s : State) (d : Nat) (e : Die), s.powered = true → s.dies[d]? = some e → exec (.xthermUpdate d) s =
    .next (s.modDie d fun _ =>
      { e with budgets := e.zones.map (fun z => min (min ([15, 7, 3].getD z.state 0) s.tahr.allow) 15) })) ∧
  (∀ (s : State) (h c : Nat) (x : Core) (n : BitVec 16), s.Has h c x →
    ((h, c, n) ∉ s.tahr.notices ∨ x.swapped = true → exec (.noticePost h c n) s = .next s) ∧
    ((h, c, n) ∈ s.tahr.notices → x.swapped = false → x.isLive = true → ∃ t y, exec (.noticePost h c n) s = .next t ∧ t.Has h c y ∧
      y.x.np = true ∧ y.x.ncode = n ∧ (x.block ≠ some .notice → y = { x with x := { x.x with np := true, ncode := n } }) ∧
      (x.block = some .notice → y.block = none ∧ (x.loop = none → y.pc = x.pc + 4)) ∧ t.mem = s.mem))

/-- R179, R181, R182, R271, R443: the stop that follows a zone's entry into emergency comes while the herds take signals, and posts notice
3 to the cores of the zone's herd. The Running entry of an engine of that herd completes with thermal_abort: its queue goes on, and its
token takes the negated status. The clause takes an entry with no completion action that runs alone in the part. -/
def Sys2Proof.Spec.ThermalStops : Prop :=
  (∀ (s : State) (d z : Nat) (e : Die), s.dies[d]? = some e →
    (z ∉ e.stops ∨ s.allOpen = false → exec (.thermalEmergencyStop d z) s = .next s) ∧
    (z ∈ e.stops → s.allOpen = true → ∃ t f, exec (.thermalEmergencyStop d z) s = .next t ∧ t.dies[d]? = some f ∧ z ∉ f.stops ∧
      (∀ c, c < 8 → (16 * d + z, c, 3#16) ∈ t.tahr.notices))) ∧
  (∀ (s : State), s.allOpen = true ↔ ∀ y ∈ s.herds, ∀ x, (x = y.act ∨ y.old = some x) →
    x.turn.ck ≠ s.now ∨ (x.turn.granted = false ∧ x.turn.sigs = [])) ∧
  (∀ (s : State) (d z c : Nat) (p : Die) (g : Engine) (x : Core) (e : Entry) (r : Run), s.dies[d]? = some p → z ∈ p.stops →
    s.allOpen = true → s.Has (16 * d + z) c x → c < 8 → (∀ y ∈ s.herds, y.old = none) → x.head g = some e → e.run = some r →
    r.final = .ok → e.hdr.bar = none → e.hdr.scnt = 0 → x.cancelRd = [] → (∀ f ∈ (x.queue g).drop 1, f.run = none) →
    (g = .pump → (pumpJob x e).isSome) → (g = .coll → (collOf e.word).isSome) →
    (∀ i j w k f, s.Has i j w → w.head k = some f → f.run.isSome → i = 16 * d + z ∧ j = c ∧ k = g) →
    (∀ n ∈ s.nodes, n.2.2.copying = false) →
    ∃ t w, exec (.thermalEmergencyStop d z) s = .next t ∧ t.Has (16 * d + z) c w ∧ w.last = x.last.set (engineCode g) .thermalAbort ∧
      (w.queue g).map (·.seq) = ((x.queue g).drop 1).map (·.seq) ∧
      (∀ k, tokenOf e.word = some k → k ≠ 0 → k.toNat < x.s.length → w.gs k = -(11#64)) ∧
      (g = .matrix → (∀ hd acc ob kd sat off, e.word ≠ .mst hd acc ob kd sat off) → t.mem = s.mem))

/-- R150, R397, R405, R406, R434: firmware accepts a report: one entry of kind 1 in the log, the message of the queue's vector, and the core goes
on, or, with end = 1, ends. -/
def Sys2Proof.Spec.ReportsArePosted : Prop :=
  ∀ (s : State) (h c : Nat) (x : HerdCtx) (y : Core) (code : BitVec 16) (ends : Bool) (cause epc tval : Word) (n : Held) (l : Launch)
    (q : Queue), s.ctx? h = some x → s.Has h c y → y.block = some (.report code ends cause epc tval) → x.held = some n →
    s.launch? n.lseq = some l → s.queue? l.qid = some q → (∀ b, s.oldHas h c (Core.reports · b) = false) →
    (ends = true → exec (.reportPost h c) s = .next s) ∧ (ends = false → exec (.reportPostEnd h c) s = .next s) ∧
    ∃ t z e, (ends = false → exec (.reportPost h c) s = .next t) ∧ (ends = true → exec (.reportPostEnd h c) s = .next t) ∧
      t.mem = s.mem ∧ t.Has h c z ∧ t.log = (e :: s.log).take 4096 ∧ t.logged = s.logged + 1 ∧ e.kind = 1 ∧ e.die = h / 16 ∧ e.qid = l.qid ∧ e.w2 = epc ∧ e.w3 = tval ∧
      e.w1.extractLsb' 0 16 = code ∧ e.w1.extractLsb' 16 17 = cause.extractLsb' 0 17 ∧
      e.w1.extractLsb' 33 10 = .ofNat 10 (8 * n.grank + c) ∧
      t.tahr.msix = s.tahr.msix ++ (if q.vector = 0 then [] else [q.vector]) ∧
      (ends = false → z.block = none ∧ z.front = y.front ∧ z.pc = y.pc) ∧ (ends = true → z.block = none ∧ z.front = .halted)

/-- R8, R20, R50, R77, R100, R441, R447: what a reset leaves. At power-on and at a fundamental reset there is no queue, launch or log entry, nothing
is ready, every herd is in service with all its scratchpad, and every budget is 15; without main power nothing acts. -/
def Sys2Proof.Spec.ResetLevels : Prop :=
  (∀ s : State, ∃ t, exec .powerOnReset s = .next t ∧
    t.tahr.ready = false ∧ t.tahr.fatal = false ∧ t.tahr.patched = false ∧ t.tahr.mqbase = 0 ∧ t.tahr.mqtail = 0 ∧ t.tahr.mqhead = 0 ∧
    t.tahr.w2base = 0 ∧ t.tahr.queues = [] ∧ t.tahr.launches = [] ∧ t.tahr.lseq = 0 ∧ t.tahr.patches = [] ∧ t.log = [] ∧ t.logged = 0 ∧
    t.counters = [] ∧ t.roots = [] ∧ t.powered = true ∧ t.herds.length = 128 ∧ t.dies.length = 8 ∧
    (∀ x ∈ t.herds, x.act.held = none ∧ x.old = none ∧ x.retired = false ∧ x.mstate = 0 ∧ x.capacity = 2 ^ 20 ∧ x.tlb = []) ∧
    (∀ d ∈ t.dies, d.ways = 0 ∧ d.change = none ∧ d.budgets = .replicate 16 15 ∧ d.pumpsOut = [] ∧ d.wellsOut = []) ∧
    (s.powered = true → exec .fundamentalReset s = .next t) ∧
    exec .mainPowerLoss s = .next ({ t with powered := false } : State) ∧ exec .fundamentalReset ({ t with powered := false } : State) = .next { t with powered := false }) ∧
  (State.reset.tahr.ready = false ∧ State.reset.tahr.queues = [] ∧ State.reset.tahr.launches = [] ∧ State.reset.log = [] ∧
    State.reset.herds = .replicate 128 .idle ∧ State.reset.dies = .replicate 8 .idle ∧ State.reset.mem.cells = [])

/-- R50, R234, R441, R447, R448: a function-level reset discards queues, launches, running work, patches and the registers of BAR0, errlog among
them, empties the die scratchpads, and keeps the error log itself and the retirements' record; afterwards bring-up makes the part ready
again with no die scratchpad, or fatal. Whatever ran, no herd holds work afterwards, and nothing translates or waits. The die map is one
of the two of R8, and a function-level reset leaves it. An error may stop a Tahr that is ready: fatal is 1, and that ready is 0 then is the
model's choice (log 75). -/
def Sys2Proof.Spec.FunctionLevelReset : Prop :=
  (∀ s : State, s.powered = true → s.tahr.launches = [] → ∃ t, exec .functionLevelReset s = .next t ∧
    t.tahr.ready = false ∧ t.tahr.queues = [] ∧ t.tahr.launches = [] ∧ t.tahr.patches = [] ∧ t.tahr.mqbase = 0 ∧ t.tahr.mqtail = 0 ∧
    t.tahr.mqhead = 0 ∧ t.tahr.w2base = 0 ∧ t.counters = s.counters ∧ t.log = s.log ∧ t.logged = 0 ∧ t.dirty = [] ∧
    (∀ x ∈ t.herds, x.act.held = none ∧ x.old = none) ∧
    (∀ (h : Nat) x, s.herds[h]? = some x → ∃ y, t.herds[h]? = some y ∧ y.retired = x.retired ∧ y.mstate = x.mstate) ∧
    (∀ (d : Nat) x, s.dies[d]? = some x → ∃ y, t.dies[d]? = some y ∧ y.pumpsOut = x.pumpsOut ∧ y.wellsOut = x.wellsOut ∧
      y.budgets = .replicate 16 15) ∧
    (∀ a, t.mem.byte a = if isDsp a then 0 else s.mem.byte a) ∧
    ∀ b, ∃ u, exec (.bringUpComplete (.ready b)) t = .next u ∧ u.tahr.ready = true ∧ u.dieMap = s.dieMap ∧ (∀ d ∈ u.dies, d.ways = 0)) ∧
  (∀ s : State, s.powered = true → ∃ t, exec .functionLevelReset s = .next t ∧
    t.tahr.ready = false ∧ t.tahr.queues = [] ∧ t.tahr.launches = [] ∧ t.tahr.patches = [] ∧ t.tahr.mqbase = 0 ∧ t.tahr.mqtail = 0 ∧
    t.tahr.mqhead = 0 ∧ t.tahr.w2base = 0 ∧ t.tahr.mgmt = none ∧ t.tahr.notices = [] ∧ t.logged = 0 ∧ t.dirty = [] ∧ t.rects = [] ∧
    t.roots = [] ∧ t.pages = [] ∧ (∀ x ∈ t.herds, x.act = .idle ∧ x.old = none ∧ x.evict = none ∧ x.spill = none ∧ x.tlb = []) ∧
    (∀ d ∈ t.dies, d.change = none ∧ d.stops = [] ∧ d.tlb = [] ∧ d.walks = [] ∧ d.openRows = []) ∧
    (∀ a, isDsp a = true → t.mem.byte a = 0) ∧ ∀ e ∈ t.marks, isDsp (e.row * 16) = false) ∧
  (∀ (s : State), s.powered = true → s.tahr.ready = false → s.tahr.fatal = false →
    (s.tahr.warm = false → ∀ b, ∃ t, exec (.bringUpComplete (.ready b)) s = .next t ∧ t.tahr.ready = true ∧ (∀ d ∈ t.dies, d.ways = 0) ∧
      t.dieMap = (if b then [4, 5, 6, 7, 0, 1, 2, 3] else [0, 1, 2, 3, 4, 5, 6, 7]) ∧ t.mem = s.mem) ∧
    exec (.bringUpComplete .fatal) s = .next { s with tahr := { s.tahr with fatal := true } }) ∧
  (∀ (s : State) r, (s.powered = false ∨ s.tahr.ready = true ∨ s.tahr.fatal = true) → exec (.bringUpComplete r) s = .next s) ∧
  (∀ s : State, s.powered = true → s.choose .tahrFails = { s with tahr := { s.tahr with ready := false, fatal := true } })

/-- R447, R448: the three resets, the loss of power, and bring-up. -/
def Obligations.PowerAndResets : Prop := Spec.ResetLevels ∧ Spec.FunctionLevelReset

/-- R396, R406, R438 to R443: heat, notices and reports. -/
def Obligations.HeatNoticesAndReports : Prop := Spec.HeatAndNotices ∧ Spec.ThermalStops ∧ Spec.ReportsArePosted

/-- R235 to R243: walks, the checks of a leaf, and invalidation. -/
def Obligations.TranslationAndInvalidation : Prop := Spec.TlbInvalidation ∧ Spec.TranslationWalks

/-- R234, R244 to R246: free-page lists, shared pages, and the ways of die scratchpads. -/
def Obligations.PagesAndWays : Prop := Spec.SharedPageDecrement ∧ Spec.PageListsAndWays

/-! ## The whole machine -/

namespace Sys2Proof.Spec

/-- The part has the units that a row of the opcode table acts on: a word acts on the core that executes. -/
def Named (s : State) : Instr → Prop
  | .vloopBodyIssue h c | .scalarResultLanding h c _ | .vectorResultLanding h c | .storePerform h c _ | .accessQueueEntryPerform h c _
  | .parityUpdate h c _ _ | .bankRebuild h c _ | .xdspWrite h c | .freePagePop h c | .freePagePush h c | .zeroFill h c
  | .reportPost h c | .reportPostEnd h c | .engineEntryStart h c _ | .engineEntryCompletion h c _ | .collectiveStart h c
  | .pumpCancelAck h c | .barrierWaiterWake h c | .shortBarrierWake h c | .spinwWake h c | .trapEntry h c | .registerMiss h c _
  | .noticePost h c _ | .contextSwap h c | .tlbInvalidationComplete h c => s.core? h c ≠ none
  | .cisternArrival h => s.core? h 0 ≠ none
  | .branchResolution h | .semaphoreGrant h _ | .herdQuiescence h | .contextSpillComplete h | .contextRestore h => h < s.herds.length
  | .nodeDispatch d | .tlbMissWalk d _ _ | .dspChangeComplete d | .xthermUpdate d => d < s.dies.length
  | .unitRetirement u => s.hasUnit u = true
  | .qtailWrite _ _ | .mqtailWrite _ | .registerWrite _ _ _ | .bar2Access _ | .atsInvalidation _ _ _ | .pageRequestResponse _ _ _
  | .launchPacket _ | .copyPacket _ | .waitPacket _ | .signalPacket _ | .modePacket _ | .fencePacket _ | .waitSatisfied _
  | .fencePacketComplete _ | .poolRoomAdmit _ | .mapq | .unmapq | .qreset | .pasidBind | .pasidRetire | .preempt | .resync | .attest
  | .patch | .dsp | .slotGrant | .slotIdleRelease _ | .forcedUnmapping | .queueContextSaved _ | .reservingClaim | .levelAging _ _
  | .nodeTriggerFire _ _ | .graphTriggerFire _ | .nodeRetirement _ _ | .copyNodeRetirement _ _ | .graphRetirement _
  | .nodeRotation _ _ | .leaseGrant _ | .leaseEnd _ | .fillRowActivation _ _ _ | .fillComplete _ _ _ | .bankRefresh _ _ _
  | .hostBarrierPoll _ | .sensorSample _ | .thermalEmergencyStop _ _ | .remoteAccessReceived _ _ | .peerPortDown _ | .peerPortUp _
  | .powerOnReset | .fundamentalReset | .functionLevelReset | .bringUpComplete _ | .mainPowerLoss => True
  | _ => s.core? s.cur.1 s.cur.2 ≠ none

end Sys2Proof.Spec

/-- Nothing stops: every row of the opcode table answers a next state wherever the part has the units that it names, whatever the
operands and the rest of the state are, and where it does not, no such step exists. -/
def Obligations.EveryRowGoesOn : Prop :=
  ∀ (i : Instr) (s : State), (Spec.Named s i → ∃ t, exec i s = .next t) ∧ (¬ Spec.Named s i → exec i s = .fault .noSuchUnit)

/-- R246, R253, R274, R358, R375, R378: issuing a word changes no byte of memory, with four exceptions: barr and pbarr arrive, pgdec
decrements, and pcancel leaves bytes undefined that the entries which it cancels were to produce. Stores and atomics write when their entry
performs, vector stores when their result lands, and engines when they run. -/
def Obligations.WordsLeaveMemory : Prop :=
  ∀ (i : Instr) (s t : State), encode i ≠ [] → (∀ rd b rs2, i ≠ .barr rd b rs2 ∧ i ≠ .pbarr rd b rs2) → (∀ b rs2, i ≠ .pgdec b rs2) →
    (∀ rd rs1, i ≠ .pcancel rd rs1) → exec i s = .next t → t.mem = s.mem

/-- A context with nothing said of the words that its cores wait in. -/
def Sys2Proof.Spec.awaiting (x : HerdCtx) : HerdCtx := { x with cores := x.cores.map fun c => { c with block := none } }

/-- R11, R154, R187, R372: a word acts on the core that issues it: no context of another herd changes, but that an arrival wakes those that
wait for it, and no other core of its herd changes in a register, a queue or a trap register, nor does the word that the herd's other
cores are at change their privilege. -/
def Obligations.WordsActOnTheirCore : Prop :=
  ∀ (i : Instr) (s t : State), encode i ≠ [] → exec i s = .next t →
    (∀ h, h ≠ s.cur.1 → (t.ctx? h).map Spec.awaiting = (s.ctx? h).map Spec.awaiting ∧
      ((∀ rd b rs2, i ≠ .barr rd b rs2 ∧ i ≠ .pbarr rd b rs2) → t.ctx? h = s.ctx? h) ∧
      (t.herds[h]?).bind Herd.old = (s.herds[h]?).bind Herd.old) ∧
    (∀ c x, c ≠ s.cur.2 → s.core? s.cur.1 c = some x → ∃ y, t.core? s.cur.1 c = some y ∧ y.s = x.s ∧ y.v = x.v ∧ y.p = x.p ∧ y.l = x.l ∧
      y.g = x.g ∧ y.b = x.b ∧ y.q = x.q ∧ y.x = x.x ∧ y.sq = x.sq ∧ y.eq = x.eq ∧ y.aq = x.aq ∧ y.dq = x.dq ∧ y.cs = x.cs ∧
      y.csOvf = x.csOvf ∧ y.loop = x.loop ∧ y.pend = x.pend ∧ y.landings = x.landings ∧ y.vlands = x.vlands ∧ y.last = x.last ∧
      y.details = x.details ∧ y.done = x.done ∧ y.handles = x.handles ∧ y.wrapped = x.wrapped ∧ y.colls = x.colls ∧ y.lapped = x.lapped ∧ y.faulted = x.faulted ∧ y.direct = x.direct ∧
      y.tokens = x.tokens ∧ y.cutN = x.cutN ∧ y.cutG = x.cutG ∧ y.lost = x.lost ∧ y.cancelRd = x.cancelRd ∧ y.absent = x.absent)

/-- R6, R254: memory keeps its one form through every step of the part: its listed locations rise, and no listed byte is what the
location reads as unlisted, so that equal memories are equal data (log 1, log 2). -/
def Obligations.StepKeepsMemoryCanonical : Prop := ∀ (s t : State), s.mem.wf = true → step s = .next t → t.mem.wf = true

/-- R447: the memory after reset has that form, with nothing listed, and every location of device memory, a die scratchpad or a core
scratchpad is undefined: it reads as a free byte (log 1). -/
def Obligations.ResetMemoryIsUndefined : Prop :=
  State.reset.mem.wf = true ∧ State.reset.mem.cells = [] ∧
  ∀ a, isDram a = true ∨ isDsp a = true ∨ isScratch a = true → State.reset.mem.byte a = Config.freeByte 0 a
end

