-- ==== Sys2Proof/Laws/PerInstr.lean ====
section
/-! SUPPORT. Per-instruction statements: the family WordLength says that the class of a word's first granule tells how many
granules the word has (R106), one lemma per constructor. -/

namespace Sys2Proof.Laws.WordLength

/-- The first granule of the encoding, if there is one, names a class whose words have as many granules as the encoding. -/
def Statement (i : Instr) : Prop := ∀ g r, encode i = g :: r → granules g = some (encode i).length

/-- A list of granules that begins with a granule of its own class. -/
def Classed (l : List Granule) : Prop := ∀ g r, l = g :: r → granules g = some l.length

theorem granules_of_class {g : Granule} {c n : Nat} (hc : g.toNat / 2 ^ 30 = c)
    (hn : (c = 0 ∧ n = 1) ∨ (c = 1 ∧ n = 3) ∨ (c = 2 ∧ n = 6)) : granules g = some n := by
  unfold granules
  rcases hn with ⟨rfl, rfl⟩ | ⟨rfl, rfl⟩ | ⟨rfl, rfl⟩ <;> (rw [hc]; rfl)

theorem wordless {l : List Granule} (h : l = []) : Classed l := by
  intro g r e
  simp [h] at e

theorem classed_cons {n c : Nat} {t : List Granule} (hc : n % 2 ^ 32 / 2 ^ 30 = c)
    (ht : (c = 0 ∧ t.length = 0) ∨ (c = 1 ∧ t.length = 2) ∨ (c = 2 ∧ t.length = 5)) : Classed (.ofNat 32 n :: t) := by
  intro g r e
  obtain ⟨rfl, rfl⟩ := List.cons.inj e
  refine granules_of_class (c := c) (by simpa using hc) ?_
  simp only [List.length_cons]
  omega

@[simp] theorem splitGranules_length (n w : Nat) : (splitGranules n w).length = n := by
  induction n generalizing w with
  | zero => rfl
  | succ n ih => simp [splitGranules, ih]

theorem encRR_class (m f d a b : Nat) : Classed (encRR m f d a b) :=
  classed_cons (c := 0) (by simp only [pack]; omega) (by simp)

theorem encRI_class (m d a i : Nat) : Classed (encRI m d a i) :=
  classed_cons (c := 0) (by simp only [pack]; omega) (by simp)

theorem encRW_class (m d i : Nat) : Classed (encRW m d i) :=
  classed_cons (c := 0) (by simp only [pack]; omega) (by simp)

theorem encJ_class (m i : Nat) : Classed (encJ m i) :=
  classed_cons (c := 0) (by simp only [pack]; omega) (by simp)

theorem encLS_class (m s b o : Nat) : Classed (encLS m s b o) :=
  classed_cons (c := 0) (by simp only [pack]; omega) (by simp)

theorem encAT_class (m f s b o : Nat) : Classed (encAT m f s b o) :=
  classed_cons (c := 0) (by simp only [pack]; omega) (by simp)

theorem encK_class (f c s k : Nat) : Classed (encK f c s k) :=
  classed_cons (c := 0) (by simp only [pack]; omega) (by simp)

theorem encX_class (f x d : Nat) : Classed (encX f x d) :=
  classed_cons (c := 0) (by simp only [pack]; omega) (by simp)

theorem encV_class (op : Nat) (h : VHdr) (e d a b : Nat) : Classed (encV op h e d a b) :=
  classed_cons (c := 1) (by simp only [pack]; omega) (by simp)

theorem encE_class (eng op : Nat) (h : EHdr) (p : Nat) : Classed (encE eng op h p) :=
  classed_cons (c := 2) (by simp only [pack]; omega) (by simp)

theorem add : ∀ x0 x1 x2, Statement (.add x0 x1 x2) := fun _ _ _ => encRR_class _ _ _ _ _
theorem sub : ∀ x0 x1 x2, Statement (.sub x0 x1 x2) := fun _ _ _ => encRR_class _ _ _ _ _
theorem and : ∀ x0 x1 x2, Statement (.and x0 x1 x2) := fun _ _ _ => encRR_class _ _ _ _ _
theorem or : ∀ x0 x1 x2, Statement (.or x0 x1 x2) := fun _ _ _ => encRR_class _ _ _ _ _
theorem xor : ∀ x0 x1 x2, Statement (.xor x0 x1 x2) := fun _ _ _ => encRR_class _ _ _ _ _
theorem andn : ∀ x0 x1 x2, Statement (.andn x0 x1 x2) := fun _ _ _ => encRR_class _ _ _ _ _
theorem sll : ∀ x0 x1 x2, Statement (.sll x0 x1 x2) := fun _ _ _ => encRR_class _ _ _ _ _
theorem srl : ∀ x0 x1 x2, Statement (.srl x0 x1 x2) := fun _ _ _ => encRR_class _ _ _ _ _
theorem sra : ∀ x0 x1 x2, Statement (.sra x0 x1 x2) := fun _ _ _ => encRR_class _ _ _ _ _
theorem rol : ∀ x0 x1 x2, Statement (.rol x0 x1 x2) := fun _ _ _ => encRR_class _ _ _ _ _
theorem ror : ∀ x0 x1 x2, Statement (.ror x0 x1 x2) := fun _ _ _ => encRR_class _ _ _ _ _
theorem slt : ∀ x0 x1 x2, Statement (.slt x0 x1 x2) := fun _ _ _ => encRR_class _ _ _ _ _
theorem sltu : ∀ x0 x1 x2, Statement (.sltu x0 x1 x2) := fun _ _ _ => encRR_class _ _ _ _ _
theorem seq : ∀ x0 x1 x2, Statement (.seq x0 x1 x2) := fun _ _ _ => encRR_class _ _ _ _ _
theorem sne : ∀ x0 x1 x2, Statement (.sne x0 x1 x2) := fun _ _ _ => encRR_class _ _ _ _ _
theorem min : ∀ x0 x1 x2, Statement (.min x0 x1 x2) := fun _ _ _ => encRR_class _ _ _ _ _
theorem max : ∀ x0 x1 x2, Statement (.max x0 x1 x2) := fun _ _ _ => encRR_class _ _ _ _ _
theorem minu : ∀ x0 x1 x2, Statement (.minu x0 x1 x2) := fun _ _ _ => encRR_class _ _ _ _ _
theorem maxu : ∀ x0 x1 x2, Statement (.maxu x0 x1 x2) := fun _ _ _ => encRR_class _ _ _ _ _
theorem clz : ∀ x0 x1, Statement (.clz x0 x1) := fun _ _ => encRR_class _ _ _ _ _
theorem ctz : ∀ x0 x1, Statement (.ctz x0 x1) := fun _ _ => encRR_class _ _ _ _ _
theorem popc : ∀ x0 x1, Statement (.popc x0 x1) := fun _ _ => encRR_class _ _ _ _ _
theorem sextB : ∀ x0 x1, Statement (.sextB x0 x1) := fun _ _ => encRR_class _ _ _ _ _
theorem sextH : ∀ x0 x1, Statement (.sextH x0 x1) := fun _ _ => encRR_class _ _ _ _ _
theorem sextW : ∀ x0 x1, Statement (.sextW x0 x1) := fun _ _ => encRR_class _ _ _ _ _
theorem zextB : ∀ x0 x1, Statement (.zextB x0 x1) := fun _ _ => encRR_class _ _ _ _ _
theorem zextH : ∀ x0 x1, Statement (.zextH x0 x1) := fun _ _ => encRR_class _ _ _ _ _
theorem zextW : ∀ x0 x1, Statement (.zextW x0 x1) := fun _ _ => encRR_class _ _ _ _ _
theorem mul : ∀ x0 x1 x2, Statement (.mul x0 x1 x2) := fun _ _ _ => encRR_class _ _ _ _ _
theorem mulh : ∀ x0 x1 x2, Statement (.mulh x0 x1 x2) := fun _ _ _ => encRR_class _ _ _ _ _
theorem mulhu : ∀ x0 x1 x2, Statement (.mulhu x0 x1 x2) := fun _ _ _ => encRR_class _ _ _ _ _
theorem mulhsu : ∀ x0 x1 x2, Statement (.mulhsu x0 x1 x2) := fun _ _ _ => encRR_class _ _ _ _ _
theorem div : ∀ x0 x1 x2, Statement (.div x0 x1 x2) := fun _ _ _ => encRR_class _ _ _ _ _
theorem divu : ∀ x0 x1 x2, Statement (.divu x0 x1 x2) := fun _ _ _ => encRR_class _ _ _ _ _
theorem rem : ∀ x0 x1 x2, Statement (.rem x0 x1 x2) := fun _ _ _ => encRR_class _ _ _ _ _
theorem remu : ∀ x0 x1 x2, Statement (.remu x0 x1 x2) := fun _ _ _ => encRR_class _ _ _ _ _
theorem cvtF64S64 : ∀ x0 x1 x2, Statement (.cvtF64S64 x0 x1 x2) := fun _ _ _ => encRR_class _ _ _ _ _
theorem cvtF32S64 : ∀ x0 x1 x2, Statement (.cvtF32S64 x0 x1 x2) := fun _ _ _ => encRR_class _ _ _ _ _
theorem cvtS64F64 : ∀ x0 x1 x2, Statement (.cvtS64F64 x0 x1 x2) := fun _ _ _ => encRR_class _ _ _ _ _
theorem cvtS64F32 : ∀ x0 x1 x2, Statement (.cvtS64F32 x0 x1 x2) := fun _ _ _ => encRR_class _ _ _ _ _
theorem cvtF64F32 : ∀ x0 x1, Statement (.cvtF64F32 x0 x1) := fun _ _ => encRR_class _ _ _ _ _
theorem cvtF32F64 : ∀ x0 x1 x2, Statement (.cvtF32F64 x0 x1 x2) := fun _ _ _ => encRR_class _ _ _ _ _
theorem cvtF32F16 : ∀ x0 x1, Statement (.cvtF32F16 x0 x1) := fun _ _ => encRR_class _ _ _ _ _
theorem cvtF16F32 : ∀ x0 x1 x2, Statement (.cvtF16F32 x0 x1 x2) := fun _ _ _ => encRR_class _ _ _ _ _
theorem cvtF32Bf16 : ∀ x0 x1, Statement (.cvtF32Bf16 x0 x1) := fun _ _ => encRR_class _ _ _ _ _
theorem cvtBf16F32 : ∀ x0 x1 x2, Statement (.cvtBf16F32 x0 x1 x2) := fun _ _ _ => encRR_class _ _ _ _ _
theorem ptag : ∀ x0 x1 x2, Statement (.ptag x0 x1 x2) := fun _ _ _ => encRR_class _ _ _ _ _
theorem pspace : ∀ x0 x1, Statement (.pspace x0 x1) := fun _ _ => encRR_class _ _ _ _ _
theorem prank : ∀ x0 x1, Statement (.prank x0 x1) := fun _ _ => encRR_class _ _ _ _ _
theorem padd : ∀ x0 x1 x2, Statement (.padd x0 x1 x2) := fun _ _ _ => encRR_class _ _ _ _ _
theorem psub : ∀ x0 x1 x2, Statement (.psub x0 x1 x2) := fun _ _ _ => encRR_class _ _ _ _ _
theorem paddr : ∀ x0 x1, Statement (.paddr x0 x1) := fun _ _ => encRR_class _ _ _ _ _
theorem jr : ∀ x0, Statement (.jr x0) := fun _ => encRR_class _ _ _ _ _
theorem callr : ∀ x0 x1, Statement (.callr x0 x1) := fun _ _ => encRR_class _ _ _ _ _
theorem addi : ∀ x0 x1 x2, Statement (.addi x0 x1 x2) := fun _ _ _ => encRI_class _ _ _ _
theorem andi : ∀ x0 x1 x2, Statement (.andi x0 x1 x2) := fun _ _ _ => encRI_class _ _ _ _
theorem ori : ∀ x0 x1 x2, Statement (.ori x0 x1 x2) := fun _ _ _ => encRI_class _ _ _ _
theorem xori : ∀ x0 x1 x2, Statement (.xori x0 x1 x2) := fun _ _ _ => encRI_class _ _ _ _
theorem slli : ∀ x0 x1 x2, Statement (.slli x0 x1 x2) := fun _ _ _ => encRI_class _ _ _ _
theorem srli : ∀ x0 x1 x2, Statement (.srli x0 x1 x2) := fun _ _ _ => encRI_class _ _ _ _
theorem srai : ∀ x0 x1 x2, Statement (.srai x0 x1 x2) := fun _ _ _ => encRI_class _ _ _ _
theorem slti : ∀ x0 x1 x2, Statement (.slti x0 x1 x2) := fun _ _ _ => encRI_class _ _ _ _
theorem sltiu : ∀ x0 x1 x2, Statement (.sltiu x0 x1 x2) := fun _ _ _ => encRI_class _ _ _ _
theorem lui : ∀ x0 x1, Statement (.lui x0 x1) := fun _ _ => encRW_class _ _ _
theorem auipc : ∀ x0 x1, Statement (.auipc x0 x1) := fun _ _ => encRW_class _ _ _
theorem lset : ∀ x0 x1 x2, Statement (.lset x0 x1 x2) := fun _ _ _ => encRI_class _ _ _ _
theorem gsetOpen : ∀ x0, Statement (.gsetOpen x0) := fun _ => encRI_class _ _ _ _
theorem gsetNe : ∀ x0 x1, Statement (.gsetNe x0 x1) := fun _ _ => encRI_class _ _ _ _
theorem gsetEq : ∀ x0 x1, Statement (.gsetEq x0 x1) := fun _ _ => encRI_class _ _ _ _
theorem beq : ∀ x0 x1 x2, Statement (.beq x0 x1 x2) := fun _ _ _ => encRI_class _ _ _ _
theorem bne : ∀ x0 x1 x2, Statement (.bne x0 x1 x2) := fun _ _ _ => encRI_class _ _ _ _
theorem blt : ∀ x0 x1 x2, Statement (.blt x0 x1 x2) := fun _ _ _ => encRI_class _ _ _ _
theorem bge : ∀ x0 x1 x2, Statement (.bge x0 x1 x2) := fun _ _ _ => encRI_class _ _ _ _
theorem bltu : ∀ x0 x1 x2, Statement (.bltu x0 x1 x2) := fun _ _ _ => encRI_class _ _ _ _
theorem bgeu : ∀ x0 x1 x2, Statement (.bgeu x0 x1 x2) := fun _ _ _ => encRI_class _ _ _ _
theorem j : ∀ x0, Statement (.j x0) := fun _ => encJ_class _ _
theorem call : ∀ x0, Statement (.call x0) := fun _ => encJ_class _ _
theorem ldB : ∀ x0 x1 x2, Statement (.ldB x0 x1 x2) := fun _ _ _ => encLS_class _ _ _ _
theorem ldBu : ∀ x0 x1 x2, Statement (.ldBu x0 x1 x2) := fun _ _ _ => encLS_class _ _ _ _
theorem ldH : ∀ x0 x1 x2, Statement (.ldH x0 x1 x2) := fun _ _ _ => encLS_class _ _ _ _
theorem ldHu : ∀ x0 x1 x2, Statement (.ldHu x0 x1 x2) := fun _ _ _ => encLS_class _ _ _ _
theorem ldW : ∀ x0 x1 x2, Statement (.ldW x0 x1 x2) := fun _ _ _ => encLS_class _ _ _ _
theorem ldWu : ∀ x0 x1 x2, Statement (.ldWu x0 x1 x2) := fun _ _ _ => encLS_class _ _ _ _
theorem ldD : ∀ x0 x1 x2, Statement (.ldD x0 x1 x2) := fun _ _ _ => encLS_class _ _ _ _
theorem ldNr : ∀ x0 x1 x2, Statement (.ldNr x0 x1 x2) := fun _ _ _ => encLS_class _ _ _ _
theorem stB : ∀ x0 x1 x2, Statement (.stB x0 x1 x2) := fun _ _ _ => encLS_class _ _ _ _
theorem stH : ∀ x0 x1 x2, Statement (.stH x0 x1 x2) := fun _ _ _ => encLS_class _ _ _ _
theorem stW : ∀ x0 x1 x2, Statement (.stW x0 x1 x2) := fun _ _ _ => encLS_class _ _ _ _
theorem stD : ∀ x0 x1 x2, Statement (.stD x0 x1 x2) := fun _ _ _ => encLS_class _ _ _ _
theorem ldb : ∀ x0 x1 x2, Statement (.ldb x0 x1 x2) := fun _ _ _ => encLS_class _ _ _ _
theorem stb : ∀ x0 x1 x2, Statement (.stb x0 x1 x2) := fun _ _ _ => encLS_class _ _ _ _
theorem ldq : ∀ x0 x1 x2, Statement (.ldq x0 x1 x2) := fun _ _ _ => encLS_class _ _ _ _
theorem stq : ∀ x0 x1 x2, Statement (.stq x0 x1 x2) := fun _ _ _ => encLS_class _ _ _ _
theorem amoaddW : ∀ x0 x1 x2, Statement (.amoaddW x0 x1 x2) := fun _ _ _ => encAT_class _ _ _ _ _
theorem amoandW : ∀ x0 x1 x2, Statement (.amoandW x0 x1 x2) := fun _ _ _ => encAT_class _ _ _ _ _
theorem amoorW : ∀ x0 x1 x2, Statement (.amoorW x0 x1 x2) := fun _ _ _ => encAT_class _ _ _ _ _
theorem amoxorW : ∀ x0 x1 x2, Statement (.amoxorW x0 x1 x2) := fun _ _ _ => encAT_class _ _ _ _ _
theorem amominW : ∀ x0 x1 x2, Statement (.amominW x0 x1 x2) := fun _ _ _ => encAT_class _ _ _ _ _
theorem amomaxW : ∀ x0 x1 x2, Statement (.amomaxW x0 x1 x2) := fun _ _ _ => encAT_class _ _ _ _ _
theorem amominuW : ∀ x0 x1 x2, Statement (.amominuW x0 x1 x2) := fun _ _ _ => encAT_class _ _ _ _ _
theorem amomaxuW : ∀ x0 x1 x2, Statement (.amomaxuW x0 x1 x2) := fun _ _ _ => encAT_class _ _ _ _ _
theorem amoswapW : ∀ x0 x1 x2, Statement (.amoswapW x0 x1 x2) := fun _ _ _ => encAT_class _ _ _ _ _
theorem amocasW : ∀ x0 x1 x2, Statement (.amocasW x0 x1 x2) := fun _ _ _ => encAT_class _ _ _ _ _
theorem amofaddF32 : ∀ x0 x1 x2, Statement (.amofaddF32 x0 x1 x2) := fun _ _ _ => encAT_class _ _ _ _ _
theorem amoaddD : ∀ x0 x1 x2, Statement (.amoaddD x0 x1 x2) := fun _ _ _ => encAT_class _ _ _ _ _
theorem amoandD : ∀ x0 x1 x2, Statement (.amoandD x0 x1 x2) := fun _ _ _ => encAT_class _ _ _ _ _
theorem amoorD : ∀ x0 x1 x2, Statement (.amoorD x0 x1 x2) := fun _ _ _ => encAT_class _ _ _ _ _
theorem amoxorD : ∀ x0 x1 x2, Statement (.amoxorD x0 x1 x2) := fun _ _ _ => encAT_class _ _ _ _ _
theorem amominD : ∀ x0 x1 x2, Statement (.amominD x0 x1 x2) := fun _ _ _ => encAT_class _ _ _ _ _
theorem amomaxD : ∀ x0 x1 x2, Statement (.amomaxD x0 x1 x2) := fun _ _ _ => encAT_class _ _ _ _ _
theorem amominuD : ∀ x0 x1 x2, Statement (.amominuD x0 x1 x2) := fun _ _ _ => encAT_class _ _ _ _ _
theorem amomaxuD : ∀ x0 x1 x2, Statement (.amomaxuD x0 x1 x2) := fun _ _ _ => encAT_class _ _ _ _ _
theorem amoswapD : ∀ x0 x1 x2, Statement (.amoswapD x0 x1 x2) := fun _ _ _ => encAT_class _ _ _ _ _
theorem amocasD : ∀ x0 x1 x2, Statement (.amocasD x0 x1 x2) := fun _ _ _ => encAT_class _ _ _ _ _
theorem fenceC : ∀ x0 x1, Statement (.fenceC x0 x1) := fun _ _ => encK_class _ _ _ _
theorem spinw : ∀ x0 x1 x2, Statement (.spinw x0 x1 x2) := fun _ _ _ => encRR_class _ _ _ _ _
theorem barr : ∀ x0 x1 x2, Statement (.barr x0 x1 x2) := fun _ _ _ => encRR_class _ _ _ _ _
theorem bwait : ∀ x0 x1 x2, Statement (.bwait x0 x1 x2) := fun _ _ _ => encRR_class _ _ _ _ _
theorem pbarr : ∀ x0 x1 x2, Statement (.pbarr x0 x1 x2) := fun _ _ _ => encRR_class _ _ _ _ _
theorem pbwait : ∀ x0 x1 x2, Statement (.pbwait x0 x1 x2) := fun _ _ _ => encRR_class _ _ _ _ _
theorem ksig : ∀ x0 x1, Statement (.ksig x0 x1) := fun _ _ => encK_class _ _ _ _
theorem kwait : ∀ x0 x1, Statement (.kwait x0 x1) := fun _ _ => encK_class _ _ _ _
theorem pcancel : ∀ x0 x1, Statement (.pcancel x0 x1) := fun _ _ => encRR_class _ _ _ _ _
theorem pgdec : ∀ x0 x1, Statement (.pgdec x0 x1) := fun _ _ => encRR_class _ _ _ _ _
theorem xr : ∀ x0 x1, Statement (.xr x0 x1) := fun _ _ => encX_class _ _ _
theorem xw : ∀ x0 x1, Statement (.xw x0 x1) := fun _ _ => encX_class _ _ _
theorem xset : ∀ x0 x1, Statement (.xset x0 x1) := fun _ _ => encX_class _ _ _
theorem xclr : ∀ x0 x1, Statement (.xclr x0 x1) := fun _ _ => encX_class _ _ _
theorem trap : ∀ x0, Statement (.trap x0) := fun _ => encX_class _ _ _
theorem xret : Statement .xret := encX_class _ _ _
theorem halt : Statement .halt := encX_class _ _ _
theorem ebreak : Statement .ebreak := encX_class _ _ _
theorem herdid : ∀ x0, Statement (.herdid x0) := fun _ => encX_class _ _ _
theorem join : Statement .join := encX_class _ _ _
theorem detach : Statement .detach := encX_class _ _ _
theorem qstat : ∀ x0 x1, Statement (.qstat x0 x1) := fun _ _ => encRR_class _ _ _ _ _
theorem iflush : Statement .iflush := encX_class _ _ _
theorem tlbinv : ∀ x0, Statement (.tlbinv x0) := fun _ => encRR_class _ _ _ _ _
theorem tlbinvall : ∀ x0, Statement (.tlbinvall x0) := fun _ => encRR_class _ _ _ _ _
theorem wait : Statement .wait := encX_class _ _ _
theorem triggerN : Statement .triggerN := encX_class _ _ _
theorem triggerG : Statement .triggerG := encX_class _ _ _
theorem vadd : ∀ x0 x1 x2 x3, Statement (.vadd x0 x1 x2 x3) := fun _ _ _ _ => encV_class _ _ _ _ _ _
theorem vsub : ∀ x0 x1 x2 x3, Statement (.vsub x0 x1 x2 x3) := fun _ _ _ _ => encV_class _ _ _ _ _ _
theorem vmul : ∀ x0 x1 x2 x3, Statement (.vmul x0 x1 x2 x3) := fun _ _ _ _ => encV_class _ _ _ _ _ _
theorem vmulh : ∀ x0 x1 x2 x3, Statement (.vmulh x0 x1 x2 x3) := fun _ _ _ _ => encV_class _ _ _ _ _ _
theorem vmin : ∀ x0 x1 x2 x3, Statement (.vmin x0 x1 x2 x3) := fun _ _ _ _ => encV_class _ _ _ _ _ _
theorem vmax : ∀ x0 x1 x2 x3, Statement (.vmax x0 x1 x2 x3) := fun _ _ _ _ => encV_class _ _ _ _ _ _
theorem vabs : ∀ x0 x1 x2, Statement (.vabs x0 x1 x2) := fun _ _ _ => encV_class _ _ _ _ _ _
theorem vneg : ∀ x0 x1 x2, Statement (.vneg x0 x1 x2) := fun _ _ _ => encV_class _ _ _ _ _ _
theorem vmac : ∀ x0 x1 x2 x3, Statement (.vmac x0 x1 x2 x3) := fun _ _ _ _ => encV_class _ _ _ _ _ _
theorem vdot4 : ∀ x0 x1 x2 x3, Statement (.vdot4 x0 x1 x2 x3) := fun _ _ _ _ => encV_class _ _ _ _ _ _
theorem vfma : ∀ x0 x1 x2 x3, Statement (.vfma x0 x1 x2 x3) := fun _ _ _ _ => encV_class _ _ _ _ _ _
theorem vfms : ∀ x0 x1 x2 x3, Statement (.vfms x0 x1 x2 x3) := fun _ _ _ _ => encV_class _ _ _ _ _ _
theorem vfnma : ∀ x0 x1 x2 x3, Statement (.vfnma x0 x1 x2 x3) := fun _ _ _ _ => encV_class _ _ _ _ _ _
theorem vdiv : ∀ x0 x1 x2 x3, Statement (.vdiv x0 x1 x2 x3) := fun _ _ _ _ => encV_class _ _ _ _ _ _
theorem vsqrt : ∀ x0 x1 x2, Statement (.vsqrt x0 x1 x2) := fun _ _ _ => encV_class _ _ _ _ _ _
theorem vrsqrt : ∀ x0 x1 x2, Statement (.vrsqrt x0 x1 x2) := fun _ _ _ => encV_class _ _ _ _ _ _
theorem vrcp : ∀ x0 x1 x2, Statement (.vrcp x0 x1 x2) := fun _ _ _ => encV_class _ _ _ _ _ _
theorem vexp2 : ∀ x0 x1 x2, Statement (.vexp2 x0 x1 x2) := fun _ _ _ => encV_class _ _ _ _ _ _
theorem vlog2 : ∀ x0 x1 x2, Statement (.vlog2 x0 x1 x2) := fun _ _ _ => encV_class _ _ _ _ _ _
theorem vtanh : ∀ x0 x1 x2, Statement (.vtanh x0 x1 x2) := fun _ _ _ => encV_class _ _ _ _ _ _
theorem vsigm : ∀ x0 x1 x2, Statement (.vsigm x0 x1 x2) := fun _ _ _ => encV_class _ _ _ _ _ _
theorem vscale : ∀ x0 x1 x2 x3, Statement (.vscale x0 x1 x2 x3) := fun _ _ _ _ => encV_class _ _ _ _ _ _
theorem vand : ∀ x0 x1 x2 x3, Statement (.vand x0 x1 x2 x3) := fun _ _ _ _ => encV_class _ _ _ _ _ _
theorem vor : ∀ x0 x1 x2 x3, Statement (.vor x0 x1 x2 x3) := fun _ _ _ _ => encV_class _ _ _ _ _ _
theorem vxor : ∀ x0 x1 x2 x3, Statement (.vxor x0 x1 x2 x3) := fun _ _ _ _ => encV_class _ _ _ _ _ _
theorem vandn : ∀ x0 x1 x2 x3, Statement (.vandn x0 x1 x2 x3) := fun _ _ _ _ => encV_class _ _ _ _ _ _
theorem vsll : ∀ x0 x1 x2 x3, Statement (.vsll x0 x1 x2 x3) := fun _ _ _ _ => encV_class _ _ _ _ _ _
theorem vsrl : ∀ x0 x1 x2 x3, Statement (.vsrl x0 x1 x2 x3) := fun _ _ _ _ => encV_class _ _ _ _ _ _
theorem vsra : ∀ x0 x1 x2 x3, Statement (.vsra x0 x1 x2 x3) := fun _ _ _ _ => encV_class _ _ _ _ _ _
theorem vclz : ∀ x0 x1 x2, Statement (.vclz x0 x1 x2) := fun _ _ _ => encV_class _ _ _ _ _ _
theorem vpopc : ∀ x0 x1 x2, Statement (.vpopc x0 x1 x2) := fun _ _ _ => encV_class _ _ _ _ _ _
theorem vmov : ∀ x0 x1 x2, Statement (.vmov x0 x1 x2) := fun _ _ _ => encV_class _ _ _ _ _ _
theorem vsel : ∀ x0 x1 x2 x3, Statement (.vsel x0 x1 x2 x3) := fun _ _ _ _ => encV_class _ _ _ _ _ _
theorem vcmp : ∀ x0 x1 x2 x3 x4, Statement (.vcmp x0 x1 x2 x3 x4) := fun _ _ _ _ _ => encV_class _ _ _ _ _ _
theorem pand : ∀ x0 x1 x2 x3, Statement (.pand x0 x1 x2 x3) := fun _ _ _ _ => encV_class _ _ _ _ _ _
theorem por : ∀ x0 x1 x2 x3, Statement (.por x0 x1 x2 x3) := fun _ _ _ _ => encV_class _ _ _ _ _ _
theorem pxor : ∀ x0 x1 x2 x3, Statement (.pxor x0 x1 x2 x3) := fun _ _ _ _ => encV_class _ _ _ _ _ _
theorem pnot : ∀ x0 x1 x2, Statement (.pnot x0 x1 x2) := fun _ _ _ => encV_class _ _ _ _ _ _
theorem pset : ∀ x0 x1 x2, Statement (.pset x0 x1 x2) := fun _ _ _ => encV_class _ _ _ _ _ _
theorem pget : ∀ x0 x1 x2, Statement (.pget x0 x1 x2) := fun _ _ _ => encV_class _ _ _ _ _ _
theorem pcnt : ∀ x0 x1 x2, Statement (.pcnt x0 x1 x2) := fun _ _ _ => encV_class _ _ _ _ _ _
theorem pfirst : ∀ x0 x1 x2, Statement (.pfirst x0 x1 x2) := fun _ _ _ => encV_class _ _ _ _ _ _
theorem vcvt : ∀ x0 x1 x2 x3, Statement (.vcvt x0 x1 x2 x3) := fun _ _ _ _ => encV_class _ _ _ _ _ _
theorem vcvtsc : ∀ x0 x1 x2 x3 x4, Statement (.vcvtsc x0 x1 x2 x3 x4) := fun _ _ _ _ _ => encV_class _ _ _ _ _ _
theorem vpack : ∀ x0 x1 x2 x3 x4, Statement (.vpack x0 x1 x2 x3 x4) := fun _ _ _ _ _ => encV_class _ _ _ _ _ _
theorem vunpack : ∀ x0 x1 x2 x3 x4, Statement (.vunpack x0 x1 x2 x3 x4) := fun _ _ _ _ _ => encV_class _ _ _ _ _ _
theorem vround : ∀ x0 x1 x2, Statement (.vround x0 x1 x2) := fun _ _ _ => encV_class _ _ _ _ _ _
theorem vql4 : ∀ x0 x1 x2 x3, Statement (.vql4 x0 x1 x2 x3) := fun _ _ _ _ => encV_class _ _ _ _ _ _
theorem vrsum : ∀ x0 x1 x2, Statement (.vrsum x0 x1 x2) := fun _ _ _ => encV_class _ _ _ _ _ _
theorem vrmax : ∀ x0 x1 x2, Statement (.vrmax x0 x1 x2) := fun _ _ _ => encV_class _ _ _ _ _ _
theorem vrmin : ∀ x0 x1 x2, Statement (.vrmin x0 x1 x2) := fun _ _ _ => encV_class _ _ _ _ _ _
theorem vrdot : ∀ x0 x1 x2 x3, Statement (.vrdot x0 x1 x2 x3) := fun _ _ _ _ => encV_class _ _ _ _ _ _
theorem vscan : ∀ x0 x1 x2, Statement (.vscan x0 x1 x2) := fun _ _ _ => encV_class _ _ _ _ _ _
theorem vargmax : ∀ x0 x1 x2, Statement (.vargmax x0 x1 x2) := fun _ _ _ => encV_class _ _ _ _ _ _
theorem vperm : ∀ x0 x1 x2 x3, Statement (.vperm x0 x1 x2 x3) := fun _ _ _ _ => encV_class _ _ _ _ _ _
theorem vrot : ∀ x0 x1 x2 x3, Statement (.vrot x0 x1 x2 x3) := fun _ _ _ _ => encV_class _ _ _ _ _ _
theorem vshfl : ∀ x0 x1 x2 x3, Statement (.vshfl x0 x1 x2 x3) := fun _ _ _ _ => encV_class _ _ _ _ _ _
theorem vbcast : ∀ x0 x1 x2 x3, Statement (.vbcast x0 x1 x2 x3) := fun _ _ _ _ => encV_class _ _ _ _ _ _
theorem vzip : ∀ x0 x1 x2 x3, Statement (.vzip x0 x1 x2 x3) := fun _ _ _ _ => encV_class _ _ _ _ _ _
theorem vunzip : ∀ x0 x1 x2 x3, Statement (.vunzip x0 x1 x2 x3) := fun _ _ _ _ => encV_class _ _ _ _ _ _
theorem vtrn : ∀ x0 x1 x2 x3, Statement (.vtrn x0 x1 x2 x3) := fun _ _ _ _ => encV_class _ _ _ _ _ _
theorem vcompress : ∀ x0 x1 x2, Statement (.vcompress x0 x1 x2) := fun _ _ _ => encV_class _ _ _ _ _ _
theorem vexpand : ∀ x0 x1 x2, Statement (.vexpand x0 x1 x2) := fun _ _ _ => encV_class _ _ _ _ _ _
theorem vld : ∀ x0 x1 x2, Statement (.vld x0 x1 x2) := fun _ _ _ => encV_class _ _ _ _ _ _
theorem vst : ∀ x0 x1 x2, Statement (.vst x0 x1 x2) := fun _ _ _ => encV_class _ _ _ _ _ _
theorem vgath : ∀ x0 x1 x2 x3, Statement (.vgath x0 x1 x2 x3) := fun _ _ _ _ => encV_class _ _ _ _ _ _
theorem vscat : ∀ x0 x1 x2 x3, Statement (.vscat x0 x1 x2 x3) := fun _ _ _ _ => encV_class _ _ _ _ _ _
theorem vdq : ∀ x0 x1 x2, Statement (.vdq x0 x1 x2) := fun _ _ _ => encV_class _ _ _ _ _ _
theorem vaq : ∀ x0 x1 x2 x3, Statement (.vaq x0 x1 x2 x3) := fun _ _ _ _ => encV_class _ _ _ _ _ _
theorem vloop : ∀ x0 x1 x2 x3, Statement (.vloop x0 x1 x2 x3) := fun _ _ _ _ => encV_class _ _ _ _ _ _
theorem vcpush : ∀ x0 x1 x2, Statement (.vcpush x0 x1 x2) := fun _ _ _ => encV_class _ _ _ _ _ _
theorem vcpop : ∀ x0 x1 x2, Statement (.vcpop x0 x1 x2) := fun _ _ _ => encV_class _ _ _ _ _ _
theorem vcflush : ∀ x0 x1, Statement (.vcflush x0 x1) := fun _ _ => encV_class _ _ _ _ _ _
theorem pcopy : ∀ x0 x1, Statement (.pcopy x0 x1) := fun _ _ => encE_class _ _ _ _
theorem pgath : ∀ x0 x1, Statement (.pgath x0 x1) := fun _ _ => encE_class _ _ _ _
theorem pscat : ∀ x0 x1, Statement (.pscat x0 x1) := fun _ _ => encE_class _ _ _ _
theorem pfill : ∀ x0 x1, Statement (.pfill x0 x1) := fun _ _ => encE_class _ _ _ _
theorem pring : ∀ x0 x1, Statement (.pring x0 x1) := fun _ _ => encE_class _ _ _ _
theorem ppage : ∀ x0 x1 x2 x3 x4, Statement (.ppage x0 x1 x2 x3 x4) := fun _ _ _ _ _ => encE_class _ _ _ _
theorem mmul : ∀ x0 x1 x2 x3 x4, Statement (.mmul x0 x1 x2 x3 x4) := fun _ _ _ _ _ => encE_class _ _ _ _
theorem msl : ∀ x0 x1 x2 x3 x4 x5, Statement (.msl x0 x1 x2 x3 x4 x5) := fun _ _ _ _ _ _ => encE_class _ _ _ _
theorem mkat : ∀ x0 x1 x2 x3 x4 x5, Statement (.mkat x0 x1 x2 x3 x4 x5) := fun _ _ _ _ _ _ => encE_class _ _ _ _
theorem mst : ∀ x0 x1 x2 x3 x4 x5, Statement (.mst x0 x1 x2 x3 x4 x5) := fun _ _ _ _ _ _ => encE_class _ _ _ _
theorem mld : ∀ x0 x1 x2 x3, Statement (.mld x0 x1 x2 x3) := fun _ _ _ _ => encE_class _ _ _ _
theorem mzero : ∀ x0 x1, Statement (.mzero x0 x1) := fun _ _ => encE_class _ _ _ _
theorem mrel : ∀ x0, Statement (.mrel x0) := fun _ => encE_class _ _ _ _
theorem wload : ∀ x0 x1 x2 x3 x4, Statement (.wload x0 x1 x2 x3 x4) := fun _ _ _ _ _ => encE_class _ _ _ _
theorem wswap : ∀ x0 x1 x2, Statement (.wswap x0 x1 x2) := fun _ _ _ => encE_class _ _ _ _
theorem wfeed (h : EHdr) (r : WellRect) (c : FeedSrc) (s n : BitVec 6) (p : Option (BitVec 4)) : Statement (.wfeed h r c s n p) := by
  cases c <;> cases p <;> exact encE_class _ _ _ _
theorem wdrain : ∀ x0 x1 x2 x3 x4 x5 x6, Statement (.wdrain x0 x1 x2 x3 x4 x5 x6) := fun _ _ _ _ _ _ _ => encE_class _ _ _ _
theorem wmode : ∀ x0 x1 x2 x3, Statement (.wmode x0 x1 x2 x3) := fun _ _ _ _ => encE_class _ _ _ _
theorem wpipe : ∀ x0 x1 x2 x3 x4 x5 x6, Statement (.wpipe x0 x1 x2 x3 x4 x5 x6) := fun _ _ _ _ _ _ _ => encE_class _ _ _ _
theorem wchk : ∀ x0 x1 x2 x3, Statement (.wchk x0 x1 x2 x3) := fun _ _ _ _ => encE_class _ _ _ _
theorem cred : ∀ x0 x1 x2 x3 x4 x5 x6 x7, Statement (.cred x0 x1 x2 x3 x4 x5 x6 x7) := fun _ _ _ _ _ _ _ _ => encE_class _ _ _ _
theorem cbcast : ∀ x0 x1 x2 x3 x4 x5 x6, Statement (.cbcast x0 x1 x2 x3 x4 x5 x6) := fun _ _ _ _ _ _ _ => encE_class _ _ _ _
theorem cgath : ∀ x0 x1 x2 x3 x4 x5 x6, Statement (.cgath x0 x1 x2 x3 x4 x5 x6) := fun _ _ _ _ _ _ _ => encE_class _ _ _ _
theorem cscat : ∀ x0 x1 x2 x3 x4 x5 x6, Statement (.cscat x0 x1 x2 x3 x4 x5 x6) := fun _ _ _ _ _ _ _ => encE_class _ _ _ _
theorem csync : ∀ x0 x1 x2, Statement (.csync x0 x1 x2) := fun _ _ _ => encE_class _ _ _ _
theorem qtailWrite : ∀ x0 x1, Statement (.qtailWrite x0 x1) := fun _ _ => wordless rfl
theorem mqtailWrite : ∀ x0, Statement (.mqtailWrite x0) := fun _ => wordless rfl
theorem registerWrite : ∀ x0 x1 x2, Statement (.registerWrite x0 x1 x2) := fun _ _ _ => wordless rfl
theorem bar2Access : ∀ x0, Statement (.bar2Access x0) := fun _ => wordless rfl
theorem atsInvalidation : ∀ x0 x1 x2, Statement (.atsInvalidation x0 x1 x2) := fun _ _ _ => wordless rfl
theorem pageRequestResponse : ∀ x0 x1 x2, Statement (.pageRequestResponse x0 x1 x2) := fun _ _ _ => wordless rfl
theorem launchPacket : ∀ x0, Statement (.launchPacket x0) := fun _ => wordless rfl
theorem copyPacket : ∀ x0, Statement (.copyPacket x0) := fun _ => wordless rfl
theorem waitPacket : ∀ x0, Statement (.waitPacket x0) := fun _ => wordless rfl
theorem signalPacket : ∀ x0, Statement (.signalPacket x0) := fun _ => wordless rfl
theorem modePacket : ∀ x0, Statement (.modePacket x0) := fun _ => wordless rfl
theorem fencePacket : ∀ x0, Statement (.fencePacket x0) := fun _ => wordless rfl
theorem waitSatisfied : ∀ x0, Statement (.waitSatisfied x0) := fun _ => wordless rfl
theorem fencePacketComplete : ∀ x0, Statement (.fencePacketComplete x0) := fun _ => wordless rfl
theorem poolRoomAdmit : ∀ x0, Statement (.poolRoomAdmit x0) := fun _ => wordless rfl
theorem mapq : Statement .mapq := wordless rfl
theorem unmapq : Statement .unmapq := wordless rfl
theorem qreset : Statement .qreset := wordless rfl
theorem pasidBind : Statement .pasidBind := wordless rfl
theorem pasidRetire : Statement .pasidRetire := wordless rfl
theorem preempt : Statement .preempt := wordless rfl
theorem resync : Statement .resync := wordless rfl
theorem attest : Statement .attest := wordless rfl
theorem patch : Statement .patch := wordless rfl
theorem dsp : Statement .dsp := wordless rfl
theorem slotGrant : Statement .slotGrant := wordless rfl
theorem slotIdleRelease : ∀ x0, Statement (.slotIdleRelease x0) := fun _ => wordless rfl
theorem forcedUnmapping : Statement .forcedUnmapping := wordless rfl
theorem queueContextSaved : ∀ x0, Statement (.queueContextSaved x0) := fun _ => wordless rfl
theorem nodeDispatch : ∀ x0, Statement (.nodeDispatch x0) := fun _ => wordless rfl
theorem reservingClaim : Statement .reservingClaim := wordless rfl
theorem levelAging : ∀ x0 x1, Statement (.levelAging x0 x1) := fun _ _ => wordless rfl
theorem nodeTriggerFire : ∀ x0 x1, Statement (.nodeTriggerFire x0 x1) := fun _ _ => wordless rfl
theorem graphTriggerFire : ∀ x0, Statement (.graphTriggerFire x0) := fun _ => wordless rfl
theorem nodeRetirement : ∀ x0 x1, Statement (.nodeRetirement x0 x1) := fun _ _ => wordless rfl
theorem copyNodeRetirement : ∀ x0 x1, Statement (.copyNodeRetirement x0 x1) := fun _ _ => wordless rfl
theorem graphRetirement : ∀ x0, Statement (.graphRetirement x0) := fun _ => wordless rfl
theorem nodeRotation : ∀ x0 x1, Statement (.nodeRotation x0 x1) := fun _ _ => wordless rfl
theorem branchResolution : ∀ x0, Statement (.branchResolution x0) := fun _ => wordless rfl
theorem vloopBodyIssue : ∀ x0 x1, Statement (.vloopBodyIssue x0 x1) := fun _ _ => wordless rfl
theorem scalarResultLanding : ∀ x0 x1 x2, Statement (.scalarResultLanding x0 x1 x2) := fun _ _ _ => wordless rfl
theorem vectorResultLanding : ∀ x0 x1, Statement (.vectorResultLanding x0 x1) := fun _ _ => wordless rfl
theorem storePerform : ∀ x0 x1 x2, Statement (.storePerform x0 x1 x2) := fun _ _ _ => wordless rfl
theorem accessQueueEntryPerform : ∀ x0 x1 x2, Statement (.accessQueueEntryPerform x0 x1 x2) := fun _ _ _ => wordless rfl
theorem parityUpdate : ∀ x0 x1 x2 x3, Statement (.parityUpdate x0 x1 x2 x3) := fun _ _ _ _ => wordless rfl
theorem bankRebuild : ∀ x0 x1 x2, Statement (.bankRebuild x0 x1 x2) := fun _ _ _ => wordless rfl
theorem tlbMissWalk : ∀ x0 x1 x2, Statement (.tlbMissWalk x0 x1 x2) := fun _ _ _ => wordless rfl
theorem xdspWrite : ∀ x0 x1, Statement (.xdspWrite x0 x1) := fun _ _ => wordless rfl
theorem dspChangeComplete : ∀ x0, Statement (.dspChangeComplete x0) := fun _ => wordless rfl
theorem freePagePop : ∀ x0 x1, Statement (.freePagePop x0 x1) := fun _ _ => wordless rfl
theorem freePagePush : ∀ x0 x1, Statement (.freePagePush x0 x1) := fun _ _ => wordless rfl
theorem zeroFill : ∀ x0 x1, Statement (.zeroFill x0 x1) := fun _ _ => wordless rfl
theorem reportPost : ∀ x0 x1, Statement (.reportPost x0 x1) := fun _ _ => wordless rfl
theorem reportPostEnd : ∀ x0 x1, Statement (.reportPostEnd x0 x1) := fun _ _ => wordless rfl
theorem semaphoreGrant : ∀ x0 x1, Statement (.semaphoreGrant x0 x1) := fun _ _ => wordless rfl
theorem engineEntryStart : ∀ x0 x1 x2, Statement (.engineEntryStart x0 x1 x2) := fun _ _ _ => wordless rfl
theorem engineEntryCompletion : ∀ x0 x1 x2, Statement (.engineEntryCompletion x0 x1 x2) := fun _ _ _ => wordless rfl
theorem leaseGrant : ∀ x0, Statement (.leaseGrant x0) := fun _ => wordless rfl
theorem leaseEnd : ∀ x0, Statement (.leaseEnd x0) := fun _ => wordless rfl
theorem collectiveStart : ∀ x0 x1, Statement (.collectiveStart x0 x1) := fun _ _ => wordless rfl
theorem pumpCancelAck : ∀ x0 x1, Statement (.pumpCancelAck x0 x1) := fun _ _ => wordless rfl
theorem fillRowActivation : ∀ x0 x1 x2, Statement (.fillRowActivation x0 x1 x2) := fun _ _ _ => wordless rfl
theorem fillComplete : ∀ x0 x1 x2, Statement (.fillComplete x0 x1 x2) := fun _ _ _ => wordless rfl
theorem bankRefresh : ∀ x0 x1 x2, Statement (.bankRefresh x0 x1 x2) := fun _ _ _ => wordless rfl
theorem cisternArrival : ∀ x0, Statement (.cisternArrival x0) := fun _ => wordless rfl
theorem barrierWaiterWake : ∀ x0 x1, Statement (.barrierWaiterWake x0 x1) := fun _ _ => wordless rfl
theorem shortBarrierWake : ∀ x0 x1, Statement (.shortBarrierWake x0 x1) := fun _ _ => wordless rfl
theorem spinwWake : ∀ x0 x1, Statement (.spinwWake x0 x1) := fun _ _ => wordless rfl
theorem hostBarrierPoll : ∀ x0, Statement (.hostBarrierPoll x0) := fun _ => wordless rfl
theorem trapEntry : ∀ x0 x1, Statement (.trapEntry x0 x1) := fun _ _ => wordless rfl
theorem registerMiss : ∀ x0 x1 x2, Statement (.registerMiss x0 x1 x2) := fun _ _ _ => wordless rfl
theorem noticePost : ∀ x0 x1 x2, Statement (.noticePost x0 x1 x2) := fun _ _ _ => wordless rfl
theorem contextSwap : ∀ x0 x1, Statement (.contextSwap x0 x1) := fun _ _ => wordless rfl
theorem herdQuiescence : ∀ x0, Statement (.herdQuiescence x0) := fun _ => wordless rfl
theorem contextSpillComplete : ∀ x0, Statement (.contextSpillComplete x0) := fun _ => wordless rfl
theorem contextRestore : ∀ x0, Statement (.contextRestore x0) := fun _ => wordless rfl
theorem unitRetirement : ∀ x0, Statement (.unitRetirement x0) := fun _ => wordless rfl
theorem sensorSample : ∀ x0, Statement (.sensorSample x0) := fun _ => wordless rfl
theorem xthermUpdate : ∀ x0, Statement (.xthermUpdate x0) := fun _ => wordless rfl
theorem thermalEmergencyStop : ∀ x0 x1, Statement (.thermalEmergencyStop x0 x1) := fun _ _ => wordless rfl
theorem remoteAccessReceived : ∀ x0 x1, Statement (.remoteAccessReceived x0 x1) := fun _ _ => wordless rfl
theorem peerPortDown : ∀ x0, Statement (.peerPortDown x0) := fun _ => wordless rfl
theorem powerOnReset : Statement .powerOnReset := wordless rfl
theorem fundamentalReset : Statement .fundamentalReset := wordless rfl
theorem functionLevelReset : Statement .functionLevelReset := wordless rfl
theorem bringUpComplete : ∀ x0, Statement (.bringUpComplete x0) := fun _ => wordless rfl
theorem mainPowerLoss : Statement .mainPowerLoss := wordless rfl
theorem peerPortUp : ∀ x0, Statement (.peerPortUp x0) := fun _ => wordless rfl
theorem tlbInvalidationComplete : ∀ x0 x1, Statement (.tlbInvalidationComplete x0 x1) := fun _ _ => wordless rfl

end Sys2Proof.Laws.WordLength
end

