-- ==== Sys2Proof/Laws/State.lean ====
section
/-! SUPPORT. What each named update of the state leaves alone: one lemma per update and field. -/

namespace Sys2Proof.Machine

variable (s : State)

@[simp] theorem State.modHerd_mem (h : Nat) (f : Herd → Herd) : (s.modHerd h f).mem = s.mem := rfl
@[simp] theorem State.modHerd_dirty (h : Nat) (f : Herd → Herd) : (s.modHerd h f).dirty = s.dirty := rfl
@[simp] theorem State.modHerd_pins (h : Nat) (f : Herd → Herd) : (s.modHerd h f).pins = s.pins := rfl
@[simp] theorem State.modHerd_marks (h : Nat) (f : Herd → Herd) : (s.modHerd h f).marks = s.marks := rfl
@[simp] theorem State.modHerd_dies (h : Nat) (f : Herd → Herd) : (s.modHerd h f).dies = s.dies := rfl
@[simp] theorem State.modHerd_dieMap (h : Nat) (f : Herd → Herd) : (s.modHerd h f).dieMap = s.dieMap := rfl
@[simp] theorem State.modHerd_roots (h : Nat) (f : Herd → Herd) : (s.modHerd h f).roots = s.roots := rfl
@[simp] theorem State.modHerd_pages (h : Nat) (f : Herd → Herd) : (s.modHerd h f).pages = s.pages := rfl
@[simp] theorem State.modHerd_ports (h : Nat) (f : Herd → Herd) : (s.modHerd h f).ports = s.ports := rfl
@[simp] theorem State.modHerd_sent (h : Nat) (f : Herd → Herd) : (s.modHerd h f).sent = s.sent := rfl
@[simp] theorem State.modHerd_misses (h : Nat) (f : Herd → Herd) : (s.modHerd h f).misses = s.misses := rfl
@[simp] theorem State.modHerd_collSent (h : Nat) (f : Herd → Herd) : (s.modHerd h f).collSent = s.collSent := rfl
@[simp] theorem State.modHerd_collSaves (h : Nat) (f : Herd → Herd) : (s.modHerd h f).collSaves = s.collSaves := rfl
@[simp] theorem State.modHerd_log (h : Nat) (f : Herd → Herd) : (s.modHerd h f).log = s.log := rfl
@[simp] theorem State.modHerd_logged (h : Nat) (f : Herd → Herd) : (s.modHerd h f).logged = s.logged := rfl
@[simp] theorem State.modHerd_counters (h : Nat) (f : Herd → Herd) : (s.modHerd h f).counters = s.counters := rfl
@[simp] theorem State.modHerd_cur (h : Nat) (f : Herd → Herd) : (s.modHerd h f).cur = s.cur := rfl
@[simp] theorem State.modHerd_agenda (h : Nat) (f : Herd → Herd) : (s.modHerd h f).agenda = s.agenda := rfl
@[simp] theorem State.modHerd_now (h : Nat) (f : Herd → Herd) : (s.modHerd h f).now = s.now := rfl
@[simp] theorem State.modHerd_fv (h : Nat) (f : Herd → Herd) : (s.modHerd h f).fv = s.fv := rfl
@[simp] theorem State.modHerd_tahr (h : Nat) (f : Herd → Herd) : (s.modHerd h f).tahr = s.tahr := rfl
@[simp] theorem State.modHerd_rects (h : Nat) (f : Herd → Herd) : (s.modHerd h f).rects = s.rects := rfl
@[simp] theorem State.modHerd_powered (h : Nat) (f : Herd → Herd) : (s.modHerd h f).powered = s.powered := rfl

@[simp] theorem State.modCtx_mem (h : Nat) (f : HerdCtx → HerdCtx) : (s.modCtx h f).mem = s.mem := rfl
@[simp] theorem State.modCtx_dirty (h : Nat) (f : HerdCtx → HerdCtx) : (s.modCtx h f).dirty = s.dirty := rfl
@[simp] theorem State.modCtx_pins (h : Nat) (f : HerdCtx → HerdCtx) : (s.modCtx h f).pins = s.pins := rfl
@[simp] theorem State.modCtx_marks (h : Nat) (f : HerdCtx → HerdCtx) : (s.modCtx h f).marks = s.marks := rfl
@[simp] theorem State.modCtx_dies (h : Nat) (f : HerdCtx → HerdCtx) : (s.modCtx h f).dies = s.dies := rfl
@[simp] theorem State.modCtx_dieMap (h : Nat) (f : HerdCtx → HerdCtx) : (s.modCtx h f).dieMap = s.dieMap := rfl
@[simp] theorem State.modCtx_roots (h : Nat) (f : HerdCtx → HerdCtx) : (s.modCtx h f).roots = s.roots := rfl
@[simp] theorem State.modCtx_pages (h : Nat) (f : HerdCtx → HerdCtx) : (s.modCtx h f).pages = s.pages := rfl
@[simp] theorem State.modCtx_ports (h : Nat) (f : HerdCtx → HerdCtx) : (s.modCtx h f).ports = s.ports := rfl
@[simp] theorem State.modCtx_sent (h : Nat) (f : HerdCtx → HerdCtx) : (s.modCtx h f).sent = s.sent := rfl
@[simp] theorem State.modCtx_misses (h : Nat) (f : HerdCtx → HerdCtx) : (s.modCtx h f).misses = s.misses := rfl
@[simp] theorem State.modCtx_collSent (h : Nat) (f : HerdCtx → HerdCtx) : (s.modCtx h f).collSent = s.collSent := rfl
@[simp] theorem State.modCtx_collSaves (h : Nat) (f : HerdCtx → HerdCtx) : (s.modCtx h f).collSaves = s.collSaves := rfl
@[simp] theorem State.modCtx_log (h : Nat) (f : HerdCtx → HerdCtx) : (s.modCtx h f).log = s.log := rfl
@[simp] theorem State.modCtx_logged (h : Nat) (f : HerdCtx → HerdCtx) : (s.modCtx h f).logged = s.logged := rfl
@[simp] theorem State.modCtx_counters (h : Nat) (f : HerdCtx → HerdCtx) : (s.modCtx h f).counters = s.counters := rfl
@[simp] theorem State.modCtx_cur (h : Nat) (f : HerdCtx → HerdCtx) : (s.modCtx h f).cur = s.cur := rfl
@[simp] theorem State.modCtx_agenda (h : Nat) (f : HerdCtx → HerdCtx) : (s.modCtx h f).agenda = s.agenda := rfl
@[simp] theorem State.modCtx_now (h : Nat) (f : HerdCtx → HerdCtx) : (s.modCtx h f).now = s.now := rfl
@[simp] theorem State.modCtx_fv (h : Nat) (f : HerdCtx → HerdCtx) : (s.modCtx h f).fv = s.fv := rfl
@[simp] theorem State.modCtx_tahr (h : Nat) (f : HerdCtx → HerdCtx) : (s.modCtx h f).tahr = s.tahr := rfl
@[simp] theorem State.modCtx_rects (h : Nat) (f : HerdCtx → HerdCtx) : (s.modCtx h f).rects = s.rects := rfl
@[simp] theorem State.modCtx_powered (h : Nat) (f : HerdCtx → HerdCtx) : (s.modCtx h f).powered = s.powered := rfl

@[simp] theorem State.modCore_mem (h c : Nat) (f : Core → Core) : (s.modCore h c f).mem = s.mem := rfl
@[simp] theorem State.modCore_dirty (h c : Nat) (f : Core → Core) : (s.modCore h c f).dirty = s.dirty := rfl
@[simp] theorem State.modCore_pins (h c : Nat) (f : Core → Core) : (s.modCore h c f).pins = s.pins := rfl
@[simp] theorem State.modCore_marks (h c : Nat) (f : Core → Core) : (s.modCore h c f).marks = s.marks := rfl
@[simp] theorem State.modCore_dies (h c : Nat) (f : Core → Core) : (s.modCore h c f).dies = s.dies := rfl
@[simp] theorem State.modCore_dieMap (h c : Nat) (f : Core → Core) : (s.modCore h c f).dieMap = s.dieMap := rfl
@[simp] theorem State.modCore_roots (h c : Nat) (f : Core → Core) : (s.modCore h c f).roots = s.roots := rfl
@[simp] theorem State.modCore_pages (h c : Nat) (f : Core → Core) : (s.modCore h c f).pages = s.pages := rfl
@[simp] theorem State.modCore_ports (h c : Nat) (f : Core → Core) : (s.modCore h c f).ports = s.ports := rfl
@[simp] theorem State.modCore_sent (h c : Nat) (f : Core → Core) : (s.modCore h c f).sent = s.sent := rfl
@[simp] theorem State.modCore_misses (h c : Nat) (f : Core → Core) : (s.modCore h c f).misses = s.misses := rfl
@[simp] theorem State.modCore_collSent (h c : Nat) (f : Core → Core) : (s.modCore h c f).collSent = s.collSent := rfl
@[simp] theorem State.modCore_collSaves (h c : Nat) (f : Core → Core) : (s.modCore h c f).collSaves = s.collSaves := rfl
@[simp] theorem State.modCore_log (h c : Nat) (f : Core → Core) : (s.modCore h c f).log = s.log := rfl
@[simp] theorem State.modCore_logged (h c : Nat) (f : Core → Core) : (s.modCore h c f).logged = s.logged := rfl
@[simp] theorem State.modCore_counters (h c : Nat) (f : Core → Core) : (s.modCore h c f).counters = s.counters := rfl
@[simp] theorem State.modCore_cur (h c : Nat) (f : Core → Core) : (s.modCore h c f).cur = s.cur := rfl
@[simp] theorem State.modCore_agenda (h c : Nat) (f : Core → Core) : (s.modCore h c f).agenda = s.agenda := rfl
@[simp] theorem State.modCore_now (h c : Nat) (f : Core → Core) : (s.modCore h c f).now = s.now := rfl
@[simp] theorem State.modCore_fv (h c : Nat) (f : Core → Core) : (s.modCore h c f).fv = s.fv := rfl
@[simp] theorem State.modCore_tahr (h c : Nat) (f : Core → Core) : (s.modCore h c f).tahr = s.tahr := rfl
@[simp] theorem State.modCore_rects (h c : Nat) (f : Core → Core) : (s.modCore h c f).rects = s.rects := rfl
@[simp] theorem State.modCore_powered (h c : Nat) (f : Core → Core) : (s.modCore h c f).powered = s.powered := rfl

@[simp] theorem State.putMy_mem (x : Core) : (s.putMy x).mem = s.mem := rfl
@[simp] theorem State.putMy_dirty (x : Core) : (s.putMy x).dirty = s.dirty := rfl
@[simp] theorem State.putMy_pins (x : Core) : (s.putMy x).pins = s.pins := rfl
@[simp] theorem State.putMy_marks (x : Core) : (s.putMy x).marks = s.marks := rfl
@[simp] theorem State.putMy_dies (x : Core) : (s.putMy x).dies = s.dies := rfl
@[simp] theorem State.putMy_dieMap (x : Core) : (s.putMy x).dieMap = s.dieMap := rfl
@[simp] theorem State.putMy_roots (x : Core) : (s.putMy x).roots = s.roots := rfl
@[simp] theorem State.putMy_pages (x : Core) : (s.putMy x).pages = s.pages := rfl
@[simp] theorem State.putMy_ports (x : Core) : (s.putMy x).ports = s.ports := rfl
@[simp] theorem State.putMy_sent (x : Core) : (s.putMy x).sent = s.sent := rfl
@[simp] theorem State.putMy_misses (x : Core) : (s.putMy x).misses = s.misses := rfl
@[simp] theorem State.putMy_collSent (x : Core) : (s.putMy x).collSent = s.collSent := rfl
@[simp] theorem State.putMy_collSaves (x : Core) : (s.putMy x).collSaves = s.collSaves := rfl
@[simp] theorem State.putMy_log (x : Core) : (s.putMy x).log = s.log := rfl
@[simp] theorem State.putMy_logged (x : Core) : (s.putMy x).logged = s.logged := rfl
@[simp] theorem State.putMy_counters (x : Core) : (s.putMy x).counters = s.counters := rfl
@[simp] theorem State.putMy_cur (x : Core) : (s.putMy x).cur = s.cur := rfl
@[simp] theorem State.putMy_agenda (x : Core) : (s.putMy x).agenda = s.agenda := rfl
@[simp] theorem State.putMy_now (x : Core) : (s.putMy x).now = s.now := rfl
@[simp] theorem State.putMy_fv (x : Core) : (s.putMy x).fv = s.fv := rfl
@[simp] theorem State.putMy_tahr (x : Core) : (s.putMy x).tahr = s.tahr := rfl
@[simp] theorem State.putMy_rects (x : Core) : (s.putMy x).rects = s.rects := rfl
@[simp] theorem State.putMy_powered (x : Core) : (s.putMy x).powered = s.powered := rfl

@[simp] theorem State.done_mem (c : Core) (n gap : Nat) : (s.done c n gap).mem = s.mem := rfl
@[simp] theorem State.done_dirty (c : Core) (n gap : Nat) : (s.done c n gap).dirty = s.dirty := rfl
@[simp] theorem State.done_pins (c : Core) (n gap : Nat) : (s.done c n gap).pins = s.pins := rfl
@[simp] theorem State.done_marks (c : Core) (n gap : Nat) : (s.done c n gap).marks = s.marks := rfl
@[simp] theorem State.done_dies (c : Core) (n gap : Nat) : (s.done c n gap).dies = s.dies := rfl
@[simp] theorem State.done_dieMap (c : Core) (n gap : Nat) : (s.done c n gap).dieMap = s.dieMap := rfl
@[simp] theorem State.done_roots (c : Core) (n gap : Nat) : (s.done c n gap).roots = s.roots := rfl
@[simp] theorem State.done_pages (c : Core) (n gap : Nat) : (s.done c n gap).pages = s.pages := rfl
@[simp] theorem State.done_ports (c : Core) (n gap : Nat) : (s.done c n gap).ports = s.ports := rfl
@[simp] theorem State.done_sent (c : Core) (n gap : Nat) : (s.done c n gap).sent = s.sent := rfl
@[simp] theorem State.done_misses (c : Core) (n gap : Nat) : (s.done c n gap).misses = s.misses := rfl
@[simp] theorem State.done_collSent (c : Core) (n gap : Nat) : (s.done c n gap).collSent = s.collSent := rfl
@[simp] theorem State.done_collSaves (c : Core) (n gap : Nat) : (s.done c n gap).collSaves = s.collSaves := rfl
@[simp] theorem State.done_log (c : Core) (n gap : Nat) : (s.done c n gap).log = s.log := rfl
@[simp] theorem State.done_logged (c : Core) (n gap : Nat) : (s.done c n gap).logged = s.logged := rfl
@[simp] theorem State.done_counters (c : Core) (n gap : Nat) : (s.done c n gap).counters = s.counters := rfl
@[simp] theorem State.done_cur (c : Core) (n gap : Nat) : (s.done c n gap).cur = s.cur := rfl
@[simp] theorem State.done_agenda (c : Core) (n gap : Nat) : (s.done c n gap).agenda = s.agenda := rfl
@[simp] theorem State.done_now (c : Core) (n gap : Nat) : (s.done c n gap).now = s.now := rfl
@[simp] theorem State.done_fv (c : Core) (n gap : Nat) : (s.done c n gap).fv = s.fv := rfl
@[simp] theorem State.done_tahr (c : Core) (n gap : Nat) : (s.done c n gap).tahr = s.tahr := rfl
@[simp] theorem State.done_rects (c : Core) (n gap : Nat) : (s.done c n gap).rects = s.rects := rfl
@[simp] theorem State.done_powered (c : Core) (n gap : Nat) : (s.done c n gap).powered = s.powered := rfl

@[simp] theorem State.fin_mem (c : Core) : (s.fin c).mem = s.mem := rfl
@[simp] theorem State.fin_dirty (c : Core) : (s.fin c).dirty = s.dirty := rfl
@[simp] theorem State.fin_pins (c : Core) : (s.fin c).pins = s.pins := rfl
@[simp] theorem State.fin_marks (c : Core) : (s.fin c).marks = s.marks := rfl
@[simp] theorem State.fin_dies (c : Core) : (s.fin c).dies = s.dies := rfl
@[simp] theorem State.fin_dieMap (c : Core) : (s.fin c).dieMap = s.dieMap := rfl
@[simp] theorem State.fin_roots (c : Core) : (s.fin c).roots = s.roots := rfl
@[simp] theorem State.fin_pages (c : Core) : (s.fin c).pages = s.pages := rfl
@[simp] theorem State.fin_ports (c : Core) : (s.fin c).ports = s.ports := rfl
@[simp] theorem State.fin_sent (c : Core) : (s.fin c).sent = s.sent := rfl
@[simp] theorem State.fin_misses (c : Core) : (s.fin c).misses = s.misses := rfl
@[simp] theorem State.fin_collSent (c : Core) : (s.fin c).collSent = s.collSent := rfl
@[simp] theorem State.fin_collSaves (c : Core) : (s.fin c).collSaves = s.collSaves := rfl
@[simp] theorem State.fin_log (c : Core) : (s.fin c).log = s.log := rfl
@[simp] theorem State.fin_logged (c : Core) : (s.fin c).logged = s.logged := rfl
@[simp] theorem State.fin_counters (c : Core) : (s.fin c).counters = s.counters := rfl
@[simp] theorem State.fin_cur (c : Core) : (s.fin c).cur = s.cur := rfl
@[simp] theorem State.fin_agenda (c : Core) : (s.fin c).agenda = s.agenda := rfl
@[simp] theorem State.fin_now (c : Core) : (s.fin c).now = s.now := rfl
@[simp] theorem State.fin_fv (c : Core) : (s.fin c).fv = s.fv := rfl
@[simp] theorem State.fin_tahr (c : Core) : (s.fin c).tahr = s.tahr := rfl
@[simp] theorem State.fin_rects (c : Core) : (s.fin c).rects = s.rects := rfl
@[simp] theorem State.fin_powered (c : Core) : (s.fin c).powered = s.powered := rfl

@[simp] theorem State.jump_mem (c : Core) (a : BitVec 56) : (s.jump c a).mem = s.mem := rfl
@[simp] theorem State.jump_dirty (c : Core) (a : BitVec 56) : (s.jump c a).dirty = s.dirty := rfl
@[simp] theorem State.jump_pins (c : Core) (a : BitVec 56) : (s.jump c a).pins = s.pins := rfl
@[simp] theorem State.jump_marks (c : Core) (a : BitVec 56) : (s.jump c a).marks = s.marks := rfl
@[simp] theorem State.jump_dies (c : Core) (a : BitVec 56) : (s.jump c a).dies = s.dies := rfl
@[simp] theorem State.jump_dieMap (c : Core) (a : BitVec 56) : (s.jump c a).dieMap = s.dieMap := rfl
@[simp] theorem State.jump_roots (c : Core) (a : BitVec 56) : (s.jump c a).roots = s.roots := rfl
@[simp] theorem State.jump_pages (c : Core) (a : BitVec 56) : (s.jump c a).pages = s.pages := rfl
@[simp] theorem State.jump_ports (c : Core) (a : BitVec 56) : (s.jump c a).ports = s.ports := rfl
@[simp] theorem State.jump_sent (c : Core) (a : BitVec 56) : (s.jump c a).sent = s.sent := rfl
@[simp] theorem State.jump_misses (c : Core) (a : BitVec 56) : (s.jump c a).misses = s.misses := rfl
@[simp] theorem State.jump_collSent (c : Core) (a : BitVec 56) : (s.jump c a).collSent = s.collSent := rfl
@[simp] theorem State.jump_collSaves (c : Core) (a : BitVec 56) : (s.jump c a).collSaves = s.collSaves := rfl
@[simp] theorem State.jump_log (c : Core) (a : BitVec 56) : (s.jump c a).log = s.log := rfl
@[simp] theorem State.jump_logged (c : Core) (a : BitVec 56) : (s.jump c a).logged = s.logged := rfl
@[simp] theorem State.jump_counters (c : Core) (a : BitVec 56) : (s.jump c a).counters = s.counters := rfl
@[simp] theorem State.jump_cur (c : Core) (a : BitVec 56) : (s.jump c a).cur = s.cur := rfl
@[simp] theorem State.jump_agenda (c : Core) (a : BitVec 56) : (s.jump c a).agenda = s.agenda := rfl
@[simp] theorem State.jump_now (c : Core) (a : BitVec 56) : (s.jump c a).now = s.now := rfl
@[simp] theorem State.jump_fv (c : Core) (a : BitVec 56) : (s.jump c a).fv = s.fv := rfl
@[simp] theorem State.jump_tahr (c : Core) (a : BitVec 56) : (s.jump c a).tahr = s.tahr := rfl
@[simp] theorem State.jump_rects (c : Core) (a : BitVec 56) : (s.jump c a).rects = s.rects := rfl
@[simp] theorem State.jump_powered (c : Core) (a : BitVec 56) : (s.jump c a).powered = s.powered := rfl

@[simp] theorem State.settle_mem (h : Nat) : (s.settle h).mem = s.mem := rfl
@[simp] theorem State.settle_dirty (h : Nat) : (s.settle h).dirty = s.dirty := rfl
@[simp] theorem State.settle_pins (h : Nat) : (s.settle h).pins = s.pins := rfl
@[simp] theorem State.settle_marks (h : Nat) : (s.settle h).marks = s.marks := rfl
@[simp] theorem State.settle_dies (h : Nat) : (s.settle h).dies = s.dies := rfl
@[simp] theorem State.settle_dieMap (h : Nat) : (s.settle h).dieMap = s.dieMap := rfl
@[simp] theorem State.settle_roots (h : Nat) : (s.settle h).roots = s.roots := rfl
@[simp] theorem State.settle_pages (h : Nat) : (s.settle h).pages = s.pages := rfl
@[simp] theorem State.settle_ports (h : Nat) : (s.settle h).ports = s.ports := rfl
@[simp] theorem State.settle_sent (h : Nat) : (s.settle h).sent = s.sent := rfl
@[simp] theorem State.settle_misses (h : Nat) : (s.settle h).misses = s.misses := rfl
@[simp] theorem State.settle_collSent (h : Nat) : (s.settle h).collSent = s.collSent := rfl
@[simp] theorem State.settle_collSaves (h : Nat) : (s.settle h).collSaves = s.collSaves := rfl
@[simp] theorem State.settle_log (h : Nat) : (s.settle h).log = s.log := rfl
@[simp] theorem State.settle_logged (h : Nat) : (s.settle h).logged = s.logged := rfl
@[simp] theorem State.settle_counters (h : Nat) : (s.settle h).counters = s.counters := rfl
@[simp] theorem State.settle_cur (h : Nat) : (s.settle h).cur = s.cur := rfl
@[simp] theorem State.settle_agenda (h : Nat) : (s.settle h).agenda = s.agenda := rfl
@[simp] theorem State.settle_now (h : Nat) : (s.settle h).now = s.now := rfl
@[simp] theorem State.settle_fv (h : Nat) : (s.settle h).fv = s.fv := rfl
@[simp] theorem State.settle_tahr (h : Nat) : (s.settle h).tahr = s.tahr := rfl
@[simp] theorem State.settle_rects (h : Nat) : (s.settle h).rects = s.rects := rfl
@[simp] theorem State.settle_powered (h : Nat) : (s.settle h).powered = s.powered := rfl

@[simp] theorem State.enterTrap_mem (h c : Nat) (t : Cause) (aq : Bool) : (s.enterTrap h c t aq).mem = s.mem := rfl
@[simp] theorem State.enterTrap_dirty (h c : Nat) (t : Cause) (aq : Bool) : (s.enterTrap h c t aq).dirty = s.dirty := rfl
@[simp] theorem State.enterTrap_pins (h c : Nat) (t : Cause) (aq : Bool) : (s.enterTrap h c t aq).pins = s.pins := rfl
@[simp] theorem State.enterTrap_marks (h c : Nat) (t : Cause) (aq : Bool) : (s.enterTrap h c t aq).marks = s.marks := rfl
@[simp] theorem State.enterTrap_dies (h c : Nat) (t : Cause) (aq : Bool) : (s.enterTrap h c t aq).dies = s.dies := rfl
@[simp] theorem State.enterTrap_dieMap (h c : Nat) (t : Cause) (aq : Bool) : (s.enterTrap h c t aq).dieMap = s.dieMap := rfl
@[simp] theorem State.enterTrap_roots (h c : Nat) (t : Cause) (aq : Bool) : (s.enterTrap h c t aq).roots = s.roots := rfl
@[simp] theorem State.enterTrap_pages (h c : Nat) (t : Cause) (aq : Bool) : (s.enterTrap h c t aq).pages = s.pages := rfl
@[simp] theorem State.enterTrap_ports (h c : Nat) (t : Cause) (aq : Bool) : (s.enterTrap h c t aq).ports = s.ports := rfl
@[simp] theorem State.enterTrap_sent (h c : Nat) (t : Cause) (aq : Bool) : (s.enterTrap h c t aq).sent = s.sent := rfl
@[simp] theorem State.enterTrap_misses (h c : Nat) (t : Cause) (aq : Bool) : (s.enterTrap h c t aq).misses = s.misses := rfl
@[simp] theorem State.enterTrap_collSent (h c : Nat) (t : Cause) (aq : Bool) : (s.enterTrap h c t aq).collSent = s.collSent := rfl
@[simp] theorem State.enterTrap_collSaves (h c : Nat) (t : Cause) (aq : Bool) : (s.enterTrap h c t aq).collSaves = s.collSaves := rfl
@[simp] theorem State.enterTrap_log (h c : Nat) (t : Cause) (aq : Bool) : (s.enterTrap h c t aq).log = s.log := rfl
@[simp] theorem State.enterTrap_logged (h c : Nat) (t : Cause) (aq : Bool) : (s.enterTrap h c t aq).logged = s.logged := rfl
@[simp] theorem State.enterTrap_counters (h c : Nat) (t : Cause) (aq : Bool) : (s.enterTrap h c t aq).counters = s.counters := rfl
@[simp] theorem State.enterTrap_cur (h c : Nat) (t : Cause) (aq : Bool) : (s.enterTrap h c t aq).cur = s.cur := rfl
@[simp] theorem State.enterTrap_agenda (h c : Nat) (t : Cause) (aq : Bool) : (s.enterTrap h c t aq).agenda = s.agenda := rfl
@[simp] theorem State.enterTrap_now (h c : Nat) (t : Cause) (aq : Bool) : (s.enterTrap h c t aq).now = s.now := rfl
@[simp] theorem State.enterTrap_fv (h c : Nat) (t : Cause) (aq : Bool) : (s.enterTrap h c t aq).fv = s.fv := rfl
@[simp] theorem State.enterTrap_tahr (h c : Nat) (t : Cause) (aq : Bool) : (s.enterTrap h c t aq).tahr = s.tahr := rfl
@[simp] theorem State.enterTrap_rects (h c : Nat) (t : Cause) (aq : Bool) : (s.enterTrap h c t aq).rects = s.rects := rfl
@[simp] theorem State.enterTrap_powered (h c : Nat) (t : Cause) (aq : Bool) : (s.enterTrap h c t aq).powered = s.powered := rfl

@[simp] theorem State.fresh_mem : (s.fresh).mem = s.mem := rfl
@[simp] theorem State.fresh_dirty : (s.fresh).dirty = s.dirty := rfl
@[simp] theorem State.fresh_pins : (s.fresh).pins = s.pins := rfl
@[simp] theorem State.fresh_marks : (s.fresh).marks = s.marks := rfl
@[simp] theorem State.fresh_herds : (s.fresh).herds = s.herds := rfl
@[simp] theorem State.fresh_dies : (s.fresh).dies = s.dies := rfl
@[simp] theorem State.fresh_dieMap : (s.fresh).dieMap = s.dieMap := rfl
@[simp] theorem State.fresh_roots : (s.fresh).roots = s.roots := rfl
@[simp] theorem State.fresh_pages : (s.fresh).pages = s.pages := rfl
@[simp] theorem State.fresh_ports : (s.fresh).ports = s.ports := rfl
@[simp] theorem State.fresh_sent : (s.fresh).sent = s.sent := rfl
@[simp] theorem State.fresh_misses : (s.fresh).misses = s.misses := rfl
@[simp] theorem State.fresh_collSent : (s.fresh).collSent = s.collSent := rfl
@[simp] theorem State.fresh_collSaves : (s.fresh).collSaves = s.collSaves := rfl
@[simp] theorem State.fresh_log : (s.fresh).log = s.log := rfl
@[simp] theorem State.fresh_logged : (s.fresh).logged = s.logged := rfl
@[simp] theorem State.fresh_counters : (s.fresh).counters = s.counters := rfl
@[simp] theorem State.fresh_cur : (s.fresh).cur = s.cur := rfl
@[simp] theorem State.fresh_agenda : (s.fresh).agenda = s.agenda := rfl
@[simp] theorem State.fresh_now : (s.fresh).now = s.now := rfl
@[simp] theorem State.fresh_tahr : (s.fresh).tahr = s.tahr := rfl
@[simp] theorem State.fresh_rects : (s.fresh).rects = s.rects := rfl
@[simp] theorem State.fresh_powered : (s.fresh).powered = s.powered := rfl

@[simp] theorem State.vissue_mem (c : Core) (h : VHdr) (ts : List VTarget) (k : BitVec 3) (dq : Bool) : (s.vissue c h ts k dq).mem = s.mem := rfl
@[simp] theorem State.vissue_dirty (c : Core) (h : VHdr) (ts : List VTarget) (k : BitVec 3) (dq : Bool) : (s.vissue c h ts k dq).dirty = s.dirty := rfl
@[simp] theorem State.vissue_pins (c : Core) (h : VHdr) (ts : List VTarget) (k : BitVec 3) (dq : Bool) : (s.vissue c h ts k dq).pins = s.pins := rfl
@[simp] theorem State.vissue_marks (c : Core) (h : VHdr) (ts : List VTarget) (k : BitVec 3) (dq : Bool) : (s.vissue c h ts k dq).marks = s.marks := rfl
@[simp] theorem State.vissue_dies (c : Core) (h : VHdr) (ts : List VTarget) (k : BitVec 3) (dq : Bool) : (s.vissue c h ts k dq).dies = s.dies := rfl
@[simp] theorem State.vissue_dieMap (c : Core) (h : VHdr) (ts : List VTarget) (k : BitVec 3) (dq : Bool) : (s.vissue c h ts k dq).dieMap = s.dieMap := rfl
@[simp] theorem State.vissue_roots (c : Core) (h : VHdr) (ts : List VTarget) (k : BitVec 3) (dq : Bool) : (s.vissue c h ts k dq).roots = s.roots := rfl
@[simp] theorem State.vissue_pages (c : Core) (h : VHdr) (ts : List VTarget) (k : BitVec 3) (dq : Bool) : (s.vissue c h ts k dq).pages = s.pages := rfl
@[simp] theorem State.vissue_ports (c : Core) (h : VHdr) (ts : List VTarget) (k : BitVec 3) (dq : Bool) : (s.vissue c h ts k dq).ports = s.ports := rfl
@[simp] theorem State.vissue_sent (c : Core) (h : VHdr) (ts : List VTarget) (k : BitVec 3) (dq : Bool) : (s.vissue c h ts k dq).sent = s.sent := rfl
@[simp] theorem State.vissue_misses (c : Core) (h : VHdr) (ts : List VTarget) (k : BitVec 3) (dq : Bool) : (s.vissue c h ts k dq).misses = s.misses := rfl
@[simp] theorem State.vissue_collSent (c : Core) (h : VHdr) (ts : List VTarget) (k : BitVec 3) (dq : Bool) : (s.vissue c h ts k dq).collSent = s.collSent := rfl
@[simp] theorem State.vissue_collSaves (c : Core) (h : VHdr) (ts : List VTarget) (k : BitVec 3) (dq : Bool) : (s.vissue c h ts k dq).collSaves = s.collSaves := rfl
@[simp] theorem State.vissue_log (c : Core) (h : VHdr) (ts : List VTarget) (k : BitVec 3) (dq : Bool) : (s.vissue c h ts k dq).log = s.log := rfl
@[simp] theorem State.vissue_logged (c : Core) (h : VHdr) (ts : List VTarget) (k : BitVec 3) (dq : Bool) : (s.vissue c h ts k dq).logged = s.logged := rfl
@[simp] theorem State.vissue_counters (c : Core) (h : VHdr) (ts : List VTarget) (k : BitVec 3) (dq : Bool) : (s.vissue c h ts k dq).counters = s.counters := rfl
@[simp] theorem State.vissue_cur (c : Core) (h : VHdr) (ts : List VTarget) (k : BitVec 3) (dq : Bool) : (s.vissue c h ts k dq).cur = s.cur := rfl
@[simp] theorem State.vissue_agenda (c : Core) (h : VHdr) (ts : List VTarget) (k : BitVec 3) (dq : Bool) : (s.vissue c h ts k dq).agenda = s.agenda := rfl
@[simp] theorem State.vissue_now (c : Core) (h : VHdr) (ts : List VTarget) (k : BitVec 3) (dq : Bool) : (s.vissue c h ts k dq).now = s.now := rfl
@[simp] theorem State.vissue_tahr (c : Core) (h : VHdr) (ts : List VTarget) (k : BitVec 3) (dq : Bool) : (s.vissue c h ts k dq).tahr = s.tahr := rfl
@[simp] theorem State.vissue_rects (c : Core) (h : VHdr) (ts : List VTarget) (k : BitVec 3) (dq : Bool) : (s.vissue c h ts k dq).rects = s.rects := rfl
@[simp] theorem State.vissue_powered (c : Core) (h : VHdr) (ts : List VTarget) (k : BitVec 3) (dq : Bool) : (s.vissue c h ts k dq).powered = s.powered := rfl

@[simp] theorem State.modDie_mem (d : Nat) (f : Die → Die) : (s.modDie d f).mem = s.mem := rfl
@[simp] theorem State.modDie_dirty (d : Nat) (f : Die → Die) : (s.modDie d f).dirty = s.dirty := rfl
@[simp] theorem State.modDie_pins (d : Nat) (f : Die → Die) : (s.modDie d f).pins = s.pins := rfl
@[simp] theorem State.modDie_marks (d : Nat) (f : Die → Die) : (s.modDie d f).marks = s.marks := rfl
@[simp] theorem State.modDie_herds (d : Nat) (f : Die → Die) : (s.modDie d f).herds = s.herds := rfl
@[simp] theorem State.modDie_dieMap (d : Nat) (f : Die → Die) : (s.modDie d f).dieMap = s.dieMap := rfl
@[simp] theorem State.modDie_roots (d : Nat) (f : Die → Die) : (s.modDie d f).roots = s.roots := rfl
@[simp] theorem State.modDie_pages (d : Nat) (f : Die → Die) : (s.modDie d f).pages = s.pages := rfl
@[simp] theorem State.modDie_ports (d : Nat) (f : Die → Die) : (s.modDie d f).ports = s.ports := rfl
@[simp] theorem State.modDie_sent (d : Nat) (f : Die → Die) : (s.modDie d f).sent = s.sent := rfl
@[simp] theorem State.modDie_misses (d : Nat) (f : Die → Die) : (s.modDie d f).misses = s.misses := rfl
@[simp] theorem State.modDie_collSent (d : Nat) (f : Die → Die) : (s.modDie d f).collSent = s.collSent := rfl
@[simp] theorem State.modDie_collSaves (d : Nat) (f : Die → Die) : (s.modDie d f).collSaves = s.collSaves := rfl
@[simp] theorem State.modDie_log (d : Nat) (f : Die → Die) : (s.modDie d f).log = s.log := rfl
@[simp] theorem State.modDie_logged (d : Nat) (f : Die → Die) : (s.modDie d f).logged = s.logged := rfl
@[simp] theorem State.modDie_counters (d : Nat) (f : Die → Die) : (s.modDie d f).counters = s.counters := rfl
@[simp] theorem State.modDie_cur (d : Nat) (f : Die → Die) : (s.modDie d f).cur = s.cur := rfl
@[simp] theorem State.modDie_agenda (d : Nat) (f : Die → Die) : (s.modDie d f).agenda = s.agenda := rfl
@[simp] theorem State.modDie_now (d : Nat) (f : Die → Die) : (s.modDie d f).now = s.now := rfl
@[simp] theorem State.modDie_fv (d : Nat) (f : Die → Die) : (s.modDie d f).fv = s.fv := rfl
@[simp] theorem State.modDie_tahr (d : Nat) (f : Die → Die) : (s.modDie d f).tahr = s.tahr := rfl
@[simp] theorem State.modDie_rects (d : Nat) (f : Die → Die) : (s.modDie d f).rects = s.rects := rfl
@[simp] theorem State.modDie_powered (d : Nat) (f : Die → Die) : (s.modDie d f).powered = s.powered := rfl

@[simp] theorem State.modTahr_mem (f : Tahr → Tahr) : (s.modTahr f).mem = s.mem := rfl
@[simp] theorem State.modTahr_dirty (f : Tahr → Tahr) : (s.modTahr f).dirty = s.dirty := rfl
@[simp] theorem State.modTahr_pins (f : Tahr → Tahr) : (s.modTahr f).pins = s.pins := rfl
@[simp] theorem State.modTahr_marks (f : Tahr → Tahr) : (s.modTahr f).marks = s.marks := rfl
@[simp] theorem State.modTahr_herds (f : Tahr → Tahr) : (s.modTahr f).herds = s.herds := rfl
@[simp] theorem State.modTahr_dies (f : Tahr → Tahr) : (s.modTahr f).dies = s.dies := rfl
@[simp] theorem State.modTahr_dieMap (f : Tahr → Tahr) : (s.modTahr f).dieMap = s.dieMap := rfl
@[simp] theorem State.modTahr_roots (f : Tahr → Tahr) : (s.modTahr f).roots = s.roots := rfl
@[simp] theorem State.modTahr_pages (f : Tahr → Tahr) : (s.modTahr f).pages = s.pages := rfl
@[simp] theorem State.modTahr_ports (f : Tahr → Tahr) : (s.modTahr f).ports = s.ports := rfl
@[simp] theorem State.modTahr_sent (f : Tahr → Tahr) : (s.modTahr f).sent = s.sent := rfl
@[simp] theorem State.modTahr_misses (f : Tahr → Tahr) : (s.modTahr f).misses = s.misses := rfl
@[simp] theorem State.modTahr_collSent (f : Tahr → Tahr) : (s.modTahr f).collSent = s.collSent := rfl
@[simp] theorem State.modTahr_collSaves (f : Tahr → Tahr) : (s.modTahr f).collSaves = s.collSaves := rfl
@[simp] theorem State.modTahr_log (f : Tahr → Tahr) : (s.modTahr f).log = s.log := rfl
@[simp] theorem State.modTahr_logged (f : Tahr → Tahr) : (s.modTahr f).logged = s.logged := rfl
@[simp] theorem State.modTahr_counters (f : Tahr → Tahr) : (s.modTahr f).counters = s.counters := rfl
@[simp] theorem State.modTahr_cur (f : Tahr → Tahr) : (s.modTahr f).cur = s.cur := rfl
@[simp] theorem State.modTahr_agenda (f : Tahr → Tahr) : (s.modTahr f).agenda = s.agenda := rfl
@[simp] theorem State.modTahr_now (f : Tahr → Tahr) : (s.modTahr f).now = s.now := rfl
@[simp] theorem State.modTahr_fv (f : Tahr → Tahr) : (s.modTahr f).fv = s.fv := rfl
@[simp] theorem State.modTahr_rects (f : Tahr → Tahr) : (s.modTahr f).rects = s.rects := rfl
@[simp] theorem State.modTahr_powered (f : Tahr → Tahr) : (s.modTahr f).powered = s.powered := rfl

@[simp] theorem State.modQueue_mem (q : Nat) (f : Queue → Queue) : (s.modQueue q f).mem = s.mem := rfl
@[simp] theorem State.modQueue_dirty (q : Nat) (f : Queue → Queue) : (s.modQueue q f).dirty = s.dirty := rfl
@[simp] theorem State.modQueue_pins (q : Nat) (f : Queue → Queue) : (s.modQueue q f).pins = s.pins := rfl
@[simp] theorem State.modQueue_marks (q : Nat) (f : Queue → Queue) : (s.modQueue q f).marks = s.marks := rfl
@[simp] theorem State.modQueue_herds (q : Nat) (f : Queue → Queue) : (s.modQueue q f).herds = s.herds := rfl
@[simp] theorem State.modQueue_dies (q : Nat) (f : Queue → Queue) : (s.modQueue q f).dies = s.dies := rfl
@[simp] theorem State.modQueue_dieMap (q : Nat) (f : Queue → Queue) : (s.modQueue q f).dieMap = s.dieMap := rfl
@[simp] theorem State.modQueue_roots (q : Nat) (f : Queue → Queue) : (s.modQueue q f).roots = s.roots := rfl
@[simp] theorem State.modQueue_pages (q : Nat) (f : Queue → Queue) : (s.modQueue q f).pages = s.pages := rfl
@[simp] theorem State.modQueue_ports (q : Nat) (f : Queue → Queue) : (s.modQueue q f).ports = s.ports := rfl
@[simp] theorem State.modQueue_sent (q : Nat) (f : Queue → Queue) : (s.modQueue q f).sent = s.sent := rfl
@[simp] theorem State.modQueue_misses (q : Nat) (f : Queue → Queue) : (s.modQueue q f).misses = s.misses := rfl
@[simp] theorem State.modQueue_collSent (q : Nat) (f : Queue → Queue) : (s.modQueue q f).collSent = s.collSent := rfl
@[simp] theorem State.modQueue_collSaves (q : Nat) (f : Queue → Queue) : (s.modQueue q f).collSaves = s.collSaves := rfl
@[simp] theorem State.modQueue_log (q : Nat) (f : Queue → Queue) : (s.modQueue q f).log = s.log := rfl
@[simp] theorem State.modQueue_logged (q : Nat) (f : Queue → Queue) : (s.modQueue q f).logged = s.logged := rfl
@[simp] theorem State.modQueue_counters (q : Nat) (f : Queue → Queue) : (s.modQueue q f).counters = s.counters := rfl
@[simp] theorem State.modQueue_cur (q : Nat) (f : Queue → Queue) : (s.modQueue q f).cur = s.cur := rfl
@[simp] theorem State.modQueue_agenda (q : Nat) (f : Queue → Queue) : (s.modQueue q f).agenda = s.agenda := rfl
@[simp] theorem State.modQueue_now (q : Nat) (f : Queue → Queue) : (s.modQueue q f).now = s.now := rfl
@[simp] theorem State.modQueue_fv (q : Nat) (f : Queue → Queue) : (s.modQueue q f).fv = s.fv := rfl
@[simp] theorem State.modQueue_rects (q : Nat) (f : Queue → Queue) : (s.modQueue q f).rects = s.rects := rfl
@[simp] theorem State.modQueue_powered (q : Nat) (f : Queue → Queue) : (s.modQueue q f).powered = s.powered := rfl

@[simp] theorem State.modLaunch_mem (l : Nat) (f : Launch → Launch) : (s.modLaunch l f).mem = s.mem := rfl
@[simp] theorem State.modLaunch_dirty (l : Nat) (f : Launch → Launch) : (s.modLaunch l f).dirty = s.dirty := rfl
@[simp] theorem State.modLaunch_pins (l : Nat) (f : Launch → Launch) : (s.modLaunch l f).pins = s.pins := rfl
@[simp] theorem State.modLaunch_marks (l : Nat) (f : Launch → Launch) : (s.modLaunch l f).marks = s.marks := rfl
@[simp] theorem State.modLaunch_herds (l : Nat) (f : Launch → Launch) : (s.modLaunch l f).herds = s.herds := rfl
@[simp] theorem State.modLaunch_dies (l : Nat) (f : Launch → Launch) : (s.modLaunch l f).dies = s.dies := rfl
@[simp] theorem State.modLaunch_dieMap (l : Nat) (f : Launch → Launch) : (s.modLaunch l f).dieMap = s.dieMap := rfl
@[simp] theorem State.modLaunch_roots (l : Nat) (f : Launch → Launch) : (s.modLaunch l f).roots = s.roots := rfl
@[simp] theorem State.modLaunch_pages (l : Nat) (f : Launch → Launch) : (s.modLaunch l f).pages = s.pages := rfl
@[simp] theorem State.modLaunch_ports (l : Nat) (f : Launch → Launch) : (s.modLaunch l f).ports = s.ports := rfl
@[simp] theorem State.modLaunch_sent (l : Nat) (f : Launch → Launch) : (s.modLaunch l f).sent = s.sent := rfl
@[simp] theorem State.modLaunch_misses (l : Nat) (f : Launch → Launch) : (s.modLaunch l f).misses = s.misses := rfl
@[simp] theorem State.modLaunch_collSent (l : Nat) (f : Launch → Launch) : (s.modLaunch l f).collSent = s.collSent := rfl
@[simp] theorem State.modLaunch_collSaves (l : Nat) (f : Launch → Launch) : (s.modLaunch l f).collSaves = s.collSaves := rfl
@[simp] theorem State.modLaunch_log (l : Nat) (f : Launch → Launch) : (s.modLaunch l f).log = s.log := rfl
@[simp] theorem State.modLaunch_logged (l : Nat) (f : Launch → Launch) : (s.modLaunch l f).logged = s.logged := rfl
@[simp] theorem State.modLaunch_counters (l : Nat) (f : Launch → Launch) : (s.modLaunch l f).counters = s.counters := rfl
@[simp] theorem State.modLaunch_cur (l : Nat) (f : Launch → Launch) : (s.modLaunch l f).cur = s.cur := rfl
@[simp] theorem State.modLaunch_agenda (l : Nat) (f : Launch → Launch) : (s.modLaunch l f).agenda = s.agenda := rfl
@[simp] theorem State.modLaunch_now (l : Nat) (f : Launch → Launch) : (s.modLaunch l f).now = s.now := rfl
@[simp] theorem State.modLaunch_fv (l : Nat) (f : Launch → Launch) : (s.modLaunch l f).fv = s.fv := rfl
@[simp] theorem State.modLaunch_rects (l : Nat) (f : Launch → Launch) : (s.modLaunch l f).rects = s.rects := rfl
@[simp] theorem State.modLaunch_powered (l : Nat) (f : Launch → Launch) : (s.modLaunch l f).powered = s.powered := rfl

@[simp] theorem State.modNode_mem (l n : Nat) (f : Node → Node) : (s.modNode l n f).mem = s.mem := rfl
@[simp] theorem State.modNode_dirty (l n : Nat) (f : Node → Node) : (s.modNode l n f).dirty = s.dirty := rfl
@[simp] theorem State.modNode_pins (l n : Nat) (f : Node → Node) : (s.modNode l n f).pins = s.pins := rfl
@[simp] theorem State.modNode_marks (l n : Nat) (f : Node → Node) : (s.modNode l n f).marks = s.marks := rfl
@[simp] theorem State.modNode_herds (l n : Nat) (f : Node → Node) : (s.modNode l n f).herds = s.herds := rfl
@[simp] theorem State.modNode_dies (l n : Nat) (f : Node → Node) : (s.modNode l n f).dies = s.dies := rfl
@[simp] theorem State.modNode_dieMap (l n : Nat) (f : Node → Node) : (s.modNode l n f).dieMap = s.dieMap := rfl
@[simp] theorem State.modNode_roots (l n : Nat) (f : Node → Node) : (s.modNode l n f).roots = s.roots := rfl
@[simp] theorem State.modNode_pages (l n : Nat) (f : Node → Node) : (s.modNode l n f).pages = s.pages := rfl
@[simp] theorem State.modNode_ports (l n : Nat) (f : Node → Node) : (s.modNode l n f).ports = s.ports := rfl
@[simp] theorem State.modNode_sent (l n : Nat) (f : Node → Node) : (s.modNode l n f).sent = s.sent := rfl
@[simp] theorem State.modNode_misses (l n : Nat) (f : Node → Node) : (s.modNode l n f).misses = s.misses := rfl
@[simp] theorem State.modNode_collSent (l n : Nat) (f : Node → Node) : (s.modNode l n f).collSent = s.collSent := rfl
@[simp] theorem State.modNode_collSaves (l n : Nat) (f : Node → Node) : (s.modNode l n f).collSaves = s.collSaves := rfl
@[simp] theorem State.modNode_log (l n : Nat) (f : Node → Node) : (s.modNode l n f).log = s.log := rfl
@[simp] theorem State.modNode_logged (l n : Nat) (f : Node → Node) : (s.modNode l n f).logged = s.logged := rfl
@[simp] theorem State.modNode_counters (l n : Nat) (f : Node → Node) : (s.modNode l n f).counters = s.counters := rfl
@[simp] theorem State.modNode_cur (l n : Nat) (f : Node → Node) : (s.modNode l n f).cur = s.cur := rfl
@[simp] theorem State.modNode_agenda (l n : Nat) (f : Node → Node) : (s.modNode l n f).agenda = s.agenda := rfl
@[simp] theorem State.modNode_now (l n : Nat) (f : Node → Node) : (s.modNode l n f).now = s.now := rfl
@[simp] theorem State.modNode_fv (l n : Nat) (f : Node → Node) : (s.modNode l n f).fv = s.fv := rfl
@[simp] theorem State.modNode_rects (l n : Nat) (f : Node → Node) : (s.modNode l n f).rects = s.rects := rfl
@[simp] theorem State.modNode_powered (l n : Nat) (f : Node → Node) : (s.modNode l n f).powered = s.powered := rfl

@[simp] theorem State.modSlot_mem (i : Nat) (f : Slot → Slot) : (s.modSlot i f).mem = s.mem := rfl
@[simp] theorem State.modSlot_dirty (i : Nat) (f : Slot → Slot) : (s.modSlot i f).dirty = s.dirty := rfl
@[simp] theorem State.modSlot_pins (i : Nat) (f : Slot → Slot) : (s.modSlot i f).pins = s.pins := rfl
@[simp] theorem State.modSlot_marks (i : Nat) (f : Slot → Slot) : (s.modSlot i f).marks = s.marks := rfl
@[simp] theorem State.modSlot_herds (i : Nat) (f : Slot → Slot) : (s.modSlot i f).herds = s.herds := rfl
@[simp] theorem State.modSlot_dies (i : Nat) (f : Slot → Slot) : (s.modSlot i f).dies = s.dies := rfl
@[simp] theorem State.modSlot_dieMap (i : Nat) (f : Slot → Slot) : (s.modSlot i f).dieMap = s.dieMap := rfl
@[simp] theorem State.modSlot_roots (i : Nat) (f : Slot → Slot) : (s.modSlot i f).roots = s.roots := rfl
@[simp] theorem State.modSlot_pages (i : Nat) (f : Slot → Slot) : (s.modSlot i f).pages = s.pages := rfl
@[simp] theorem State.modSlot_ports (i : Nat) (f : Slot → Slot) : (s.modSlot i f).ports = s.ports := rfl
@[simp] theorem State.modSlot_sent (i : Nat) (f : Slot → Slot) : (s.modSlot i f).sent = s.sent := rfl
@[simp] theorem State.modSlot_misses (i : Nat) (f : Slot → Slot) : (s.modSlot i f).misses = s.misses := rfl
@[simp] theorem State.modSlot_collSent (i : Nat) (f : Slot → Slot) : (s.modSlot i f).collSent = s.collSent := rfl
@[simp] theorem State.modSlot_collSaves (i : Nat) (f : Slot → Slot) : (s.modSlot i f).collSaves = s.collSaves := rfl
@[simp] theorem State.modSlot_log (i : Nat) (f : Slot → Slot) : (s.modSlot i f).log = s.log := rfl
@[simp] theorem State.modSlot_logged (i : Nat) (f : Slot → Slot) : (s.modSlot i f).logged = s.logged := rfl
@[simp] theorem State.modSlot_counters (i : Nat) (f : Slot → Slot) : (s.modSlot i f).counters = s.counters := rfl
@[simp] theorem State.modSlot_cur (i : Nat) (f : Slot → Slot) : (s.modSlot i f).cur = s.cur := rfl
@[simp] theorem State.modSlot_agenda (i : Nat) (f : Slot → Slot) : (s.modSlot i f).agenda = s.agenda := rfl
@[simp] theorem State.modSlot_now (i : Nat) (f : Slot → Slot) : (s.modSlot i f).now = s.now := rfl
@[simp] theorem State.modSlot_fv (i : Nat) (f : Slot → Slot) : (s.modSlot i f).fv = s.fv := rfl
@[simp] theorem State.modSlot_rects (i : Nat) (f : Slot → Slot) : (s.modSlot i f).rects = s.rects := rfl
@[simp] theorem State.modSlot_powered (i : Nat) (f : Slot → Slot) : (s.modSlot i f).powered = s.powered := rfl

/-- Where no parity group has retired, no location lies in one (R231). -/
theorem State.inDeadGroup_of_alive (h : ∀ x ∈ s.herds, ∀ p ∈ x.phys, ∀ g ∈ p.groups, g.dead = false) (l : Nat) :
    s.inDeadGroup l = false := by
  unfold State.inDeadGroup
  cases hp : s.physAt l with
  | none => simp
  | some p =>
    simp only [Bool.and_eq_false_iff]
    right
    simp only [State.physAt, Option.bind_eq_some_iff] at hp
    obtain ⟨x, hx, hp⟩ := hp
    have hx' := List.mem_of_getElem? hx
    have hp' := List.mem_of_getElem? hp
    cases hg : p.groups[(p.position ((l - 2 ^ 42) % 2 ^ 20)).1 / 4]? with
    | none => rfl
    | some g => exact h x hx' p hp' g (List.mem_of_getElem? hg)

/-- Where no herd spills an old context, no footprint is held (R414). -/
theorem State.spillHolds_of_single (h : ∀ x ∈ s.herds, x.old = none) (l : Nat) : s.spillHolds l = false := by
  unfold State.spillHolds
  cases hx : s.herds[(l - 2 ^ 42) / 2 ^ 23]? with
  | none => simp
  | some x => simp [h x (List.mem_of_getElem? hx)]

end Sys2Proof.Machine
end

