-- ==== Sys2Proof/Tests/Slice0.lean ====
section
/-! SUPPORT. Tests: words written out from the spec's tables of fields, ill-formed terms, and, for the statements, states that
meet their hypotheses. Every expected value is written from the rule that a test names. -/

namespace Sys2Proof.Tests

-- One theorem after another: each is a long evaluation of the kernel.
set_option Elab.async false

open Sys2Proof Sys2Proof.Machine

/-! ## Words, field by field -/

/-- A granule from its fields: the lowest bit of each, and its value. -/
def gran (fs : List (Nat × Nat)) : Granule := .ofNat 32 (fs.foldl (fun n f => n + f.2 * 2 ^ f.1) 0)

/-- Layout RR of R110 with rd 3, rs1 5 and rs2 9. -/
def rr (major func : Nat) (rd rs1 rs2 : Nat := 0) : List Granule :=
  [gran [(24, major), (19, rd), (14, rs1), (9, rs2), (0, func)]]

/-- Every word decodes to its instruction, and is what its instruction encodes to. -/
def reads (l : List (List Granule × Instr)) : Bool :=
  l.all fun x => decide (decodeGranules x.1 = .ok x.2 ∧ encode x.2 = x.1)

/-- R127, major 0x00. -/
theorem test_integer_words : reads
    [(rr 0x00 0x000 3 5 9, .add 3 5 9), (rr 0x00 0x001 3 5 9, .sub 3 5 9), (rr 0x00 0x002 3 5 9, .and 3 5 9),
     (rr 0x00 0x003 3 5 9, .or 3 5 9), (rr 0x00 0x004 3 5 9, .xor 3 5 9), (rr 0x00 0x005 3 5 9, .andn 3 5 9),
     (rr 0x00 0x006 3 5 9, .sll 3 5 9), (rr 0x00 0x007 3 5 9, .srl 3 5 9), (rr 0x00 0x008 3 5 9, .sra 3 5 9),
     (rr 0x00 0x009 3 5 9, .rol 3 5 9), (rr 0x00 0x00A 3 5 9, .ror 3 5 9), (rr 0x00 0x00B 3 5 9, .slt 3 5 9),
     (rr 0x00 0x00C 3 5 9, .sltu 3 5 9), (rr 0x00 0x00D 3 5 9, .seq 3 5 9), (rr 0x00 0x00E 3 5 9, .sne 3 5 9),
     (rr 0x00 0x00F 3 5 9, .min 3 5 9), (rr 0x00 0x010 3 5 9, .max 3 5 9), (rr 0x00 0x011 3 5 9, .minu 3 5 9),
     (rr 0x00 0x012 3 5 9, .maxu 3 5 9), (rr 0x00 0x013 3 5, .clz 3 5), (rr 0x00 0x014 3 5, .ctz 3 5),
     (rr 0x00 0x015 3 5, .popc 3 5), (rr 0x00 0x016 3 5, .sextB 3 5), (rr 0x00 0x017 3 5, .sextH 3 5),
     (rr 0x00 0x018 3 5, .sextW 3 5), (rr 0x00 0x019 3 5, .zextB 3 5), (rr 0x00 0x01A 3 5, .zextH 3 5),
     (rr 0x00 0x01B 3 5, .zextW 3 5)] = true := by decide +kernel

/-- R127, majors 0x01 to 0x04. -/
theorem test_function_words : reads
    [(rr 0x01 0 3 5 9, .mul 3 5 9), (rr 0x01 1 3 5 9, .mulh 3 5 9), (rr 0x01 2 3 5 9, .mulhu 3 5 9), (rr 0x01 3 3 5 9, .mulhsu 3 5 9),
     (rr 0x01 4 3 5 9, .div 3 5 9), (rr 0x01 5 3 5 9, .divu 3 5 9), (rr 0x01 6 3 5 9, .rem 3 5 9), (rr 0x01 7 3 5 9, .remu 3 5 9),
     (rr 0x02 0 3 5 1, .cvtF64S64 3 5 .rtz), (rr 0x02 1 3 5 2, .cvtF32S64 3 5 .rdn), (rr 0x02 2 3 5 3, .cvtS64F64 3 5 .rup),
     (rr 0x02 3 3 5 1, .cvtS64F32 3 5 .rtz), (rr 0x02 4 3 5, .cvtF64F32 3 5), (rr 0x02 5 3 5 0, .cvtF32F64 3 5 .rne),
     (rr 0x02 6 3 5, .cvtF32F16 3 5), (rr 0x02 7 3 5 2, .cvtF16F32 3 5 .rdn), (rr 0x02 8 3 5, .cvtF32Bf16 3 5),
     (rr 0x02 9 3 5 3, .cvtBf16F32 3 5 .rup), (rr 0x03 0 3 5 9, .ptag 3 5 9), (rr 0x03 1 3 5, .pspace 3 5),
     (rr 0x03 2 3 5, .prank 3 5), (rr 0x03 3 3 5 9, .padd 3 5 9), (rr 0x03 4 3 5 9, .psub 3 5 9), (rr 0x03 5 3 5, .paddr 3 5),
     (rr 0x04 0 0 5, .jr 5), (rr 0x04 1 3 5, .callr 3 5)] = true := by decide +kernel

/-- Layout RI of R110: two registers and 14 bits. -/
def ri (major rd rs1 imm : Nat) : List Granule := [gran [(24, major), (19, rd), (14, rs1), (0, imm)]]

/-- R126, layouts RI, RW, RB and J; −3 in 14, 19 and 24 bits is 0x3FFD, 0x7FFFD and 0xFFFFFD. -/
theorem test_immediate_and_branch_words : reads
    [(ri 0x08 3 5 0x3FFD, .addi 3 5 (-3)), (ri 0x09 3 5 0x3FFD, .andi 3 5 0x3FFD), (ri 0x0A 3 5 7, .ori 3 5 7),
     (ri 0x0B 3 5 7, .xori 3 5 7), (ri 0x0C 3 5 63, .slli 3 5 63), (ri 0x0D 3 5 63, .srli 3 5 63), (ri 0x0E 3 5 63, .srai 3 5 63),
     (ri 0x0F 3 5 0x3FFD, .slti 3 5 (-3)), (ri 0x10 3 5 0x3FFD, .sltiu 3 5 (-3)),
     ([gran [(24, 0x11), (19, 3), (0, 0x7FFFD)]], .lui 3 (-3)), ([gran [(24, 0x12), (19, 3), (0, 0x7FFFD)]], .auipc 3 (-3)),
     (ri 0x13 7 5 0x3FFD, .lset 7 5 (-3)), (ri 0x14 15 0 0, .gsetOpen 15), (ri 0x14 15 5 1, .gsetNe 15 5), (ri 0x14 15 5 2, .gsetEq 15 5),
     (ri 0x18 3 5 0x3FFD, .beq 3 5 (-3)), (ri 0x19 3 5 4, .bne 3 5 4), (ri 0x1A 3 5 4, .blt 3 5 4), (ri 0x1B 3 5 4, .bge 3 5 4),
     (ri 0x1C 3 5 4, .bltu 3 5 4), (ri 0x1D 3 5 4, .bgeu 3 5 4), ([gran [(24, 0x1E), (0, 0xFFFFFD)]], .j (-3)),
     ([gran [(24, 0x1F), (0, 0xFFFFFD)]], .call (-3))] = true := by decide +kernel

/-- Layout LS of R110: −3 in 15 bits is 0x7FFD. -/
def ls (major s b : Nat) (off : Nat := 0x7FFD) : List Granule := [gran [(24, major), (19, s), (15, b), (0, off)]]

/-- Layout AT of R110. -/
def at_ (major s b func off : Nat) : List Granule := [gran [(24, major), (19, s), (15, b), (10, func), (0, off)]]

/-- R126, majors 0x20 to 0x2F. -/
theorem test_load_and_store_words : reads
    [(ls 0x20 3 9, .ldB 3 9 (-3)), (ls 0x21 3 9, .ldBu 3 9 (-3)), (ls 0x22 3 9, .ldH 3 9 (-3)), (ls 0x23 3 9, .ldHu 3 9 (-3)),
     (ls 0x24 3 9, .ldW 3 9 (-3)), (ls 0x25 3 9, .ldWu 3 9 (-3)), (ls 0x26 3 9, .ldD 3 9 (-3)), (ls 0x27 3 9, .ldNr 3 9 (-3)),
     (ls 0x28 3 9, .stB 3 9 (-3)), (ls 0x29 3 9, .stH 3 9 (-3)), (ls 0x2A 3 9, .stW 3 9 (-3)), (ls 0x2B 3 9, .stD 3 9 (-3)),
     (ls 0x2C 13 9, .ldb 13 9 (-3)), (ls 0x2D 13 9, .stb 13 9 (-3)), (ls 0x2E 13 9, .ldq 13 9 (-3)), (ls 0x2F 13 9, .stq 13 9 (-3))]
    = true := by decide +kernel

/-- R128: cas names the even register of its pair (R368). -/
theorem test_atomic_words : reads
    [(at_ 0x30 3 9 0 5, .amoaddW 3 9 5), (at_ 0x30 3 9 1 5, .amoandW 3 9 5), (at_ 0x30 3 9 2 5, .amoorW 3 9 5),
     (at_ 0x30 3 9 3 5, .amoxorW 3 9 5), (at_ 0x30 3 9 4 5, .amominW 3 9 5), (at_ 0x30 3 9 5 5, .amomaxW 3 9 5),
     (at_ 0x30 3 9 6 5, .amominuW 3 9 5), (at_ 0x30 3 9 7 5, .amomaxuW 3 9 5), (at_ 0x30 3 9 8 5, .amoswapW 3 9 5),
     (at_ 0x30 6 9 9 5, .amocasW 3 9 5), (at_ 0x30 3 9 10 5, .amofaddF32 3 9 5),
     (at_ 0x31 3 9 0 5, .amoaddD 3 9 5), (at_ 0x31 3 9 1 5, .amoandD 3 9 5), (at_ 0x31 3 9 2 5, .amoorD 3 9 5),
     (at_ 0x31 3 9 3 5, .amoxorD 3 9 5), (at_ 0x31 3 9 4 5, .amominD 3 9 5), (at_ 0x31 3 9 5 5, .amomaxD 3 9 5),
     (at_ 0x31 3 9 6 5, .amominuD 3 9 5), (at_ 0x31 3 9 7 5, .amomaxuD 3 9 5), (at_ 0x31 3 9 8 5, .amoswapD 3 9 5),
     (at_ 0x31 6 9 9 1023, .amocasD 3 9 1023)] = true := by decide +kernel

/-- R129, R130, R184, R390, R398, R433, R440, R441. -/
theorem test_synchronisation_and_system_words : reads
    [([gran [(24, 0x32), (16, 0xA5), (13, 3), (0, 0)]], .fenceC 0xA5 .module), (rr 0x32 1 3 9 5, .spinw 3 9 5),
     (rr 0x32 2 3 9 5, .barr 3 9 5), (rr 0x32 3 3 9 5, .bwait 3 9 5), (rr 0x32 4 3 9 5, .pbarr 3 9 5), (rr 0x32 5 3 9 5, .pbwait 3 9 5),
     ([gran [(24, 0x32), (16, 200), (9, 15), (0, 6)]], .ksig 200 15), ([gran [(24, 0x32), (16, 200), (9, 15), (0, 7)]], .kwait 200 15),
     (rr 0x32 8 3 5, .pcancel 3 5), (rr 0x32 9 0 9 5, .pgdec 9 5),
     ([gran [(24, 0x3F), (19, 3), (9, 0x003), (0, 0)]], .xr 3 .xcause), ([gran [(24, 0x3F), (19, 3), (9, 0x042), (0, 0)]], .xr 3 .xcyc),
     ([gran [(24, 0x3F), (19, 3), (9, 0x001), (0, 1)]], .xw 3 .xvec), ([gran [(24, 0x3F), (19, 3), (9, 0x000), (0, 2)]], .xset 3 .xstat),
     ([gran [(24, 0x3F), (19, 3), (9, 0x022), (0, 3)]], .xclr 3 .xcond), ([gran [(24, 0x3F), (9, 1023), (0, 4)]], .trap 1023),
     (rr 0x3F 0x005, .xret), (rr 0x3F 0x006, .halt), (rr 0x3F 0x007, .ebreak), (rr 0x3F 0x008 3, .herdid 3), (rr 0x3F 0x009, .join),
     (rr 0x3F 0x00A, .detach), (rr 0x3F 0x00B 3 2, .qstat 3 .well), (rr 0x3F 0x00C, .iflush), (rr 0x3F 0x00D 0 5, .tlbinv 5),
     (rr 0x3F 0x00E 0 5, .tlbinvall 5), (rr 0x3F 0x00F, .wait), (rr 0x3F 0x010, .triggerN), (rr 0x3F 0x011, .triggerG)]
    = true := by decide +kernel

/-- A vector word (R112 to R114): predicate 5, gap 6, LAT 15; type code, rounding code, saturation, ext and descriptors. -/
def vec (op ty rnd sat ext d a b : Nat) (pred : Nat := 5) (lb : Nat := 0) : List Granule :=
  let o := d + a * 2 ^ 21 + b * 2 ^ 42
  [gran [(30, 1), (22, op), (19, pred), (15, 15), (12, 6), (8, ty), (6, rnd), (5, sat), (4, lb), (0, ext)],
   .ofNat 32 o, .ofNat 32 (o / 2 ^ 32)]

/-- The header of such a word. -/
def vh (ty : ElemType) (rnd : Rnd := .rne) (sat : Bool := false) (pred : BitVec 3 := 5) : VHdr := ⟨pred, 15, 6, ty, rnd, sat, false⟩

/-- A scratchpad reference to b9 with sel and an offset of 13 bits (R114). -/
def memBits (sel off : Nat) : Nat := 2 ^ 19 + 9 * 2 ^ 15 + sel * 2 ^ 13 + off

/-- An immediate (R114): imm16 in [15:0]. -/
def immBits (i : Nat) : Nat := 3 * 2 ^ 19 + i

/-- R132, opcodes 0x00 to 0x1B: a stride1 scratchpad reference, a scalar broadcast and an immediate among the operands. -/
theorem test_vector_arithmetic_words : reads
    [(vec 0x00 0x2 0 1 0 30 31 (2 * 2 ^ 19 + 17), .vadd (vh .s32 .rne true) (.reg 30) (.reg 31) (.scal 17)),
     (vec 0x01 0x8 3 0 0 (memBits 2 0x1FFF) 31 (immBits 0xBF80), .vsub (vh .f32 .rup) (.mem ⟨9, 2, -1⟩) (.reg 31) (.imm 0xBF80)),
     (vec 0x02 0x6 1 0 0 30 (memBits 3 5) 29, .vmul (vh .f16 .rtz) (.reg 30) (.mem ⟨9, 3, 5⟩) (.reg 29)),
     (vec 0x03 0x1 0 0 0 30 31 29, .vmulh (vh .s16) (.reg 30) (.reg 31) (.reg 29)),
     (vec 0x04 0x7 0 0 0 30 31 29, .vmin (vh .bf16) (.reg 30) (.reg 31) (.reg 29)),
     (vec 0x05 0x3 0 0 0 30 31 29, .vmax (vh .z8) (.reg 30) (.reg 31) (.reg 29)),
     (vec 0x06 0x0 0 1 0 30 31 0, .vabs (vh .s8 .rne true) (.reg 30) (.reg 31)),
     (vec 0x07 0x4 0 0 0 30 31 0, .vneg (vh .z16) (.reg 30) (.reg 31)),
     (vec 0x08 0x5 0 0 0 30 31 29, .vmac (vh .z32) (.reg 30) (.reg 31) (.reg 29)),
     (vec 0x09 0x0 0 0 0 30 31 29, .vdot4 (vh .s8) (.reg 30) (.reg 31) (.reg 29)),
     (vec 0x10 0x8 2 0 0 30 31 29, .vfma (vh .f32 .rdn) (.reg 30) (.reg 31) (.reg 29)),
     (vec 0x11 0x8 0 1 0 30 31 29, .vfms (vh .f32 .rne true) (.reg 30) (.reg 31) (.reg 29)),
     (vec 0x12 0x8 0 0 0 30 31 29, .vfnma (vh .f32) (.reg 30) (.reg 31) (.reg 29)),
     (vec 0x13 0x8 0 0 0 30 31 29, .vdiv (vh .f32) (.reg 30) (.reg 31) (.reg 29)), (vec 0x14 0x8 0 0 0 30 31 0, .vsqrt (vh .f32) (.reg 30) (.reg 31)),
     (vec 0x15 0x8 0 0 0 30 31 0, .vrsqrt (vh .f32) (.reg 30) (.reg 31)), (vec 0x16 0x8 0 0 0 30 31 0, .vrcp (vh .f32) (.reg 30) (.reg 31)),
     (vec 0x17 0x8 0 0 0 30 31 0, .vexp2 (vh .f32) (.reg 30) (.reg 31)), (vec 0x18 0x8 0 0 0 30 31 0, .vlog2 (vh .f32) (.reg 30) (.reg 31)),
     (vec 0x19 0x8 0 0 0 30 31 0, .vtanh (vh .f32) (.reg 30) (.reg 31)), (vec 0x1A 0x8 0 0 0 30 31 0, .vsigm (vh .f32) (.reg 30) (.reg 31)),
     (vec 0x1B 0x8 0 0 0 30 31 29, .vscale (vh .f32) (.reg 30) (.reg 31) (.reg 29))] = true := by decide +kernel

/-- R132, R200, R201, opcodes 0x20 to 0x38. -/
theorem test_vector_bit_and_predicate_words : reads
    [(vec 0x20 0x5 0 0 0 30 31 29, .vand (vh .z32) (.reg 30) (.reg 31) (.reg 29)), (vec 0x21 0x5 0 0 0 30 31 29, .vor (vh .z32) (.reg 30) (.reg 31) (.reg 29)),
     (vec 0x22 0x5 0 0 0 30 31 29, .vxor (vh .z32) (.reg 30) (.reg 31) (.reg 29)), (vec 0x23 0x5 0 0 0 30 31 29, .vandn (vh .z32) (.reg 30) (.reg 31) (.reg 29)),
     (vec 0x24 0x5 0 0 0 30 31 29, .vsll (vh .z32) (.reg 30) (.reg 31) (.reg 29)), (vec 0x25 0x5 0 0 0 30 31 29, .vsrl (vh .z32) (.reg 30) (.reg 31) (.reg 29)),
     (vec 0x26 0x5 0 0 0 30 31 29, .vsra (vh .z32) (.reg 30) (.reg 31) (.reg 29)), (vec 0x27 0x5 0 0 0 30 31 0, .vclz (vh .z32) (.reg 30) (.reg 31)),
     (vec 0x28 0x5 0 0 0 30 31 0, .vpopc (vh .z32) (.reg 30) (.reg 31)), (vec 0x29 0xD 0 0 0 30 31 0, .vmov (vh .e2m1) (.reg 30) (.reg 31)),
     (vec 0x2A 0xE 0 0 0 30 31 29, .vsel (vh .s4) (.reg 30) (.reg 31) (.reg 29)),
     (vec 0x30 0x8 0 0 7 6 31 29, .vcmp (vh .f32) .ord (.reg 6) (.reg 31) (.reg 29)), (vec 0x30 0x2 0 0 3 6 31 29, .vcmp (vh .s32) .le (.reg 6) (.reg 31) (.reg 29)),
     (vec 0x31 0x5 0 0 0 6 7 2 0, .pand (vh .z32 (pred := 0)) 6 7 2), (vec 0x32 0x5 0 0 0 6 7 2 0, .por (vh .z32 (pred := 0)) 6 7 2),
     (vec 0x33 0x5 0 0 0 6 7 2 0, .pxor (vh .z32 (pred := 0)) 6 7 2), (vec 0x34 0x5 0 0 0 6 7 0 0, .pnot (vh .z32 (pred := 0)) 6 7),
     (vec 0x35 0x5 0 0 0 6 (immBits 64) 0 0, .pset (vh .z32 (pred := 0)) 6 (.imm 64)), (vec 0x36 0x5 0 0 0 30 7 0 0, .pget (vh .z32 (pred := 0)) 30 7),
     (vec 0x37 0x5 0 0 0 30 7 0 0, .pcnt (vh .z32 (pred := 0)) 30 7), (vec 0x38 0x5 0 0 0 6 7 0 0, .pfirst (vh .z32 (pred := 0)) 6 7)]
    = true := by decide +kernel

/-- R132, R203 to R207, opcodes 0x40 to 0x68; ext holds the source type of a conversion. -/
theorem test_vector_conversion_and_permute_words : reads
    [(vec 0x40 0x2 1 0 0x8 30 31 0, .vcvt (vh .s32 .rtz) .f32 (.reg 30) (.reg 31)),
     (vec 0x41 0x9 0 1 0x8 30 31 29, .vcvtsc (vh .e4m3 .rne true) .f32 (.reg 30) (.reg 31) (.reg 29)),
     (vec 0x42 0x0 0 1 0x2 30 31 (immBits 3), .vpack (vh .s8 .rne true) .s32 (.reg 30) (.reg 31) 3),
     (vec 0x43 0x8 0 0 0x6 30 31 (immBits 1), .vunpack (vh .f32) .f16 (.reg 30) (.reg 31) 1),
     (vec 0x44 0x8 3 0 0 30 31 0, .vround (vh .f32 .rup) (.reg 30) (.reg 31)),
     (vec 0x45 0x8 0 0 0 30 31 (2 * 2 ^ 19 + 17), .vql4 (vh .f32) (.reg 30) (.reg 31) (.scal 17)),
     (vec 0x50 0x8 0 0 0 30 31 0, .vrsum (vh .f32) (.reg 30) (.reg 31)), (vec 0x51 0x8 0 0 0 30 31 0, .vrmax (vh .f32) (.reg 30) (.reg 31)),
     (vec 0x52 0x8 0 0 0 30 31 0, .vrmin (vh .f32) (.reg 30) (.reg 31)), (vec 0x53 0x0 0 0 0 30 31 29, .vrdot (vh .s8) (.reg 30) (.reg 31) (.reg 29)),
     (vec 0x54 0x2 0 0 0 30 31 0, .vscan (vh .s32) (.reg 30) (.reg 31)), (vec 0x55 0x2 0 0 0 30 31 0, .vargmax (vh .s32) (.reg 30) (.reg 31)),
     (vec 0x60 0x5 0 0 0 30 31 29, .vperm (vh .z32) (.reg 30) (.reg 31) (.reg 29)),
     (vec 0x61 0x5 0 0 0 30 31 (immBits 0xFFFF), .vrot (vh .z32) (.reg 30) (.reg 31) (.imm 0xFFFF)),
     (vec 0x62 0x5 0 0 0 30 31 (immBits 32), .vshfl (vh .z32) (.reg 30) (.reg 31) (.imm 32)),
     (vec 0x63 0x5 0 0 0 30 31 (immBits 7), .vbcast (vh .z32) (.reg 30) (.reg 31) (.imm 7)),
     (vec 0x64 0x5 0 0 0 30 31 29, .vzip (vh .z32) (.reg 30) (.reg 31) (.reg 29)), (vec 0x65 0x5 0 0 0 30 31 29, .vunzip (vh .z32) (.reg 30) (.reg 31) (.reg 29)),
     (vec 0x66 0x5 0 0 0 30 31 29, .vtrn (vh .z32) (.reg 30) (.reg 31) (.reg 29)), (vec 0x67 0x5 0 0 0 30 31 0, .vcompress (vh .z32) (.reg 30) (.reg 31)),
     (vec 0x68 0x5 0 0 0 30 31 0, .vexpand (vh .z32) (.reg 30) (.reg 31))] = true := by decide +kernel

/-- R132, R208 to R214, opcodes 0x70 to 0x83; the worked words of R261 among them. -/
theorem test_vector_memory_and_stream_words : reads
    [(vec 0x70 0x1 0 0 0 30 (memBits 1 0x1FFF) 0, .vld (vh .s16) (.reg 30) (.mem ⟨9, 1, -1⟩)),
     (vec 0x71 0x6 2 1 0 (memBits 2 4) 30 0, .vst (vh .f16 .rdn true) (.mem ⟨9, 2, 4⟩) (.reg 30)),
     (vec 0x72 0x2 0 0 0 30 (memBits 0 4) 29, .vgath (vh .s32) (.reg 30) (.mem ⟨9, 0, 4⟩) (.reg 29)),
     (vec 0x73 0x2 0 0 0 (memBits 0 4) 30 29, .vscat (vh .s32) (.mem ⟨9, 0, 4⟩) (.reg 30) (.reg 29)),
     (vec 0x74 0x2 0 0 0 30 (immBits 3) 0, .vdq (vh .s32) 30 3), (vec 0x75 0x5 0 0 0 (memBits 0 4) 29 (immBits 3), .vaq (vh .z32) ⟨9, 0, 4⟩ 29 3),
     ([0x5D480200, 0x00488000, 0x60000000], .vaq ⟨1, 0, 0, .s32, .rne, false, false⟩ ⟨1, 0, 0⟩ 2 0),
     ([0x5D108200, 0x00000003, 0x00000300], .vdq ⟨2, 1, 0, .s32, .rne, false, false⟩ 3 0),
     (vec 0x80 0x5 0 0 15 0 (immBits 2) (immBits 0xD) 0, .vloop (vh .z32 (pred := 0)) 15 2 0xD),
     (vec 0x81 0x5 0 0 0 0 31 (immBits 3), .vcpush (vh .z32) (.reg 31) 3), (vec 0x82 0x5 0 0 0 30 (immBits 3) 0 0, .vcpop (vh .z32 (pred := 0)) 30 3),
     (vec 0x83 0x5 0 0 0 0 (immBits 3) 0 0, .vcflush (vh .z32 (pred := 0)) 3)] = true := by decide +kernel

/-- An engine word (R119): engine, opcode and payload; guard 3, colour 6, k17 waited for by 2, k33 signalled by 4, and a barrier
at b9 + 16 × 5. -/
def eng (e op p : Nat) : List Granule :=
  [gran [(30, 2), (28, e), (22, op), (17, 16 + 3), (14, 6), (6, 17), (2, 2)], gran [(24, 33), (20, 4), (19, 1), (15, 9), (0, 5)],
   .ofNat 32 p, .ofNat 32 (p / 2 ^ 32), .ofNat 32 (p / 2 ^ 64), .ofNat 32 (p / 2 ^ 96)]

/-- The header of such a word. -/
def eh : EHdr := ⟨some 3, 6, 17, 2, 33, 4, some ⟨9, 5⟩⟩

/-- Bits of a field of a payload. -/
def fld (l : List (Nat × Nat)) : Nat := l.foldl (fun n f => n + f.2 * 2 ^ f.1) 0

/-- R121, R133: a nest of three dimensions, of 31, of l5 and of 1. -/
theorem test_pump_words : reads
    [(eng 0 0 (fld [(0, 9), (4, 7), (8, 0x3FFFF), (44, 30), (49, 29), (54, 1), (64, 31), (70, 32 + 5), (76, 1), (100, 1), (102, 2), (104, 3)]),
      .pcopy eh ⟨9, 7, 0x3FFFF, 0, 30, 29, true, [⟨.count 31, 1, 2⟩, ⟨.loop 5, 3, 0⟩, ⟨.count 1, 0, 0⟩]⟩),
     (eng 0 1 (fld [(0, 9), (4, 7), (8, 4), (26, 8), (44, 30), (64, 31), (70, 2), (102, 2)]),
      .pgath eh ⟨9, 7, 4, 8, 30, 0, false, [⟨.count 31, 0, 2⟩, ⟨.count 2, 0, 0⟩]⟩),
     (eng 0 2 (fld [(0, 9), (4, 7), (8, 4), (26, 8), (44, 30), (64, 31), (70, 2), (104, 1)]),
      .pscat eh ⟨9, 7, 4, 8, 30, 0, false, [⟨.count 31, 0, 0⟩, ⟨.count 2, 1, 0⟩]⟩),
     (eng 0 3 (fld [(4, 7), (26, 8), (44, 30), (64, 31), (102, 1)]), .pfill eh ⟨0, 7, 0, 8, 30, 0, false, [⟨.count 31, 0, 1⟩]⟩),
     (eng 0 4 (fld [(0, 9), (4, 7), (26, 8), (44, 30), (64, 31)]), .pring eh ⟨9, 7, 0, 8, 30, 0, false, [⟨.count 31, 0, 0⟩]⟩),
     (eng 0 5 (fld [(0, 9), (4, 7), (44, 30), (49, 29)]), .ppage eh 9 7 30 29)] = true := by decide +kernel

/-- R122, R133, R311. -/
theorem test_matrix_words : reads
    [(eng 1 0 (fld [(0, 9), (4, 7), (8, 2), (10, 1)]), .mmul eh 2 9 7 true),
     (eng 1 1 (fld [(0, 9), (4, 7), (8, 2), (11, 7)]), .msl eh 2 9 7 false 7),
     (eng 1 2 (fld [(0, 9), (4, 7), (8, 2), (64, 0x0123456789ABCDEF)]), .mkat eh 2 9 7 false 0x0123456789ABCDEF),
     (eng 1 3 (fld [(8, 2), (14, 9), (18, 8 + 3), (22, 0xFFFFFF)]), .mst eh 2 9 .e4m3 true 0xFFFFFF),
     (eng 1 4 (fld [(8, 2), (14, 9), (22, 64)]), .mld eh 2 9 64), (eng 1 5 (fld [(8, 2)]), .mzero eh 2), (eng 1 6 0, .mrel eh)]
    = true := by decide +kernel

/-- R123, R342: rows 3 to 6 and columns 100 to 127 of the rectangle. -/
theorem test_well_words : reads
    [(eng 2 0 (fld [(0, 3), (5, 3), (10, 100), (17, 27), (24, 1), (64, 0x7FFFFFF), (91, 30)]), .wload eh ⟨⟨3, 3⟩, 100, 27⟩ true 0x7FFFFFF 30),
     (eng 2 1 (fld [(0, 3), (5, 3), (10, 100), (17, 27), (24, 1)]), .wswap eh ⟨⟨3, 3⟩, 100, 27⟩ true),
     (eng 2 2 (fld [(0, 3), (5, 3), (10, 100), (17, 27), (28, 9), (32, 63), (38, 2), (64, 7), (68, 1), (70, 1)]),
      .wfeed eh ⟨⟨3, 3⟩, 100, 27⟩ (.stream 9 true) 63 2 (some 7)),
     (eng 2 2 (fld [(0, 3), (5, 3), (10, 100), (17, 27), (32, 63), (38, 2), (69, 1)]), .wfeed eh ⟨⟨3, 3⟩, 100, 27⟩ .buf 63 2 none),
     (eng 2 3 (fld [(0, 3), (5, 3), (28, 9), (32, 63), (38, 2), (44, 4), (47, 1)]), .wdrain eh ⟨3, 3⟩ 9 63 2 .ep128 true),
     (eng 2 4 (fld [(0, 3), (5, 3), (32, 1), (35, 1)]), .wmode eh ⟨3, 3⟩ .int4 true),
     (eng 2 5 (fld [(0, 3), (5, 3), (32, 1), (34, 1), (35, 4), (64, 17)]), .wpipe eh ⟨3, 3⟩ .sigmoid 17 true false true),
     (eng 2 6 (fld [(0, 3), (5, 3), (10, 100), (17, 27), (32, 63), (64, 17)]), .wchk eh ⟨⟨3, 3⟩, 100, 27⟩ 63 17)] = true := by decide +kernel

/-- R124, R125, R379. -/
theorem test_collective_words : reads
    [(eng 3 0 (fld [(0, 9), (4, 7), (8, 8), (12, 5), (16, 4), (19, 255), (64, 0xFFFFFFFF)]), .cred eh 7 9 .f32 0xFFFFFFFF .xor .system 255),
     (eng 3 1 (fld [(0, 9), (4, 7), (8, 2), (16, 1), (19, 1), (64, 5)]), .cbcast eh 7 9 .s32 5 .herd 1),
     (eng 3 2 (fld [(0, 9), (4, 7), (8, 2), (16, 2), (19, 1), (64, 5)]), .cgath eh 7 9 .s32 5 .die 1),
     (eng 3 3 (fld [(0, 9), (4, 7), (8, 2), (16, 3), (19, 1), (64, 5)]), .cscat eh 7 9 .s32 5 .module 1),
     (eng 3 4 (fld [(16, 3), (19, 1)]), .csync eh .module 1)] = true := by decide +kernel

/-- The decoder refuses the granules by name. -/
def refuses (w : List Granule) : Bool :=
  match decodeGranules w with
  | .ok _ => false
  | .error _ => true

/-- Words that some field or class makes illegal (R109, R110, R119 to R121, R132). -/
theorem test_illegal_words : List.all [[gran [(30, 3)]], rr 0x00 0x01C 3 5 9, rr 0x00 0x013 3 5 9, rr 0x02 0 3 5 4, rr 0x04 0 3 5, ri 0x0C 3 5 64,
      ri 0x13 8 5 0, ri 0x14 3 5 0, ri 0x14 3 5 3, ls 0x2C 16 9, at_ 0x30 3 9 9 5, at_ 0x31 3 9 10 5,
      [gran [(24, 0x32), (16, 1), (13, 5)]], rr 0x32 1 3 16 5, [gran [(24, 0x32), (16, 1), (9, 0), (0, 6)]],
      [gran [(24, 0x3F), (19, 3), (9, 0x009)]], vec 0x0A 0x5 0 0 0 1 2 3, vec 0x00 0xF 0 0 0 1 2 3, vec 0x00 0x5 0 0 1 1 2 3,
      vec 0x00 0x5 0 0 0 (2 * 2 ^ 19) 2 3, eng 0 6 0, eng 1 0 (2 ^ 11), eng 2 1 (2 ^ 25), eng 3 4 1]
    refuses = true := by decide +kernel

/-! ## Ill-formed terms -/

/-- A header for which LAT is short. -/
def slow (ty : ElemType) : VHdr := ⟨0, 0, 0, ty, .rne, false, false⟩

/-- A pump payload with one dimension. -/
def pump1 : Pump := ⟨9, 7, 4, 8, 30, 0, false, [⟨.count 31, 0, 0⟩]⟩

/-- No term is well-formed. -/
def illFormed (l : List Instr) : Bool := l.all fun i => !i.wf

/-- R179: a count of zero; R190 to R201: kinds of operands and types that a word does not take. -/
theorem test_operand_kinds_are_checked : illFormed
    [.ksig 3 0, .kwait 3 0, .vadd (vh .s32) (.scal 3) (.reg 1) (.reg 2), .vadd (vh .s32) (.mem ⟨1, 3, 0⟩) (.reg 1) (.reg 2),
     .vadd (vh .e4m3) (.reg 3) (.reg 1) (.reg 2), .vmulh (vh .f32) (.reg 3) (.reg 1) (.reg 2),
     .vand (vh .s4) (.reg 3) (.reg 1) (.imm 1), .vdot4 (vh .s16) (.reg 3) (.reg 1) (.reg 2), .vfma (vh .s32) (.reg 3) (.reg 1) (.reg 2),
     .vcmp (vh .s32) .eq (.reg 8) (.reg 1) (.reg 2), .vcmp (vh .s32) .un (.reg 3) (.reg 1) (.reg 2),
     .pset (vh .z32 (pred := 0)) 3 (.imm 65), .pset (vh .z32 (pred := 0)) 3 (.reg 1), .pset (vh .z32) 3 (.imm 1), .pand (vh .s32 (pred := 0)) 1 2 3,
     .vrsum (vh .f32) (.mem ⟨1, 0, 0⟩) (.reg 1), .vrsum (vh .f32) (.reg 1) (.scal 1), .vrdot (vh .s32) (.reg 3) (.reg 1) (.reg 2),
     .vrot (vh .s32) (.reg 3) (.reg 1) (.reg 2), .vperm (vh .s4) (.reg 3) (.reg 1) (.reg 2), .vql4 (vh .f32) (.reg 3) (.reg 1) (.reg 2),
     .vql4 (vh .f16) (.reg 3) (.reg 1) (.scal 2), .vcvtsc (vh .f32) .e4m3 (.reg 3) (.reg 1) (.imm 2), .vcvtsc (vh .f32) .f16 (.reg 3) (.reg 1) (.reg 2),
     .vcvt (vh .s32) .s16 (.reg 3) (.reg 1), .vcvt (vh .s32) .s32 (.reg 3) (.reg 1), .vpack (vh .s8) .s32 (.reg 3) (.reg 1) 4,
     .vunpack (vh .s32) .s32 (.reg 3) (.reg 1) 0, .vld (vh .s32) (.reg 3) (.reg 1), .vld (vh .s4) (.reg 3) (.mem ⟨1, 0, 0⟩),
     .vst (vh .s32) (.mem ⟨1, 3, 0⟩) (.reg 1), .vgath (vh .s32) (.reg 3) (.mem ⟨1, 1, 0⟩) (.reg 1),
     .vscat (vh .s32) (.mem ⟨1, 0, 0⟩) (.reg 1) (.scal 1), .vaq (vh .s32) ⟨1, 1, 0⟩ 3 0, .vaq (vh .f32) ⟨1, 0, 0⟩ 3 0,
     .vcpush (vh .z32) (.imm 1) 0, .vcpop (vh .z32) 3 0, .vloop (vh .z32 (pred := 0)) 0 0 0, .vloop (vh .z32 (pred := 0)) 0 7 0,
     .vloop (vh .z32 (pred := 0)) 0 1 4, .vloop { vh .z32 (pred := 0) with lb := true } 0 1 0] = true := by decide +kernel

/-- R116, R194 to R208: rounding and saturation that a word does not take, and a LAT below the least. -/
theorem test_rounding_and_latency_are_checked : illFormed
    [.vadd (vh .s32 .rtz) (.reg 3) (.reg 1) (.reg 2), .vmin (vh .f32 .rtz) (.reg 3) (.reg 1) (.reg 2), .vmac (vh .s32 .rup) (.reg 3) (.reg 1) (.reg 2),
     .vst (vh .f32 .rtz) (.mem ⟨1, 0, 0⟩) (.reg 1), .vst (vh .s16 .rtz) (.mem ⟨1, 0, 0⟩) (.reg 1), .vcvt (vh .s16 .rtz) .z16 (.reg 3) (.reg 1),
     .vround (vh .f32 .rne true) (.reg 3) (.reg 1), .vadd (slow .s32) (.reg 3) (.reg 1) (.reg 2),
     .vadd { slow .f32 with lat := 3 } (.reg 3) (.reg 1) (.reg 2), .vdiv { slow .f32 with lat := 11 } (.reg 3) (.reg 1) (.reg 2),
     .vcvtsc (vh .s8 .rne true) .f32 (.reg 3) (.reg 1) (.reg 2)] = true := by decide +kernel

/-- R120, R121, R266, R342, R379: fields of engine words that do not act, absent dimensions, and values that are reserved. -/
theorem test_engine_fields_are_checked : illFormed
    [.mrel { eh with wcnt := 0 }, .mrel { eh with scnt := 0 }, .pcopy eh { pump1 with tok := 0 }, .pcopy eh { pump1 with hreg := 30 },
     .pcopy eh { pump1 with dims := [] }, .pcopy eh { pump1 with dims := [⟨.count 0, 0, 0⟩] }, .pcopy eh { pump1 with ring := true },
     .pcopy eh { pump1 with dims := List.replicate 7 ⟨.count 1, 0, 0⟩ }, .pgath eh pump1, .pscat eh { pump1 with ring := true },
     .pfill eh pump1, .pring eh pump1, .ppage eh 9 7 0 0, .ppage eh 9 7 30 30, .wmode eh ⟨0, 0⟩ .mxfp4 true, .csync eh .core 0,
     .cred eh 7 9 .f32 0 .sum .herd 0, .cbcast eh 7 9 .f32 1 .core 0] = true := by decide +kernel

/-! ## Small states -/

/-- A record (R221). -/
def rec (base extent : Nat) (bounds colour fmt str0 str1 : Nat := 0) : Image :=
  .ofNat 256 (base + extent * 2 ^ 64 + str0 * 2 ^ 96 + str1 * 2 ^ 128 + fmt * 2 ^ 160 + bounds * 2 ^ 168 + colour * 2 ^ 172)

/-- A gang of one herd with the matrix engine, four accumulators, a footprint of 128 pages and PASID 7. -/
def heldOne : Held := ⟨0, 0, 0, 1, 7, true, 4, 128, false, false, 0, 0, 0, 0, 0⟩

/-- A stray at 0x1000: s1 = 5, s2 = −7, s3 = 2^63, s4 = 64; b1 covers 4 KiB of its own scratchpad from 0x1000, of s32, colour 2. -/
def core1 : Core := { Core.idle with
  front := .stray, pc := 0x1000, s := [0, 5, 0xFFFFFFFFFFFFFFF9, 0x8000000000000000, 64] ++ .replicate 27 0
  b := [0, rec 0x2000000000001000 4096 0 2 2 8 16] ++ .replicate 14 0 }

/-- The same core, attached to the shared stream. -/
def core2 : Core := { core1 with front := .attached }

/-- A herd context of given cores. -/
def ctxOf (cs : List Core) : HerdCtx := { HerdCtx.idle with
  held := some heldOne, cores := cs, stream := 0x1000, acc := [] }

/-- A part of one herd and one die, all memory zero; core 0 executes. -/
def part (cs : List Core) : State := { State.reset with
  mem := ⟨[], []⟩, herds := [{ Herd.idle with act := ctxOf cs, phys := List.replicate 8 .sound }], dies := [.idle] }

/-- The part of a core and an idle one. -/
def with1 (c : Core) : State := part [c, .idle]

/-- Queue 5: class and level given, ring of 16 packets at 0x20000, record at 0x30000, vector 9, PASID 7; one packet is due. -/
def queue5 : Queue := ⟨5, 0, 3, false, 4, 9, 7, 0x20000, 0x30000, 0, 1, 0, 0, 0, 0, 0, none, none, none, false, 0, false, [], false, none⟩

/-- The answer is that state. -/
def nextIs (o : Out) (t : State) : Bool :=
  match o with
  | .next s => decide (s = t)
  | _ => false

/-- The answer is a state of which something holds. -/
def nextHas (o : Out) (f : State → Bool) : Bool :=
  match o with
  | .next s => f s
  | _ => false

/-- The answer is a state in which something holds of a core. -/
def coreHas (o : Out) (h c : Nat) (f : Core → Bool) : Bool := nextHas o fun t => (t.core? h c).any f

/-- A core with something in a scalar register. -/
def withS (r : Nat) (v : Word) (c : Core) : Core := { c with s := c.s.set r v }

/-! ## Scalar words -/

/-- DecodeAfterEncode, WordsHaveOneMeaning, StepRunsTheWord: the words above are such words. -/
theorem test_encode_witness : (Instr.add 1 2 3).wf = true ∧ encode (.add 1 2 3) ≠ [] ∧
    decodeGranules [0x40078200#32, 0x00800004#32, 0x40000C00#32] = .ok (.vadd ⟨0, 15, 0, .s32, .rne, false, false⟩ (.reg 4) (.reg 4) (.scal 3)) ∧
    (0xC0000000#32).toNat / 2 ^ 30 = 3 ∧ (0x05000000#32).toNat / 2 ^ 30 = 0 ∧ (0x3E000000#32).toNat / 2 ^ 24 = 0x3E := by
  decide +kernel

/-- The state whose turn runs the word of StepRunsTheWord, before and after the turn is taken off. -/
def fetching (w : Granule) : State := (with1 core1).withFetchWord 32 w.toNat

def fetched (w : Granule) : State :=
  { ({ fetching w with agenda := [] } : State).advanceTo 0 with cur := (0, 0) }

/-- Whether the hypotheses of StepRunsTheWord about core and translation hold. -/
def delivers (w : Granule) : Bool :=
  let u := fetched w
  match u.core? 0 0, u.translate 0 (u.pasidOf 0) 0x1000 ⟨true, false, true⟩ with
  | some x, (v, .loc l host) =>
    u.mayIssue 0 x && x.boundary.isNone && x.block.isNone && x.join.isNone && !x.inLoop && !host && l == 0x1000 &&
      (match v.ctx? 0 with
        | some y => y.granule v 0 0x1000 l == w && y.granulesAt v 0 0x1000 l 1 == [w] && v.linesSeen (y.granuleLocs 0 0x1000 l 1) == v &&
          (match decodeGranules [w] with
            | .ok i =>
              let p := (v.modCtx 0 fun z => { z with code := holdCode z.code 0 0x1000 [w] }).deliver 0 0 x i 4
              !strayBody x i && x.tokens == 0 && p.2 && (p.1.readTokens 0 0 i).2
            | .error _ => true)
        | none => false)
  | _, _ => false

/-- StepRunsTheWord: the step runs add s4, s1, s2 (R158), and an unassigned major takes the illegal-encoding trap with the
granule in xtval (R109, R393). -/
theorem test_step_runs_the_word :
    (fetching 0x00204400).agenda = [⟨0, .issue 0 0⟩] ∧ granules 0x00204400 = some 1 ∧
    delivers 0x00204400 = true ∧ delivers 0x05000000 = true ∧ granules 0xC0000000 = none ∧
    coreHas (step (fetching 0x00204400)) 0 0 (fun c => c.gs 4 == 0xFFFFFFFFFFFFFFFE && c.pc == 0x1004) = true ∧
    coreHas (step (fetching 0x05000000)) 0 0 (fun c => c.x.xcause == 1 && c.x.xtval == 0x05000000 && c.x.xepc == 0x1000) = true ∧
    coreHas (step (fetching 0xC0000000)) 0 0 (fun c => c.x.xcause == 1 && c.x.xtval == 0xC0000000) = true := by
  decide +kernel

/-- Every word of a list, run by core 1, leaves a value in s9. -/
def leaves (c : Core) (l : List (Instr × Word)) : Bool :=
  l.all fun x => coreHas (exec x.1 (with1 c)) 0 0 fun e => e.gs 9 == x.2 && e.pc == c.pc + 4

/-- ScalarFunctions: R158 on s1 = 5, s2 = −7, s3 = 2^63, s4 = 64. -/
theorem test_integer_functions : (with1 core1).Runs core1 ∧ core1.free [1, 2] [9] = true ∧ leaves core1
    [(.add 9 1 2, -2), (.sub 9 1 2, 12), (.and 9 1 2, 1), (.or 9 1 2, -3), (.xor 9 1 2, -4), (.andn 9 1 2, 4),
     (.sll 9 1 4, 5), (.srl 9 3 1, 0x0400000000000000), (.sra 9 3 1, 0xFC00000000000000), (.rol 9 3 1, 16), (.ror 9 1 1, 0x2800000000000000),
     (.slt 9 2 1, 1), (.sltu 9 2 1, 0), (.seq 9 1 1, 1), (.sne 9 1 1, 0), (.min 9 1 3, 0x8000000000000000), (.max 9 1 3, 5),
     (.minu 9 1 3, 5), (.maxu 9 1 3, 0x8000000000000000), (.clz 9 1, 61), (.clz 9 0, 64), (.ctz 9 4, 6), (.ctz 9 0, 64), (.popc 9 2, 62),
     (.sextB 9 2, -7), (.sextH 9 3, 0), (.sextW 9 2, -7), (.zextB 9 2, 0xF9), (.zextH 9 2, 0xFFF9), (.zextW 9 2, 0xFFFFFFF9)] = true := by
  refine ⟨rfl, ?_, ?_⟩ <;> decide +kernel

/-- ScalarFunctions: R159, R160, R164; andi zero-extends, sltiu sign-extends and compares unsigned; auipc's top byte is 0. -/
theorem test_immediate_functions : core1.free [] [9] = true ∧ leaves core1
    [(.addi 9 1 (-8), -3), (.andi 9 2 0x3FFF, 0x3FF9), (.ori 9 1 0x2000, 0x2005), (.xori 9 1 0x3FFF, 0x3FFA), (.slli 9 1 63, 0x8000000000000000),
     (.srli 9 2 63, 1), (.srai 9 2 63, -1), (.slti 9 2 (-6), 1), (.sltiu 9 1 (-1), 1), (.lui 9 (-1), -8192), (.lui 9 1, 8192),
     (.auipc 9 1, 0x3000), (.auipc 9 (-1), 0x00FFFFFFFFFFF000), (.ptag 9 2 1, 0x05FFFFFFFFFFFFF9), (.pspace 9 3, 4), (.prank 9 2, 31),
     (.padd 9 2 1, 0xFFFFFFFFFFFFFFFE), (.psub 9 4 1, 59), (.psub 9 1 4, -59), (.paddr 9 2, 0x00FFFFFFFFFFFFF9)] = true := by
  constructor <;> decide +kernel

/-- PendingRegisters: R161 and R163, with the fixed results of division by zero and of −2^63 / −1. -/
theorem test_late_results :
    let c := withS 5 (-1) (withS 6 0x3FF8000000000000 (withS 7 0x7E00 core1))
    ([(.mul 9 1 2, -35), (.mulh 9 2 1, -1), (.mulhu 9 2 1, 4), (.mulhsu 9 2 2, 0xFFFFFFFFFFFFFFF9), (.div 9 2 1, -1), (.divu 9 1 0, -1),
      (.rem 9 2 1, -2), (.remu 9 1 0, 5), (.div 9 3 5, 0x8000000000000000), (.rem 9 3 5, 0),
      (.cvtF64S64 9 1 .rne, 0x4014000000000000), (.cvtF32S64 9 2 .rne, 0xC0E00000), (.cvtS64F64 9 6 .rne, 2), (.cvtS64F64 9 6 .rtz, 1),
      (.cvtS64F32 9 0 .rne, 0), (.cvtF64F32 9 0, 0), (.cvtF32F64 9 6 .rne, 0x3FC00000), (.cvtF32F16 9 7, 0x7FC00000),
      (.cvtF16F32 9 0 .rne, 0), (.cvtF32Bf16 9 0, 0), (.cvtBf16F32 9 0 .rne, 0)] : List (Instr × Word)).all fun x =>
        coreHas (exec x.1 (with1 c)) 0 0 fun e => e.isPend 9 && e.landings == [⟨9, x.2⟩] && e.gs 9 == 0 := by decide +kernel

/-- PendingRegisters: a word that reads or writes a pending register stays; a result lands in its register, in a running
context and in one that is being spilled. -/
theorem test_pending_and_landing :
    let c := (core1.post 9 77).post 8 66
    let h : Herd := { Herd.idle with act := ctxOf [.idle], old := some (ctxOf [c]) }
    c.free [9] [] = false ∧ c.free [1] [9] = false ∧ nextIs (exec (.add 9 1 2) (with1 c)) (with1 c) = true ∧
    nextIs (exec (.add 1 9 2) (with1 c)) (with1 c) = true ∧ takeLanding 8 c.landings = some (⟨8, 66⟩, [⟨9, 77⟩]) ∧
    coreHas (exec (.scalarResultLanding 0 0 8) (with1 c)) 0 0 (fun e => e.gs 8 == 66 && !e.isPend 8 && e.isPend 9 && e.landings == [⟨9, 77⟩]) = true ∧
    takeLanding 7 c.landings = none ∧ nextIs (exec (.scalarResultLanding 0 0 7) (with1 c)) (with1 c) = true ∧
    nextHas (exec (.scalarResultLanding 0 0 9) { with1 c with herds := [h] }) (fun t =>
      ((t.herds[0]?).bind fun x => x.old.bind fun o => o.cores[0]?).any fun (e : Core) => e.gs 9 == (77 : Word) && !e.isPend 9) = true ∧
    (core1.ps 9 5).gs 9 = 5 ∧ (core1.ps 0 5) = core1 ∧ core1.s.length = 32 := by decide +kernel

/-- LoopRegistersAndGuards: R168 keeps 32 bits; R174 binds what is pending on the slot. -/
theorem test_loop_registers_and_guards :
    let e : Entry := ⟨.mzero ⟨some 3, 0, 0, 0, 0, 0, none⟩ 0, 4, none, some 3, false, none, false, true, 0, 0, 0, 0, 0, 0, 0, [], none⟩
    let c := { core1 with g := core1.g.set 3 .opened, eq := [[], [e], [], []] }
    coreHas (exec (.lset 7 2 (-1)) (with1 core1)) 0 0 (fun k => k.gl 7 == 0xFFFFFFF8) = true ∧
    coreHas (exec (.gsetOpen 15) (with1 core1)) 0 0 (fun k => k.g.getD 15 .yes == .opened) = true ∧
    coreHas (exec (.gsetNe 3 1) (with1 c)) 0 0 (fun k => k.g.getD 3 .no == .yes &&
      k.eq == [[], [{ e with outcome := some true, pending := none }], [], []]) = true ∧
    coreHas (exec (.gsetEq 3 1) (with1 c)) 0 0 (fun k => k.g.getD 3 .yes == .no &&
      k.eq == [[], [{ e with outcome := some false, pending := none }], [], []]) = true ∧
    core1.free [1] [] = true := by decide +kernel

/-! ## Control flow -/

/-- BranchesAndJumps: R165 to R167; a stray goes on at once, an attached core waits for the resolution; a target off a granule
boundary traps with the target in xtval. -/
theorem test_branches_and_jumps :
    core1.free [1, 2] [] = true ∧ core1.free [] [31] = true ∧ core1.free [1] [9] = true ∧
    coreHas (exec (.bne 1 2 (-3)) (with1 core1)) 0 0 (fun c => c.pc == 0xFF4 && c.block.isNone) = true ∧
    coreHas (exec (.bltu 2 1 5) (with1 core2)) 0 0 (fun c => c.pc == 0x1004 && c.block == some .branch) = true ∧
    coreHas (exec (.blt 2 1 5) (with1 core1)) 0 0 (fun c => c.pc == 0x1014) = true ∧
    coreHas (exec (.beq 1 1 1) (with1 core1)) 0 0 (fun c => c.pc == 0x1004) = true ∧
    coreHas (exec (.bge 1 2 2) (with1 core1)) 0 0 (fun c => c.pc == 0x1008) = true ∧
    coreHas (exec (.bgeu 1 2 2) (with1 core1)) 0 0 (fun c => c.pc == 0x1004) = true ∧
    coreHas (exec (.j (-1)) (with1 core2)) 0 0 (fun c => c.pc == 0xFFC && c.block.isNone) = true ∧
    coreHas (exec (.call 2) (with1 core1)) 0 0 (fun c => c.pc == 0x1008 && c.gs 31 == 0x1004) = true ∧
    coreHas (exec (.jr 4) (with1 core1)) 0 0 (fun c => c.pc == 64) = true ∧
    coreHas (exec (.jr 1) (with1 core1)) 0 0 (fun c => c.x.xcause == 3 && c.x.xtval == 5) = true ∧
    coreHas (exec (.callr 4 4) (with1 core1)) 0 0 (fun c => c.pc == 64 && c.gs 4 == 0x1004) = true ∧
    coreHas (exec (.callr 1 1) (with1 core1)) 0 0 (fun c => c.x.xcause == 3 && c.gs 1 == 5) = true := by decide +kernel

/-- BranchesAndJumps: R141 with cores 1 and 2 reported, at different addresses, and core 0 a stray. -/
theorem test_branch_resolution :
    let a (p : BitVec 56) : Core := { core2 with pc := p, block := some .branch }
    let at_ (cs : List Core) : State := (part cs).modCtx 0 fun x => { x with diverge := some ⟨0x1000⟩ }
    let s := at_ [core1, a 0x2000, a 0x3000]
    let r := at_ [core2, a 0x2000]
    ((s.ctx? 0).map HerdCtx.reported) = some true ∧
    coreHas (exec (.branchResolution 0) s) 0 1 (fun c => c.front == .attached && c.pc == 0x2000 && c.block.isNone) = true ∧
    coreHas (exec (.branchResolution 0) s) 0 2 (fun c => c.front == .stray && c.pc == 0x3000) = true ∧
    nextHas (exec (.branchResolution 0) s) (fun t => ((t.ctx? 0).map HerdCtx.stream) == some 0x2000) = true ∧
    ((r.ctx? 0).map HerdCtx.reported) = some false ∧ nextIs (exec (.branchResolution 0) r) r = true := by decide +kernel

/-! ## Accesses -/

/-- A location of the scratchpad of core 0. -/
def own (a : Nat) : Nat := 2 ^ 42 + a

/-- How an access of 4 bytes through a record ends, at its boundary values. -/
def ends (r : Image) (o : Int) (load : Bool := true) : Reach :=
  ((with1 core1).through 0 0 true (recOf r) o ⟨4, 4, !load, load⟩).2

/-- AccessChecks: R222, each bounds mode at both ends of its extent, and a record of which each kind of reserved bits is set. -/
theorem test_record_checks :
    ends (rec 0x2000000000001000 16) 12 = .at_ 0x200000000000100C (.loc (own 0x100C) false) ∧
    ends (rec 0x2000000000001000 16) 13 = .fail (.bounds false 0x200000000000100D) ∧
    ends (rec 0x2000000000001000 16) (-1) = .fail (.bounds false 0x2000000000000FFF) ∧
    ends (rec 0x2000000000001000 16 1) 16 = .none_ 0x2000000000001010 ∧
    ends (rec 0x2000000000001000 16 1) 12 = .at_ 0x200000000000100C (.loc (own 0x100C) false) ∧
    ends (rec 0x2000000000001000 16 2) (-4) = .at_ 0x200000000000100C (.loc (own 0x100C) false) ∧
    ends (rec 0x2000000000001000 16 2) 15 = .fail (.bounds false 0x200000000000100F) ∧
    ends (rec 0x2000000000001000 0 2) 0 = .fail (.bounds false 0x2000000000001000) ∧
    ends (rec 0x2000000000001000 0 3) 64 = .at_ 0x2000000000001040 (.loc (own 0x1040) false) ∧
    ends (rec 0x2000000000001000 16 4) 0 = .fail (.bounds false 0) ∧ ends (rec 0x2000000000001000 16 0 0 0x10) 0 = .fail (.bounds false 0) ∧
    ends (rec 0x2000000000001000 16 ||| 1 <<< 175) 0 = .fail (.bounds false 0) ∧ ptrAt 0x20FFFFFFFFFFFFFF 2 = 0x2000000000000001 ∧
    pAddr (ptrAt 0x2000000000001000 16) % 4 = 0 := by decide +kernel

/-- AccessChecks: R216, R217 at the edges of each space; 1 MiB per core, no die scratchpad without ways (R233). -/
theorem test_space_checks :
    let off (p : Nat) (load : Bool := true) := ends (rec p 0 3) 0 load
    off 0x20000000000FFFFC = .at_ 0x20000000000FFFFC (.loc (own 0xFFFFC) false) ∧ off 0x20000000000FFFFE = .fail (.bounds false 0x20000000000FFFFE) ∧
    off 0x4700000000000010 = .at_ 0x4700000000000010 (.loc (own (7 * 2 ^ 20 + 16)) false) ∧ off 0x4800000000000010 = .fail (.bounds false 0x4800000000000010) ∧
    off 0x6000000000000000 = .fail (.bounds false 0x6000000000000000) ∧ off 0x6800000000000000 = .fail (.bounds false 0x6800000000000000) ∧
    off 0x8100000000000040 false = .at_ 0x8100000000000040 (.peer true 0x40) ∧ off 0x8100000000000040 = .fail (.bounds false 0x8100000000000040) ∧
    off 0x8200000000000040 false = .fail (.bounds false 0x8200000000000040) ∧ off 0xA000000000000000 = .fail (.bounds false 0xA000000000000000) ∧
    off 0x0000000000001000 = .fail (.translation 0 0x1000) ∧ off 0x2000000000000002 = .fail (.misalignment 0x2000000000000002) := by
  decide +kernel

/-- The part of a core whose own scratchpad holds bytes from 0x1000. -/
def withBytes (c : Core) (bs : List Byte) : State := { with1 c with mem := (⟨[], []⟩ : Mem).write (own 0x1000) bs }

/-- Loads: R248 sign- and zero-extension from bytes 0x80 0xFF 0x81 0xF0 …; bounds mode zero gives 0 and mode trap a trap. -/
theorem test_loads :
    let s := withBytes core1 [0x80, 0xFF, 0x81, 0xF0, 1, 2, 3, 0x84]
    let got (i : Instr) (v : Word) : Bool := coreHas (exec i s) 0 0 fun c => c.landings == [⟨9, v⟩] && c.isPend 9
    got (.ldB 9 1 0) (-128) = true ∧ got (.ldBu 9 1 0) 0x80 = true ∧ got (.ldH 9 1 0) 0xFFFFFFFFFFFFFF80 = true ∧
    got (.ldHu 9 1 2) 0xF081 = true ∧ got (.ldW 9 1 0) 0xFFFFFFFFF081FF80 = true ∧ got (.ldWu 9 1 0) 0xF081FF80 = true ∧
    got (.ldD 9 1 0) 0x84030201F081FF80 = true ∧ got (.ldNr 9 1 0) 0x84030201F081FF80 = true ∧
    core1.here [.b 1] = true ∧ core1.recon = false ∧ forwardOf core1.sq (own 0x1000) 8 = .clear ∧
    s.readUnits false (unitsOf (own 0x1000) 8) = (s, []) ∧
    coreHas (exec (.ldW 9 1 4096) s) 0 0 (fun c => c.x.xcause == 4 && c.x.xtval == 0x2000000000002000 && c.landings == []) = true ∧
    coreHas (exec (.ldW 9 1 2) s) 0 0 (fun c => c.x.xcause == 3 && c.x.xtval == 0x2000000000001002) = true ∧
    coreHas (exec (.ldW 9 2 0) (with1 { core1 with b := core1.b.set 2 (rec 0x2000000000001000 0 1) })) 0 0
      (fun c => c.landings == [⟨9, 0⟩]) = true ∧
    coreHas (exec (.ldW 9 1 0) (with1 { core1 with sq := [⟨.store (own 0x1000) [1, 2, 3, 4], 0, 0⟩] })) 0 0
      (fun c => c.landings == [⟨9, 0x04030201⟩]) = true := by decide +kernel

/-- Loads: R254: the youngest overlapping store forwards its bytes; one that writes only some, and an atomic, make the load wait. -/
theorem test_store_forwarding :
    let old : SqEntry := ⟨.store (own 0x1000) [1, 2, 3, 4, 5, 6, 7, 8], 0, 0⟩
    let new : SqEntry := ⟨.store (own 0x1002) [9, 10], 0, 1⟩
    let amo : SqEntry := ⟨.amo .add (own 0x1004) 4 1 0 9, 0, 2⟩
    let f (l : List SqEntry) (a n : Nat) := forwardOf l (own a) n
    let c := { core1 with sq := [old, new] }
    f [old, new] 0x1000 4 = .wait ∧ f [old, new] 0x1002 2 = .bytes [9, 10] ∧ f [old, new] 0x1004 4 = .bytes [5, 6, 7, 8] ∧
    f [old, amo] 0x1004 4 = .wait ∧ f [old, amo] 0x1000 4 = .bytes [1, 2, 3, 4] ∧ f [old] 0x1008 4 = .clear ∧ f [] 0 1 = .clear ∧
    nextIs (exec (.ldW 9 1 0) (with1 c)) (with1 c) = true := by decide +kernel

/-- Loads: R251, R252: ldb copies all 32 bytes, ldq zeros [191:128], and waits while an entry names the ring. -/
theorem test_image_loads :
    let s := withBytes core1 ((List.range 32).map fun i => .ofNat 8 (i + 1))
    let e : Entry := ⟨.pcopy eh ⟨1, 3, 0, 0, 30, 0, true, [⟨.count 1, 0, 0⟩]⟩, 0, none, none, true, none, false, true, 0, 0, 0, 0, 0, 0, 0, [], none⟩
    let c := { core1 with eq := [[e], [], [], []] }
    coreHas (exec (.ldb 3 1 0) s) 0 0 (fun c => c.gb 3 == 0x201F1E1D1C1B1A191817161514131211100F0E0D0C0B0A090807060504030201) = true ∧
    coreHas (exec (.ldq 3 1 0) s) 0 0 (fun c => c.gq 3 == 0x201F1E1D1C1B1A190000000000000000100F0E0D0C0B0A090807060504030201) = true ∧
    c.ringBusy 3 = true ∧ nextIs (exec (.ldq 3 1 0) (with1 c)) (with1 c) = true := by decide +kernel

/-- Stores: R248, R251, R253: entries with the record's colour; a full queue waits; mode zero has no effect; space 4 goes to
the peer. -/
theorem test_stores :
    let q (i : Instr) (e : SqEntry) : Bool := coreHas (exec i (with1 core1)) 0 0 fun c => c.sq == [e] && c.pc == 0x1004
    let full := { core1 with sq := List.replicate 64 ⟨.store 0 [0], 0, 0⟩ }
    q (.stB 2 1 1) ⟨.store (own 0x1001) [0xF9], 2, 0⟩ = true ∧ q (.stH 2 1 2) ⟨.store (own 0x1002) [0xF9, 0xFF], 2, 0⟩ = true ∧
    q (.stW 4 1 4) ⟨.store (own 0x1004) [64, 0, 0, 0], 2, 0⟩ = true ∧
    q (.stD 3 1 8) ⟨.store (own 0x1008) [0, 0, 0, 0, 0, 0, 0, 0x80], 2, 0⟩ = true ∧
    q (.stb 0 1 32) ⟨.store (own 0x1020) (.replicate 32 0), 2, 0⟩ = true ∧ q (.stq 5 1 32) ⟨.store (own 0x1020) (.replicate 32 0), 2, 0⟩ = true ∧
    nextIs (exec (.stB 2 1 1) (with1 full)) (with1 full) = true ∧
    coreHas (exec (.stB 2 2 1) (with1 { core1 with b := core1.b.set 2 (rec 0x2000000000001000 0 1) })) 0 0 (fun c => c.sq == [] && c.pc == 0x1004) = true ∧
    coreHas (exec (.stW 4 2 0) (with1 { core1 with b := core1.b.set 2 (rec 0x8100000000000040 8 0 3) })) 0 0
      (fun c => c.sq == [⟨.remote true (.store 0x40 [64, 0, 0, 0]) 0, 3, 0⟩]) = true ∧
    coreHas (exec (.stW 4 1 4096) (with1 core1)) 0 0 (fun c => c.x.xcause == 4 && c.sq == []) = true := by decide +kernel

/-- Stores: R253: an entry performs in its turn; one behind an entry of overlapping bytes waits. -/
theorem test_store_performs :
    let e : SqEntry := ⟨.store (own 0x1000) [1, 2], 2, 0⟩
    let f : SqEntry := ⟨.store (own 0x1001) [7], 2, 1⟩
    let s := with1 { core1 with sq := [e, f] }
    s.mayPerform 0 0 { core1 with sq := [e, f] } 0 e = (s, true) ∧ (s.mayPerform 0 0 { core1 with sq := [e, f] } 1 f).2 = false ∧
    s.inDeadGroup (own 0x1000) = false ∧
    nextHas (exec (.storePerform 0 0 0) s) (fun t => t.mem == ⟨[(own 0x1000, 1), (own 0x1001, 2)], []⟩ &&
      (t.core? 0 0).any fun c => c.sq == [f]) = true ∧
    nextIs (exec (.storePerform 0 0 1) s) s = true ∧ ((⟨[(5, 9)], []⟩ : Mem).write 4 [1, 0, 3]) = ⟨[(4, 1), (6, 3)], []⟩ := by
  decide +kernel

/-! ## Synchronisation -/

/-- Fences: R363: what is masked holds the word, what is not does not; at system scope a lost write is reported once. -/
theorem test_fences :
    let c := { core1 with sq := [⟨.store (own 0) [1], 2, 0⟩] }
    let d := { core1 with lost := 0x04 }
    nextIs (exec (.fenceC 0x04 .module) (with1 c)) (with1 c) = true ∧
    coreHas (exec (.fenceC 0xFB .module) (with1 c)) 0 0 (fun e => e.pc == 0x1004) = true ∧
    coreHas (exec (.fenceC 0x04 .module) (with1 d)) 0 0 (fun e => e.pc == 0x1004 && e.lost == 0x04) = true ∧
    coreHas (exec (.fenceC 0x04 .system) (with1 d)) 0 0 (fun e => e.x.xcause == 0x104 && e.lost == 0) = true ∧
    nextIs (exec (.fenceC 0 .core) (with1 { core1 with aq := [[⟨0, 0, 0, 4, 0, false, true, 0, none, false, none⟩], [], [], []] }))
      (with1 { core1 with aq := [[⟨0, 0, 0, 4, 0, false, true, 0, none, false, none⟩], [], [], []] }) = true := by decide +kernel

/-- Atomics: R366 to R368 at issue: the register becomes pending and the entry holds operand and compare value. -/
theorem test_atomics_enter_the_store_queue :
    let q (i : Instr) (op : SqOp) : Bool := coreHas (exec i (with1 core1)) 0 0 fun c => c.sq == [⟨op, 2, 0⟩] && c.isPend 4
    let full := { core1 with sq := List.replicate 64 ⟨.store 0 [0], 0, 0⟩ }
    q (.amoaddW 4 1 2) (.amo .add (own 0x1008) 4 64 0 4) = true ∧ q (.amocasD 2 1 511) (.amo .cas (own 0x1FF8) 8 0 64 4) = true ∧
    q (.amofaddF32 4 1 0) (.amo .fadd (own 0x1000) 4 64 0 4) = true ∧ core1.free [4, 5] [4] = true ∧
    nextIs (exec (.amoaddW 4 1 0) (with1 full)) (with1 full) = true ∧
    coreHas (exec (.amoaddD 4 1 512) (with1 core1)) 0 0 (fun c => c.x.xcause == 4 && !c.isPend 4) = true ∧
    coreHas (exec (.amoaddD 4 2 0) (with1 { core1 with b := core1.b.set 2 (rec 0x2000000000001000 0 1) })) 0 0
      (fun c => c.landings == [⟨4, 0⟩] && c.sq == []) = true := by decide +kernel

/-- Atomics: R384, R385 through space 4. -/
theorem test_remote_atomics :
    let c := { core1 with b := core1.b.set 2 (rec 0x8100000000000040 8) }
    let down := { with1 c with ports := [true, false] }
    let e : SqEntry := ⟨.remote true (.amo 8 0x40 8 64 0) 4, 0, 0⟩
    let f : SqEntry := ⟨.remote true (.store 0x80 [1]) 0, 2, 1⟩
    let q (l : List SqEntry) (p : Bool) : State := { with1 { core1 with sq := l } with ports := [true, p] }
    nextHas (exec (.amoswapD 4 2 0) (with1 c)) (fun t => t.sent == [] && (t.core? 0 0).any fun x => x.isPend 4 && x.sq == [e]) = true ∧
    coreHas (exec (.amoswapD 4 2 0) down) 0 0 (fun e => e.x.xcause == 0x104 && e.x.xtval == 0x8100000000000040) = true ∧
    nextIs (exec (.storePerform 0 0 1) (q [e, f] true)) (q [e, f] true) = true ∧
    nextHas (exec (.storePerform 0 0 0) (q [e, f] true)) (fun t => t.sent == [⟨true, .amo 8 0x40 8 64 0⟩] &&
      (t.core? 0 0).any fun x => x.sq == [f] && x.landings.map Landing.reg == [4]) = true ∧
    nextHas (exec (.storePerform 0 0 0) (q [f] true)) (fun t => t.sent == [⟨true, .store 0x80 [1]⟩] && (t.core? 0 0).any fun x => x.sq == []) = true ∧
    nextHas (exec (.storePerform 0 0 0) (q [f] false)) (fun t => t.sent == [] && t.logged == 1 && (t.core? 0 0).any fun x => x.sq == [] && x.lost == 4)
      = true ∧
    coreHas (exec (.storePerform 0 0 0) (q [e] false)) 0 0 (fun x => x.sq == [] && x.x.xcause == 0x104 && x.x.xtval == 0x8100000000000040 &&
      x.x.xepc == 0x1000) = true := by decide +kernel

/-- Atomics: R367 on the old value 0xFFFFFFF0 = −16 with operands −1, 1 and 0xFFFFFFF0. -/
theorem test_atomics_perform :
    let after (op : AmoOp) (v k : Word) (new : List Byte) (old : Word) : Bool :=
      let s := withBytes { core1 with sq := [⟨.amo op (own 0x1000) 4 v k 9, 2, 0⟩] } [0xF0, 0xFF, 0xFF, 0xFF]
      nextHas (exec (.storePerform 0 0 0) s) fun t => t.mem.read (own 0x1000) 4 == new && t.mem.byte (own 0x1004) == 0 &&
        (t.core? 0 0).any fun c => c.sq == [] && c.landings == [⟨9, old⟩]
    after .add 17 0 [1, 0, 0, 0] (-16) = true ∧ after .and 0x1F 0 [0x10, 0, 0, 0] (-16) = true ∧ after .or 1 0 [0xF1, 0xFF, 0xFF, 0xFF] (-16) = true ∧
    after .xor (-1) 0 [15, 0, 0, 0] (-16) = true ∧ after .min 1 0 [0xF0, 0xFF, 0xFF, 0xFF] (-16) = true ∧ after .max 1 0 [1, 0, 0, 0] (-16) = true ∧
    after .minu 1 0 [1, 0, 0, 0] (-16) = true ∧ after .maxu 1 0 [0xF0, 0xFF, 0xFF, 0xFF] (-16) = true ∧ after .swap 7 0 [7, 0, 0, 0] (-16) = true ∧
    after .cas 7 0xFFFFFFF0 [7, 0, 0, 0] (-16) = true ∧ after .cas 7 1 [0xF0, 0xFF, 0xFF, 0xFF] (-16) = true ∧
    Spec.stored .fadd 4 0x3F800000 0x40000000 0 = some 0x40400000 := by decide +kernel

/-- A core with an object record b2 in a space, and a doubleword at its place. -/
def withObject (base : Nat) (c : Core := core1) : Core := { c with b := c.b.set 2 (rec base 64) }

/-- BarriersAndWaits: R378 on a short barrier of pending 2, reload 3, parity 0 at 0x1000 of core 0's scratchpad; pbarr by 1 leaves 1,
by 2 completes it. s5 is the count, 0 in s6, s9 the offset. -/
theorem test_short_barriers :
    let w := leBytes 8 (2 + 3 * 2 ^ 24)
    let c := withObject 0x2000000000001000 (withS 5 1 (withS 6 2 core1))
    let at8 (i : Instr) (n : Nat) : Bool := nextHas (exec i (withBytes c w)) fun t => leNat (t.mem.read (own 0x1000) 8) == n
    at8 (.pbarr 5 2 0) (1 + 3 * 2 ^ 24) = true ∧ at8 (.pbarr 6 2 0) (3 + 3 * 2 ^ 24 + 2 ^ 63) = true ∧
    coreHas (exec (.pbwait 6 2 0) (withBytes c w)) 0 0 (fun e => e.pc == 0x1004 && e.block.isNone) = true ∧
    coreHas (exec (.pbwait 5 2 0) (withBytes c w)) 0 0 (fun e => e.pc == 0x1000 && e.block == some (.pbwait (own 0x1000) 0x2000000000001000 true false)) = true ∧
    coreHas (exec (.pbarr 5 2 0) (withBytes c (leBytes 8 (2 ^ 48)))) 0 0 (fun e => e.x.xcause == 4) = true ∧
    coreHas (exec (.pbwait 5 2 0) (withBytes c (leBytes 8 (2 ^ 62)))) 0 0 (fun e => e.x.xcause == 4) = true ∧
    (match ((withBytes c w).object 0 0 true (recOf (c.gb 2)) 0 8 true [1, 2]).2 with
      | .at_ l p => decide (l = own 0x1000 ∧ p = 0x2000000000001000)
      | _ => false) = true ∧
    nextIs (exec (.pbarr 5 2 0) (withBytes { c with sq := [⟨.store 0 [0], 0, 0⟩] } w)) (withBytes { c with sq := [⟨.store 0 [0], 0, 0⟩] } w) = true := by
  decide +kernel

/-- A part whose die 0 has a way of die scratchpad, with bytes at its start. -/
def withDsp (c : Core) (bs : List Byte) : State :=
  { with1 c with dies := [{ Die.idle with ways := 1 }], mem := (⟨[], []⟩ : Mem).write (dspLoc 0 0) bs }

/-- BarriersAndWaits: R371 to R375 on an object in space 3: phase 5, pending 2, reload 3, scope 3; an arrival of 2 with status 9 completes it, and
a wait for phase 5 goes on while one for 6 blocks; an object of
scope 0 is malformed and traps. -/
theorem test_barrier_objects :
    let obj := leBytes 8 (5 + 2 * 2 ^ 32) ++ leBytes 8 (3 + 3 * 2 ^ 32)
    let c := withObject 0x6000000000000000 (withS 5 (2 + 9 * 2 ^ 32) (withS 6 1 (withS 7 5 (withS 8 6 core1))))
    let dw (i : Instr) : Option Nat := match exec i (withDsp c obj) with
      | .next t => some (leNat (t.mem.read (dspLoc 0 0) 8))
      | _ => none
    ((withDsp c obj).barAt (dspLoc 0 0)).malformed = false ∧ dw (.barr 5 2 0) = some (6 + 9 * 2 ^ 24 + 3 * 2 ^ 32) ∧
    dw (.barr 6 2 0) = some (5 + 1 * 2 ^ 32) ∧
    coreHas (exec (.bwait 7 2 0) (withDsp c obj)) 0 0 (fun e => e.pc == 0x1004) = true ∧
    coreHas (exec (.bwait 8 2 0) (withDsp c obj)) 0 0 (fun e => e.block == some (.bwait (dspLoc 0 0) 0x6000000000000000 6 false)) = true ∧
    coreHas (exec (.bwait 8 2 0) (withDsp c (leBytes 8 0 ++ leBytes 8 3))) 0 0 (fun e => e.x.xcause == 4) = true ∧
    coreHas (exec (.barr 5 2 0) (withDsp c (leBytes 8 0 ++ leBytes 8 3))) 0 0 (fun e => e.x.xcause == 4) = true := by
  decide +kernel

/-- BarriersAndWaits: R364 on a doubleword of 64, and the waking of waiters. -/
theorem test_spinning_and_waking :
    let c := withObject 0x2000000000001000
    let asleep (b : Block) : Core := { c with block := some b }
    coreHas (exec (.spinw 4 2 0) (withBytes c [64])) 0 0 (fun e => e.block == some (.spinw (own 0x1000) 0x2000000000001000 64)) = true ∧
    coreHas (exec (.spinw 1 2 0) (withBytes c [64])) 0 0 (fun e => e.pc == 0x1004) = true ∧
    coreHas (exec (.spinwWake 0 0) (withBytes (asleep (.spinw (own 0x1000) 0 64)) [65])) 0 0 (fun e => e.pc == 0x1004 && e.block.isNone) = true ∧
    coreHas (exec (.spinwWake 0 0) (withBytes (asleep (.spinw (own 0x1000) 0 64)) [64])) 0 0 (fun e => e.pc == 0x1000 && e.block.isSome) = true ∧
    coreHas (exec (.barrierWaiterWake 0 0) (withBytes (asleep (.bwait (own 0x1000) 0 64 false)) [64])) 0 0 (fun e => e.pc == 0x1004) = true ∧
    coreHas (exec (.barrierWaiterWake 0 0) (withBytes (asleep (.bwait (own 0x1000) 0 65 false)) [64])) 0 0 (fun e => e.block.isSome) = true ∧
    coreHas (exec (.shortBarrierWake 0 0) (withBytes (asleep (.pbwait (own 0x1000) 0 false false)) [64])) 0 0 (fun e => e.pc == 0x1004) = true ∧
    coreHas (exec (.shortBarrierWake 0 0) (withBytes (asleep (.pbwait (own 0x1000) 0 true false)) [64])) 0 0 (fun e => e.block.isSome) = true ∧
    coreHas (exec (.barrierWaiterWake 0 0) (withBytes (asleep (.bwait (own 0x1000) 0 65 true)) [64])) 0 0 (fun e => e.pc == 0x1004) = true ∧
    coreHas (exec (.shortBarrierWake 0 0) (withBytes (asleep (.pbwait (own 0x1000) 0 true true)) [64])) 0 0 (fun e => e.pc == 0x1004) = true ∧
    (let busy := { c with aq := [[⟨0, 0, 0, 4, 0, false, true, 0, none, false, none⟩], [], [], []] };
      nextIs (exec (.spinw 4 2 0) (withBytes busy [64])) (withBytes busy [64]) = true) ∧
    nextIs (exec (.spinwWake 0 0) (with1 core1)) (with1 core1) = true := by decide +kernel

/-- BarriersAndWaits: R372, R378: an arrival tells the cores and the queue whose phase or parity it brings, and no other. -/
theorem test_arrivals_wake :
    let w (b : Block) : Core := { core1 with block := some b }
    let c (p : BitVec 16) (m : Bool) := w (.bwait (own 0x40) 0 p m)
    let d (p m : Bool) := w (.pbwait (own 0x40) 0 p m)
    let q (p : BitVec 16) (m : Option Byte) : Queue := { queue5 with wait := some ⟨0, p, false, own 0x40, m⟩ }
    let s : State := { part [c 5 false, c 6 false, d true false, d false false] with tahr := { Tahr.idle with queues := [q 5 none, q 6 none] } }
    let told := s.tellWaiters (own 0x40) ⟨5 + 9 * 2 ^ 24, 0⟩
    let short := s.tellCores (Block.toldShort (own 0x40) (2 ^ 63))
    (List.range 4).map (told.core? 0) = [c 5 true, c 6 false, d true false, d false false].map some ∧
    told.tahr.queues = [q 5 (some 9), q 6 none] ∧
    (List.range 4).map (short.core? 0) = [c 5 false, c 6 false, d true true, d false false].map some := by decide +kernel

/-- BarriersAndWaits: a word that reads an object waits for its core's own store to it, and an acquire for the core's access queue. -/
theorem test_objects_behind_own_accesses :
    let c := withObject 0x6000000000000000 (withS 7 5 (withS 5 1 core1))
    let obj := leBytes 8 5 ++ leBytes 8 (3 * 2 ^ 32)
    let own_ : Core := { c with sq := [⟨.store (dspLoc 0 8) [1], 0, 0⟩] }
    let load : Core := { c with aq := [[⟨0, 0, 0, 4, 0, false, true, 0, none, false, none⟩], [], [], []] }
    nextIs (exec (.barr 5 2 0) (withDsp own_ obj)) (withDsp own_ obj) = true ∧ nextIs (exec (.bwait 7 2 0) (withDsp own_ obj)) (withDsp own_ obj) = true ∧
    nextIs (exec (.bwait 7 2 0) (withDsp load obj)) (withDsp load obj) = true ∧
    nextIs (exec (.pbwait 7 2 0) (withBytes { load with b := (withObject 0x2000000000001000).b } [])) (withBytes { load with b := (withObject 0x2000000000001000).b } [])
      = true := by decide +kernel

/-- Semaphores: R177, R179: k200 holds 65,530; a signal of 5 fits and one of 6 traps; behind a grant of the ck, or a signal of a higher
rank, a signal waits, and a wait behind a grant too; a wait joins the waiters, and the oldest of them is served alone. -/
theorem test_semaphores :
    let at_ (n : Nat) (cs : List Core) : State := (part cs).modCtx 0 fun x => { x with k := x.k.set 200 (.ofNat 16 n) }
    let count (o : Out) : Option (BitVec 16) := match o with
      | .next t => (t.ctx? 0).map fun x => x.k.getD 200 0
      | _ => none
    let waiting (n age : Nat) : Core := { core1 with block := some (.kwait 200 n age) }
    core1.drained 255 = true ∧ count (exec (.ksig 200 5) (at_ 65530 [core1])) = some 65535 ∧
    coreHas (exec (.ksig 200 6) (at_ 65530 [core1])) 0 0 (fun c => c.x.xcause == 8 && c.x.xtval == 200) = true ∧
    nextIs (exec (.ksig 200 5) (at_ 0 [{ core1 with sq := [⟨.store 0 [0], 7, 0⟩] }])) (at_ 0 [{ core1 with sq := [⟨.store 0 [0], 7, 0⟩] }]) = true ∧
    coreHas (exec (.kwait 200 5) (at_ 5 [core1])) 0 0 (fun c => c.block == some (.kwait 200 5 0) && c.pc == 0x1000) = true ∧
    (let turn (t : SemTurn) : State := (at_ 5 [core1]).modCtx 0 fun x => { x with turn := t };
      nextIs (exec (.kwait 200 5) (turn ⟨0, true, []⟩)) (turn ⟨0, true, []⟩) = true ∧
      nextIs (exec (.ksig 200 5) (turn ⟨0, true, []⟩)) (turn ⟨0, true, []⟩) = true ∧
      nextIs (exec (.ksig 200 5) (turn ⟨0, false, [(200, 3)]⟩)) (turn ⟨0, false, [(200, 3)]⟩) = true ∧
      count (exec (.ksig 200 5) (turn ⟨0, false, [(201, 3)]⟩)) = some 10 ∧ count (exec (.ksig 200 5) (turn ⟨7, true, []⟩)) = some 10) ∧
    (let load : Core := { core1 with aq := [[⟨0, 0, 0, 4, 0, false, true, 0, none, false, none⟩], [], [], []] };
      nextIs (exec (.kwait 200 5) (at_ 5 [load])) (at_ 5 [load]) = true) ∧
    count (exec (.semaphoreGrant 0 200) (at_ 4 [waiting 2 7, waiting 3 5])) = some 1 ∧
    coreHas (exec (.semaphoreGrant 0 200) (at_ 4 [waiting 2 7, waiting 3 5])) 0 1 (fun c => c.block.isNone && c.pc == 0x1004) = true ∧
    coreHas (exec (.semaphoreGrant 0 200) (at_ 4 [waiting 2 7, waiting 3 5])) 0 0 (fun c => c.block.isSome) = true ∧
    nextIs (exec (.semaphoreGrant 0 200) (at_ 2 [waiting 2 7, waiting 3 5])) (at_ 2 [waiting 2 7, waiting 3 5]) = true ∧
    nextIs (exec (.semaphoreGrant 0 200) (at_ 2 [core1])) (at_ 2 [core1]) = true := by decide +kernel

/-! ## System words and traps -/

/-- The same core at supervisor level. -/
def super1 : Core := { core1 with x := { core1.x with priv := true } }

/-- SupervisorWordsTrapAtUserLevel: R130. -/
theorem test_supervisor_words_trap_at_user_level :
    core1.x.priv = false ∧
    ([.xw 1 .xvec, .xset 1 .xcond, .xclr 1 .xstat, .xret, .tlbinv 1, .tlbinvall 1] : List Instr).all (fun i =>
      coreHas (exec i (with1 core1)) 0 0 fun c => c.x.xcause == 2 && c.x.xtval == (firstGranule i).zeroExtend 64 && c.x.xepc == 0x1000 &&
        c.x.xvec == core1.x.xvec && c.pc == core1.x.xvec.truncate 56) = true := by decide +kernel

/-- SystemRegisters: R390, R391, R399: what user level may read, and the fields that a write reaches. -/
theorem test_system_registers :
    let w (i : Instr) (f : XRegs → Bool) : Bool := coreHas (exec i (with1 (withS 9 (-1) { super1 with x := { super1.x with np := true } }))) 0 0 fun c => f c.x
    coreHas (exec (.xr 9 .xcause) (with1 core1)) 0 0 (fun c => c.x.xcause == 2) = true ∧
    coreHas (exec (.xr 9 .xstat) (with1 core1)) 0 0 (fun c => c.gs 9 == 2) = true ∧
    coreHas (exec (.xr 9 .xvec) (with1 super1)) 0 0 (fun c => c.gs 9 == Config.handlerAddr) = true ∧
    w (.xw 9 .xvec) (fun x => x.xvec == 0xFFFFFFFFFFFFFFC0) = true ∧ w (.xw 9 .xepc) (fun x => x.xepc == 0xFFFFFFFFFFFFFFFC) = true ∧
    w (.xw 4 .xscr0) (fun x => x.xscr0 == 64) = true ∧ w (.xset 4 .xscr1) (fun x => x.xscr1 == 64) = true ∧ w (.xclr 9 .xscr0) (fun x => x.xscr0 == 0) = true ∧
    w (.xw 9 .xcause) (fun x => x.xcause == 0) = true ∧ w (.xw 9 .xstat) (fun x => x.ie && x.pp && x.pie && x.intrap && !x.np && x.priv) = true ∧
    w (.xset 9 .xstat) (fun x => x.np && x.ie) = true ∧ w (.xclr 9 .xstat) (fun x => !x.np && !x.ie && x.priv) = true ∧
    coreHas (exec (.xw 9 .xcond) (with1 (withS 9 (2 ^ 36) { super1 with csOvf := 3 }))) 0 0 (fun c => c.csOvf == 2) = true ∧
    coreHas (exec (.xw 4 .xrpt) (with1 super1)) 0 0 (fun c => c.block == some (.report 64 false 0 0 0)) = true ∧
    coreHas (exec (.xw 4 .xdsp) (with1 super1)) 0 0 (fun c => c.block == some (.xdsp 0 false)) = true ∧
    coreHas (exec (.xw 4 .xfreq) (with1 super1)) 0 0 (fun c => c.freeReq == some ⟨0, 4, 0, false, false, 0⟩) = true ∧
    super1.absent = [] ∧ super1.freeReq = none := by decide +kernel

/-- SystemRegisters: R149, R180, R215, R234, R433, R440, R441: fields of a herd with two cores, in zone 0 of a die of 300 degrees. -/
theorem test_system_register_fields :
    let c : Core := { core1 with cs := [[1, 2], [], [3], []], csOvf := 5 }
    let s : State := { ((part [c, .idle]).modDie 0 fun d => { d with
      ahead := 4, ways := 2, waysSet := 2, zones := ⟨90, 1⟩ :: ⟨300, 3⟩ :: .replicate 14 ⟨40, 0⟩, budgets := 7 :: .replicate 15 15 }) with now := 10 }
    let t := s.modCtx 0 fun x => { x with kov := true, ksem := 200, mstall := 3, evicts := 2 }
    (t.xread c .xtemp).toNat = 90 + 2 ^ 8 + 255 * 2 ^ 16 ∧ (t.xread c .xtherm).toNat = 7 + (2 ^ 64 - 2 ^ 4) ∧ (t.xread c .xcyc).toNat = 14 ∧
    (t.xread c .xcond).toNat = 2 + 2 ^ 18 + 5 * 2 ^ 36 ∧ (t.xread c .xdsp).toNat = 2 ∧ (t.xread c .xkov).toNat = 1 + 200 * 2 ^ 8 ∧
    (t.xread c .xherd).toNat = 2 ^ 8 + 2 ^ 17 + 3 * 2 ^ 40 ∧ (t.xread c .xctx).toNat = 2 * 2 ^ 8 := by decide +kernel

/-- SystemRegisters: R259, R260: the held head of queue 1 after a stall of 6 ck, and what a write of zf does where the data queue has
room, where it has none, and where no head is held. -/
theorem test_access_queue_status :
    let e : AqEntry := ⟨0x2000000000001000, 0, 0, 4, 8, false, true, 0, some .bounds, false, none⟩
    let f : AqEntry := { e with held := some (.translation 5) }
    let c (full : Bool) : Core :=
      { super1 with s := super1.s.set 9 0x200, aq := [[], [e], [f], []], ldstall := 6, dq := [[], .replicate (if full then 64 else 0) 0, [], []] }
    let s (full : Bool) := with1 (c full)
    Spec.reportsHead (c false) 1 e [] ∧ ((s false).xread (c false) .xaqs).toNat = 1 + 2 * 1 + 8 + 6 * 2 ^ 16 ∧
    (s false).xread (c false) .xaqa = 0x2000000000001008 ∧ Spec.aqFields (.translation 5) = 320 ∧
    (with1 super1).xread super1 .xaqs = 0 ∧ (with1 super1).xread super1 .xaqa = 0 ∧
    coreHas (exec (.xw 9 .xaqs) (s false)) 0 0 (fun x => x.aq == [[], [], [f], []] && x.dq == [[], [0], [], []]) = true ∧
    coreHas (exec (.xset 9 .xaqs) (s true)) 0 0 (fun x => x.aq == [[], [{ e with held := none, data := some 0 }], [f], []] &&
      (x.dq.getD 1 []).length == 64) = true ∧
    coreHas (exec (.xclr 9 .xaqs) (s false)) 0 0 (fun x => x.aq == (c false).aq && x.pc == 0x1004) = true := by
  refine ⟨⟨by decide, rfl, by decide, ?_⟩, by decide +kernel⟩
  intro j f u hj hf hh
  match j, hj with
  | 0, _ => simp at hf
  | 1, _ => exact .inl rfl
  | 2, _ => exact .inr (.inr ⟨rfl, by simp at hf; rw [← hf.1], by decide⟩)
  | 3, _ => simp at hf

/-- TrapsAreTaken: R393, R394, R397, R400. -/
theorem test_traps :
    coreHas (exec (.trap 1023) (with1 core2)) 0 0 (fun c => c.x.xcause == 10 && c.x.xtval == 1023 && c.x.xepc == 0x1004 && c.x.priv && !c.x.ie &&
      !c.x.pp && c.x.pie && c.x.intrap && c.front == .stray && c.issueAt == 8) = true ∧
    coreHas (exec .ebreak (with1 core1)) 0 0 (fun c => c.x.xcause == 11 && c.x.xtval == 0 && c.x.xepc == 0x1004) = true ∧
    coreHas (exec .ebreak (with1 { super1 with x := { super1.x with intrap := true } })) 0 0 (fun c =>
      c.x.xcause == 0 && c.pc == 0x1000 && c.block == some (.report 0 true 11 0x1004 0)) = true ∧
    coreHas ((with1 core1).trap (.notice 5)) 0 0 (fun c => c.x.xcause == 12 && c.x.xtval == 5 && c.x.xepc == 0x1000 && !c.x.np) = true ∧
    (Cause.illegal 0).code = 1 ∧ (Cause.notice 5).code = 12 := by decide +kernel

/-- HerdFrontEnd: R145: while core 1 does not wait nothing happens; once all wait, those at the least address go on. -/
theorem test_join_release :
    let j (a : BitVec 56) (c : Core) : Core := { c with join := some a }
    (ctxOf [j 0x2000 core2, core1]).joinRelease = ctxOf [j 0x2000 core2, core1] ∧
    ((ctxOf [j 0x3000 core2, j 0x2000 core1, .idle, j 0x2000 core1]).joinRelease.cores.map fun c => (c.front, c.join, c.pc)) =
      [(.stray, some 0x3000, 0x1000), (.attached, none, 0x2004), (.halted, none, 0), (.attached, none, 0x2004)] ∧
    (ctxOf [j 0x3000 core2, j 0x2000 core1]).joinRelease.stream = 0x2004 := by decide +kernel

/-- HerdFrontEnd: R96, R145 to R150, R184, R402, R427. -/
theorem test_front_end_words :
    coreHas (exec .join (with1 super1)) 0 0 (fun c => c.x.xcause == 9) = true ∧
    coreHas (exec .join (part [core2, core1])) 0 0 (fun c => c.join == some 0x1000 && c.pc == 0x1000) = true ∧
    coreHas (exec .join (with1 core1)) 0 0 (fun c => c.join.isNone && c.pc == 0x1004 && c.front == .attached) = true ∧
    coreHas (exec .detach (with1 core2)) 0 0 (fun c => c.front == .stray && c.pc == 0x1004) = true ∧
    nextHas (exec .iflush ((with1 core1).modCtx 0 fun x => { x with code := [⟨7, 0x1000, 0⟩] })) (fun t => ((t.ctx? 0).map HerdCtx.code) == some []) = true ∧
    coreHas (exec .iflush (part [core2, core2])) 0 0 (fun c => c.block == some .iflush) = true ∧
    coreHas (exec .halt (with1 { core1 with seq := 4, sq := [⟨.store 0 [1], 0, 0⟩], cs := [[1], [], [], []] })) 0 0 (fun c =>
      c.front == .halted && c.cutN == some 5 && c.cutG == some 5 && c.sq.length == 1 && c.cs == [[], [], [], []]) = true ∧
    coreHas (exec .triggerN (with1 { core1 with seq := 4 })) 0 0 (fun c => c.cutN == some 4 && c.cutG.isNone) = true ∧
    coreHas (exec .triggerG (with1 { core1 with seq := 4, cutN := some 2 })) 0 0 (fun c => c.cutN == some 2 && c.cutG == some 4) = true ∧
    coreHas (exec (.herdid 9) (part [core2, core1])) 0 0 (fun c => c.gs 9 == .ofNat 64 (2 ^ 24 + 2 ^ 32)) = true ∧
    coreHas (exec (.qstat 9 .well) (with1 { core1 with done := [0, 0, 3, 0], last := [.ok, .ok, .katMismatch, .ok] })) 0 0 (fun c =>
      c.gs 9 == .ofNat 64 (3 * 2 ^ 32 + EStatus.katMismatch.code * 2 ^ 16)) = true ∧
    coreHas (exec .wait (with1 core1)) 0 0 (fun c => c.block == some .notice) = true ∧
    coreHas (exec .wait (with1 { core1 with x := { core1.x with np := true } })) 0 0 (fun c => c.pc == 0x1004) = true := by decide +kernel

/-- HerdFrontEnd: R138, R144, R148: a word given to an attached core and to no other, with the set that was attached; herdid of a core
that runs behind reads that set; iflush of a stray empties every buffer. -/
theorem test_multicast :
    let w : BufWord := ⟨0x1000, .add 1 2 3, 4, 0x1004, false, 3⟩
    let x := ctxOf [core2, core1]
    (x.multicast w).cores = [{ core2 with buf := [w] }, core1] ∧ (x.multicast w).stream = 0x1004 ∧
    ((part [core2, core1]).bufWord 0 true (.add 1 2 3) 0x1000 4).att = 1 ∧
    coreHas (exec (.herdid 9) (part [{ core2 with buf := [{ w with word := .herdid 9 }] }, core1])) 0 0 (fun c =>
      c.gs 9 == .ofNat 64 (3 * 2 ^ 24 + 2 ^ 32) && c.buf == []) = true ∧
    coreHas (exec .iflush (part [core1, { core2 with buf := [w] }])) 0 1 (fun c => c.buf == []) = true ∧
    coreHas (exec .detach (part [{ core2 with buf := [w, w] }, core2])) 0 0 (fun c => c.buf == [] && c.front == .stray) = true := by decide +kernel

/-- ReturnsAndBoundaries: R401; R395, R396 with a held head before a notice. -/
theorem test_returns_and_boundaries :
    let e : AqEntry := ⟨0, 0, 0, 4, 8, false, true, 0, some .bounds, false, none⟩
    let c := { core1 with x := { core1.x with np := true, ncode := 9 } }
    coreHas (exec .xret (with1 { super1 with x := { super1.x with xepc := 0x2004, pie := true, intrap := true, ie := false } })) 0 0 (fun d =>
      d.pc == 0x2004 && !d.x.priv && d.x.ie && !d.x.intrap && d.front == .stray) = true ∧
    super1.isAbsent (.x .xepc) = false ∧
    coreHas (exec (.trapEntry 0 0) (with1 c)) 0 0 (fun d => d.x.xcause == 12 && d.x.xtval == 9 && !d.x.np && d.x.pie) = true ∧
    nextIs (exec (.trapEntry 0 0) (with1 { c with x := { c.x with ie := false } })) (with1 { c with x := { c.x with ie := false } }) = true ∧
    coreHas (exec (.trapEntry 0 0) (with1 { c with aq := [[e], [], [], []] })) 0 0 (fun d => d.x.xcause == 0x10004 && d.x.np &&
      d.aq == [[{ e with reported := true }], [], [], []]) = true := by decide +kernel

/-! ## The vector engine -/

/-- A slice of 64 lanes. -/
def lanes (f : Nat → Nat) : Slice := ofElems 32 ((List.range 64).map f)

/-- v1: lane i holds i. v2: −1 in every lane. v3: 1.5, v4: 2.0, v5: −3.0 as f32. p1: lanes 0 and 2. s1 to s4 as in core1. -/
def core3 : Core := { core1 with
  v := [0, lanes id, lanes fun _ => 0xFFFFFFFF, lanes fun _ => 0x3FC00000, lanes fun _ => 0x40000000, lanes fun _ => 0xC0400000] ++ .replicate 26 0
  p := [.allOnes 64, 5] ++ .replicate 6 0 }

/-- Header: type, rounding, saturation, predicate; LAT 15, gap 2. -/
def vx (ty : ElemType) (sat : Bool := false) (rnd : Rnd := .rne) (pred : BitVec 3 := 0) : VHdr := ⟨pred, 15, 2, ty, rnd, sat, false⟩

/-- What a word sends to a register: its mask and its value. -/
def sent (o : Out) : Option (Slice × Slice) :=
  match o with
  | .next t => match (t.core? 0 0).map Core.vlands with
    | some [⟨[.reg _ m v], _, _, _, _, _⟩] => some (m, v)
    | _ => none
  | _ => none

/-- The word sends elements of a width to v9: each of some numbers has a value. -/
def elems (i : Instr) (w : Nat) (l : List (Nat × Nat)) (c : Core := core3) : Bool :=
  match sent (exec i (with1 c)) with
  | some (_, v) => l.all fun x => Spec.slot w v x.1 == x.2
  | none => false

/-- VectorArithmetic: R195 to R197 on integers: wrap, saturation, the high half and the multiply-accumulate of D. -/
theorem test_vector_integers :
    elems (.vadd (vx .s32) (.reg 9) (.reg 1) (.imm 0xFFFF)) 32 [(0, 0xFFFFFFFF), (63, 62)] = true ∧
    elems (.vadd (vx .z8 true) (.reg 9) (.reg 1) (.reg 2)) 8 [(0, 255), (4, 255)] = true ∧
    elems (.vsub (vx .s32) (.reg 9) (.reg 1) (.scal 1)) 32 [(0, 0xFFFFFFFB), (7, 2)] = true ∧
    elems (.vmul (vx .s32) (.reg 9) (.reg 1) (.reg 2)) 32 [(3, 0xFFFFFFFD)] = true ∧
    elems (.vmulh (vx .z32) (.reg 9) (.reg 1) (.reg 2)) 32 [(0, 0), (3, 2)] = true ∧
    elems (.vmulh (vx .s32) (.reg 9) (.reg 1) (.reg 2)) 32 [(3, 0xFFFFFFFF)] = true ∧
    elems (.vmin (vx .s32) (.reg 9) (.reg 1) (.reg 2)) 32 [(3, 0xFFFFFFFF)] = true ∧
    elems (.vmax (vx .z32) (.reg 9) (.reg 1) (.reg 2)) 32 [(3, 0xFFFFFFFF)] = true ∧
    elems (.vabs (vx .s32) (.reg 9) (.reg 2)) 32 [(5, 1)] = true ∧ elems (.vneg (vx .s8 true) (.reg 9) (.imm 0x80)) 8 [(5, 127)] = true ∧
    elems (.vmac (vx .s32) (.reg 1) (.reg 1) (.reg 2)) 32 [(5, 0)] = true ∧
    elems (.vdot4 (vx .s8) (.reg 1) (.reg 1) (.reg 2)) 32 [(5, 0)] = true ∧
    elems (.vand (vx .z32) (.reg 9) (.reg 1) (.imm 6)) 32 [(5, 4)] = true ∧ elems (.vor (vx .z32) (.reg 9) (.reg 1) (.imm 6)) 32 [(1, 7)] = true ∧
    elems (.vxor (vx .z32) (.reg 9) (.reg 1) (.imm 6)) 32 [(5, 3)] = true ∧ elems (.vandn (vx .z32) (.reg 9) (.reg 1) (.imm 6)) 32 [(5, 1)] = true ∧
    elems (.vsll (vx .z32) (.reg 9) (.reg 1) (.imm 31)) 32 [(3, 0x80000000)] = true ∧ elems (.vsrl (vx .z32) (.reg 9) (.reg 2) (.imm 28)) 32 [(3, 15)] = true ∧
    elems (.vsra (vx .s16) (.reg 9) (.reg 2) (.imm 15)) 16 [(3, 0xFFFF)] = true ∧ elems (.vclz (vx .z32) (.reg 9) (.reg 1)) 32 [(0, 32), (1, 31)] = true ∧
    elems (.vpopc (vx .z32) (.reg 9) (.reg 1)) 32 [(63, 6)] = true ∧ elems (.vmov (vx .z32) (.reg 9) (.reg 1)) 32 [(63, 63)] = true ∧
    elems (.vsel (vx .z32 (pred := 1)) (.reg 9) (.reg 1) (.reg 2)) 32 [(0, 0), (1, 0xFFFFFFFF), (2, 2)] = true := by decide +kernel

/-- VectorArithmetic: R196 to R198 on f32: 1.5 and 2.0 and −3.0; 1.5 × 2.0 − 3.0 = 0. -/
theorem test_vector_floats :
    elems (.vadd (vx .f32) (.reg 9) (.reg 3) (.reg 4)) 32 [(0, 0x40600000)] = true ∧ elems (.vmul (vx .f32) (.reg 9) (.reg 3) (.reg 5)) 32 [(0, 0xC0900000)] = true ∧
    elems (.vfma (vx .f32) (.reg 5) (.reg 3) (.reg 4)) 32 [(0, 0)] = true ∧ elems (.vfms (vx .f32) (.reg 5) (.reg 3) (.reg 4)) 32 [(0, 0x40C00000)] = true ∧
    elems (.vfnma (vx .f32) (.reg 5) (.reg 3) (.reg 4)) 32 [(0, 0xC0C00000)] = true ∧ elems (.vdiv (vx .f32) (.reg 9) (.reg 5) (.reg 3)) 32 [(0, 0xC0000000)] = true ∧
    elems (.vsqrt (vx .f32) (.reg 9) (.imm 0x4080)) 32 [(0, 0x40000000)] = true ∧ elems (.vsqrt (vx .f32) (.reg 9) (.reg 5)) 32 [(0, 0x7FC00000)] = true ∧
    elems (.vrsqrt (vx .f32) (.reg 9) (.imm 0x4080)) 32 [(0, 0x3F000000)] = true ∧ elems (.vrcp (vx .f32) (.reg 9) (.reg 4)) 32 [(0, 0x3F000000)] = true ∧
    elems (.vexp2 (vx .f32) (.reg 9) (.reg 4)) 32 [(0, 0x40800000)] = true ∧ elems (.vlog2 (vx .f32) (.reg 9) (.reg 4)) 32 [(0, 0x3F800000)] = true ∧
    elems (.vtanh (vx .f32) (.reg 9) (.imm 0)) 32 [(0, 0)] = true ∧ elems (.vsigm (vx .f32) (.reg 9) (.imm 0)) 32 [(0, 0x3F000000)] = true ∧
    elems (.vscale (vx .f32) (.reg 9) (.reg 3) (.imm 2)) 32 [(0, 0x40C00000)] = true := by decide +kernel

/-- VectorReductionsAndPermutes: R206, R207; the sum 0 + … + 63 is 2,016. -/
theorem test_vector_across :
    elems (.vrsum (vx .s32) (.reg 9) (.reg 1)) 32 [(0, 2016), (63, 2016)] = true ∧ elems (.vrsum (vx .f32 (pred := 1)) (.reg 9) (.reg 3)) 32 [(0, 0x40400000)] = true ∧
    elems (.vrmax (vx .s32) (.reg 9) (.reg 1)) 32 [(0, 63)] = true ∧ elems (.vrmin (vx .z32 (pred := 1)) (.reg 9) (.reg 1)) 32 [(7, 0)] = true ∧
    elems (.vrdot (vx .s16) (.reg 9) (.reg 1) (.reg 1)) 32 [(0, 85344)] = true ∧ elems (.vscan (vx .s32) (.reg 9) (.reg 1)) 32 [(3, 6), (63, 2016)] = true ∧
    elems (.vargmax (vx .s32) (.reg 9) (.reg 1)) 32 [(5, 63)] = true ∧ elems (.vperm (vx .z32) (.reg 9) (.reg 1) (.reg 2)) 32 [(5, 63)] = true ∧
    elems (.vrot (vx .z32) (.reg 9) (.reg 1) (.imm 1)) 32 [(0, 1), (63, 0)] = true ∧ elems (.vshfl (vx .z32) (.reg 9) (.reg 1) (.imm 1)) 32 [(0, 1), (1, 0)] = true ∧
    elems (.vbcast (vx .z32) (.reg 9) (.reg 1) (.imm 7)) 32 [(0, 7)] = true ∧ elems (.vzip (vx .z32) (.reg 9) (.reg 1) (.reg 2)) 32 [(2, 1), (3, 0xFFFFFFFF)] = true ∧
    elems (.vunzip (vx .z32) (.reg 9) (.reg 1) (.reg 2)) 32 [(3, 6), (32, 0xFFFFFFFF)] = true ∧ elems (.vtrn (vx .z32) (.reg 9) (.reg 1) (.reg 2)) 32 [(2, 2), (3, 0xFFFFFFFF)] = true ∧
    elems (.vcompress (vx .z32 (pred := 1)) (.reg 9) (.reg 1)) 32 [(0, 0), (1, 2), (2, 0)] = true ∧
    elems (.vexpand (vx .z32 (pred := 1)) (.reg 9) (.reg 1)) 32 [(0, 0), (2, 1)] = true ∧
    (sent (exec (.vscan (vx .s32 (pred := 1)) (.reg 9) (.reg 1)) (with1 core3))).map (fun x => x.1) = some (lanes fun i => if i = 0 ∨ i = 2 then 0xFFFFFFFF else 0) := by
  decide +kernel

/-- VectorConversionFunctions: R203 to R205. -/
theorem test_vector_conversions :
    elems (.vcvt (vx .s32 (rnd := .rtz)) .f32 (.reg 9) (.reg 3)) 32 [(0, 1)] = true ∧ elems (.vpack (vx .s8 true) .s32 (.reg 9) (.reg 1) 2) 8 [(128, 0), (191, 63)] = true ∧
    elems (.vunpack (vx .s32) .s8 (.reg 9) (.reg 2) 3) 32 [(0, 0xFFFFFFFF)] = true ∧ elems (.vround (vx .f32) (.reg 9) (.reg 3)) 32 [(0, 0x40000000)] = true ∧
    elems (.vcvtsc (vx .f32) .s8 (.reg 9) (.reg 2) (.scal 5)) 32 [(0, 0xBC800000)] (withS 5 0x7F7F core3) = true ∧
    elems (.vcvtsc (vx .s8) .f32 (.reg 9) (.reg 4) (.reg 6)) 8 [(0, 127)] = true ∧
    elems (.vql4 (vx .f32) (.reg 9) (.reg 1) (.scal 5)) 32 [(0, 0xBB808081)] (withS 5 0x3F80000000000001 core3) = true := by decide +kernel

/-- VectorConversionFunctions: R280, R281: ties to even, the direction of each mode, and what overflows, in three formats; the places
between two neighbours where these values stand. -/
theorem test_rounding_operator :
    let r (f : FFmt) (m : Rnd) (neg : Bool) (n d : Nat) (sat : Bool := false) := roundTo f m sat (.fin neg n d)
    (Spec.units 3 0x38 * 16 ≤ 17 * 2 ^ 9 ∧ 17 * 2 ^ 9 < Spec.units 3 0x39 * 16 ∧ E4M3.man = 3 ∧ (3 : Int) - E4M3.emin = 9) ∧
    [r E4M3 .rne false 17 16, r E4M3 .rne false 19 16, r E4M3 .rtz false 19 16, r E4M3 .rup false 17 16, r E4M3 .rdn true 17 16] =
      [0x38, 0x3A, 0x39, 0x39, 0xB9] ∧
    [r E5M2 .rne false 70000 1, r E5M2 .rtz false 70000 1, r E5M2 .rne true 70000 1 true, r E5M2 .rup true 70000 1] = [0x7C, 0x7B, 0xFB, 0xFB] ∧
    [r F32 .rne false 3 2, r F32 .rne true 0 1, roundTo F32 .rne false .nan, roundTo F32 .rne false (.inf true), roundTo E4M3 .rne false (.inf true),
      roundTo E2M1 .rne false (.inf false)] = [0x3FC00000, 0x80000000, 0x7FC00000, 0xFF800000, 0x7F, 7] := by decide +kernel

/-- VectorConversionFunctions: R202 to R205 where they are written out: a NaN and a clamp, the NaN scale, and which lanes of A a pack of
s32 to s8 into the second quarter needs where lane 16 of D, elements 64 to 67, is active. -/
theorem test_conversion_tables :
    Spec.converted .f32 .s8 .rne false 0x7FC00001 = 0 ∧ Spec.converted .f32 .s8 .rup false 0x43000001 = 127 ∧
    Spec.converted .s16 .s8 .rne true 0x8000 = 0x80 ∧ Spec.converted .s16 .s8 .rne false 0x8001 = 1 ∧
    Spec.integral .f32 .rne 0x3F000000 = 0 ∧ Spec.integral .f32 .rne 0xBF800000 = 0xBF800000 ∧ Spec.integral .f32 .rne 0xFFFFFFFF = 0x7FC00000 ∧
    Spec.rescaled .f32 .e4m3 .rne true 0xFF 0 = 0x7F ∧ Spec.rescaled .f32 .s8 .rne true 0xFF 0x3F800000 = 0 ∧
    Spec.rescaled .s8 .f32 .rne false 127 64 = 0x3F800000 ∧ Spec.packedLanes 8 32 1 (2 ^ 16) = 0xF := by decide +kernel

/-- The word sends a value to a predicate. -/
def sentP (i : Instr) (n : BitVec 3) (v : Word) (c : Core := core3) : Bool :=
  coreHas (exec i (with1 c)) 0 0 fun e => e.vlands.map VLanding.targets == [[.pred n (.allOnes 64) v]]

/-- VectorPredicates: R200, R201. -/
theorem test_vector_predicates :
    sentP (.vcmp (vx .s32) .lt (.reg 2) (.reg 1) (.imm 2)) 2 3 = true ∧ sentP (.vcmp (vx .f32 (pred := 1)) .gt (.reg 2) (.reg 4) (.reg 3)) 2 5 = true ∧
    sentP (.vcmp (vx .f32) .un (.reg 2) (.reg 2) (.reg 3)) 2 (-1) = true ∧ sentP (.pand (vx .z32) 2 1 0) 2 5 = true ∧ sentP (.por (vx .z32) 2 1 3) 2 5 = true ∧
    sentP (.pxor (vx .z32) 2 1 0) 2 (-6) = true ∧ sentP (.pnot (vx .z32) 2 1) 2 (-6) = true ∧ sentP (.pset (vx .z32) 2 (.imm 64)) 2 (-1) = true ∧
    sentP (.pset (vx .z32) 2 (.scal 1)) 2 5 = true ∧ sentP (.pfirst (vx .z32) 2 1) 2 1 = true ∧
    elems (.pget (vx .z32) 9 1) 32 [(0, 0xFFFFFFFF), (1, 0), (2, 0xFFFFFFFF)] = true ∧ elems (.pcnt (vx .z32) 9 1) 32 [(0, 2), (63, 2)] = true := by
  decide +kernel

/-- VectorSources: a scratchpad reference of each sel, and the advance of a nest of one loop (R190, R211). -/
theorem test_vector_sources :
    let l : Loop := ⟨0x1000, [4], [3], [2], [0x2000], 0, 0x2008⟩
    let c := { core3 with pc := 0x2000, loop := some l }
    let m (sel : BitVec 2) : MemRef := ⟨1, sel, 1⟩
    core3.laneOffset (m 0) .slice 3 = 16 ∧ core3.laneOffset (m 1) .slice 3 = 28 ∧ core3.laneOffset (m 2) .slice 3 = 52 ∧ core3.laneOffset (m 3) .slice 3 = 4 ∧
    c.inLoop = true ∧ c.laneOffset (m 0) .slice 3 = 16 + 2 * 256 ∧ c.laneOffset (m 1) (.elem 2) 3 = 28 + 2 * 512 ∧
    elems (.vmov (vx .z32) (.reg 9) (.mem ⟨1, 0, 0⟩)) 32 [(0, 0), (63, 0)] = true ∧
    ((withBytes core3 [9, 0, 0, 0, 8]).laneReach (recOf (core3.gb 1)) 4 4 = .at_ 0x2000000000001004 (own 0x1004)) ∧
    (sent (exec (.vmov (vx .z32) (.reg 9) (.mem ⟨1, 0, 0⟩)) (withBytes core3 [9, 0, 0, 0, 8]))).map (fun x => (Spec.slot 32 x.2 0, Spec.slot 32 x.2 1)) = some (9, 8) ∧
    coreHas (exec (.vmov (vx .z32) (.reg 9) (.mem ⟨1, 0, 1023⟩)) (with1 core3)) 0 0 (fun e => e.x.xcause == 4 && e.vlands == []) = true ∧
    coreHas (exec (.vmov (vx .z32) (.mem ⟨1, 0, 0⟩) (.reg 1)) (with1 core3)) 0 0 (fun e => e.vlands.length == 1 && e.issueAt == 3) = true := by
  decide +kernel

/-- VectorMemoryWords: R208: s8 widens with its sign; a gather by index; a store narrows; R193: behind a store it waits. -/
theorem test_vector_memory_words :
    let s := withBytes core3 [0x80, 1, 2, 3]
    (sent (exec (.vld (vx .s8) (.reg 9) (.mem ⟨1, 0, 0⟩)) s)).map (fun x => (Spec.slot 32 x.2 0, Spec.slot 32 x.2 1)) = some (0xFFFFFF80, 1) ∧
    (sent (exec (.vgath (vx .z8) (.reg 9) (.mem ⟨1, 0, 0⟩) (.reg 1)) s)).map (fun x => (Spec.slot 32 x.2 0, Spec.slot 32 x.2 3)) = some (0x80, 3) ∧
    coreHas (exec (.vst (vx .s8 true (pred := 1)) (.mem ⟨1, 0, 0⟩) (.reg 1)) s) 0 0 (fun c =>
      c.vlands.map VLanding.targets == [[.mem [(own 0x1000, 0), (own 0x1002, 2)]]]) = true ∧
    coreHas (exec (.vscat (vx .z8 (pred := 1)) (.mem ⟨1, 0, 0⟩) (.reg 1) (.reg 1)) s) 0 0 (fun c =>
      c.vlands.map VLanding.targets == [[.mem [(own 0x1000, 0), (own 0x1002, 2)]]]) = true ∧
    coreHas (exec (.vld (vx .s32) (.reg 9) (.mem ⟨1, 0, 1023⟩)) s) 0 0 (fun c => c.x.xcause == 4) = true ∧
    (let c := { core3 with sq := [⟨.store (own 0x1000) [1], 2, 0⟩] };
      coreHas (exec (.vst (vx .s8) (.mem ⟨1, 0, 0⟩) (.reg 1)) (with1 c)) 0 0 (fun e => e.vlands == [] && e.pc == 0x1000)) = true := by decide +kernel

/-- AccessQueues: R209, R255 to R260. -/
theorem test_access_queues :
    let e (off : Int) : AqEntry := ⟨0x2000000000001000, 16, 0, 4, off, false, true, 0, none, false, none⟩
    let c := { core3 with aq := [[e 4], [], [], []], dq := [[7, 8, 9], [], [], []] }
    (sent (exec (.vdq (vx .s32 (pred := 1)) 9 0) (with1 c))).map (fun x => (Spec.slot 32 x.2 0, Spec.slot 32 x.2 2)) = some (7, 8) ∧
    coreHas (exec (.vdq (vx .s32 (pred := 1)) 9 0) (with1 c)) 0 0 (fun x => x.dq == [[9], [], [], []]) = true ∧
    nextIs (exec (.vdq (vx .s32) 9 0) (with1 c)) (with1 c) = true ∧
    coreHas (exec (.vaq (vx .s32 (pred := 1)) ⟨1, 0, 1⟩ 1 3) (with1 core3)) 0 0 (fun x => (x.aq.getD 3 []).map AqEntry.off == [4, 6]) = true ∧
    nextIs (exec (.vaq (vx .s32) ⟨1, 0, 0⟩ 1 0) (with1 c)) (with1 c) = true ∧
    coreHas (exec (.accessQueueEntryPerform 0 0 0) (withBytes c [1, 0, 0, 0, 5])) 0 0 (fun x => x.aq == [[], [], [], []] && x.dq == [[7, 8, 9, 5], [], [], []]) = true ∧
    coreHas (exec (.accessQueueEntryPerform 0 0 0) (with1 { c with aq := [[e 13], [], [], []] })) 0 0 (fun x =>
      x.aq == [[{ e 13 with held := some .bounds }], [], [], []]) = true ∧
    coreHas (exec (.zeroFill 0 0) (with1 { c with aq := [[{ e 4 with data := some 0 }], [], [], []], dq := [[7], [], [], []] })) 0 0 (fun x =>
      x.aq == [[], [], [], []] && x.dq == [[7, 0], [], [], []]) = true := by decide +kernel

/-- ConditionalStreams: R213, R214. -/
theorem test_conditional_streams :
    let c := { core3 with cs := [[3, 4], .replicate 255 1, [], []], csOvf := 4 }
    coreHas (exec (.vcpush (vx .z32 (pred := 1)) (.reg 1) 0) (with1 c)) 0 0 (fun x => x.cs.getD 0 [] == [3, 4, 0, 2] && x.csOvf == 4) = true ∧
    coreHas (exec (.vcpush (vx .z32 (pred := 1)) (.reg 1) 1) (with1 c)) 0 0 (fun x => (x.cs.getD 1 []).length == 256 && x.csOvf == 6) = true ∧
    (sent (exec (.vcpop (vx .z32) 9 0) (with1 c))).map (fun x => (Spec.slot 32 x.2 0, Spec.slot 32 x.2 1, Spec.slot 32 x.2 2)) = some (3, 4, 0) ∧
    coreHas (exec (.vcflush (vx .z32) 2) (with1 c)) 0 0 (fun x => x.csOvf == 0 && x.cs.getD 0 [] == [3, 4]) = true := by decide +kernel

/-- VectorLoops: R211: the way through a nest of two loops over a body of two words; a count of 0 skips the body. -/
theorem test_vector_loops :
    let l : Loop := ⟨0x1000, [2, 2], [0, 0], [0, 0], [0x100C, 0x1018], 0, 0x1024⟩
    let at_ (pc : BitVec 56) (pos : Nat) (idx : List Nat) : Core := { core3 with pc := pc, loop := some { l with pos := pos, idx := idx } }
    (at_ 0x100C 0 [0, 0]).advance 12 = { at_ 0x1018 1 [0, 0] with seq := 1 } ∧ (at_ 0x1018 1 [0, 0]).advance 12 = { at_ 0x100C 0 [1, 0] with seq := 1 } ∧
    (at_ 0x1018 1 [1, 0]).advance 12 = { at_ 0x100C 0 [0, 1] with seq := 1 } ∧
    (at_ 0x1018 1 [1, 1]).advance 12 = { core3 with pc := 0x1024, loop := none, seq := 1 } := by decide +kernel

/-- VectorLoops: a vloop of one word, fetched from a page of code at 0x1000: it begins its body, or skips it where its count is 0; a word
that is no body word traps. -/
theorem test_vloop :
    let body := bytesOf (encode (.vmov { vx .z32 with lb := true } (.reg 9) (.reg 1)))
    let i := Instr.vloop (vx .z32) 0 1 0
    let s (n : BitVec 32) : State := (with1 { core3 with l := n :: .replicate 7 0 }).fetchSetup (bytesOf (encode i) ++ body ++ bytesOf (encode (.add 1 2 3)))
    coreHas (exec i (s 3)) 0 0 (fun c => c.pc == 0x100C && c.loop == some ⟨0x1000, [3], [0], [0], [0x100C], 0, 0x1018⟩) = true ∧
    coreHas (exec i (s 0)) 0 0 (fun c => c.pc == 0x1018 && c.loop.isNone) = true ∧
    coreHas (exec (.vloop (vx .z32) 1 1 0) (s 3)) 0 0 (fun c => c.x.xcause == 1) = true := by decide +kernel

/-- VectorLoops: R210: a body behind a zero granule; a body word of the vector class that is no legal instruction counts as one; R211: a
body word issues from the loop buffer, adds, and is on its way. -/
theorem test_vloop_body :
    let hdr := { vx .s32 with lb := true }
    let w := Instr.vadd hdr (.reg 9) (.reg 1) (.imm 1)
    let code (l : List Granule) (c : Core) : State := (with1 c).fetchSetup (bytesOf (encode (.vloop (vx .z32) 0 1 0) ++ l ++ encode (.add 1 2 3)))
    let body (l : List Granule) : Option (List (BitVec 56) × BitVec 56) :=
      match ((code l core3).loopBody 0 true 0x1000 1).2 with
      | .body ws a => some (ws, a)
      | _ => none
    let c : Core := { core3 with pc := 0x100C, loop := some ⟨0x1000, [3], [0], [0], [0x100C], 0, 0x1018⟩ }
    let s := (code (encode w) core3).modCore 0 0 fun _ => c
    let u : State := { s with cur := (0, 0) }
    body (encode w) = some ([0x100C], 0x1018) ∧ body (0 :: encode w) = some ([0x1010], 0x101C) ∧
    body [gran [(30, 1), (22, 0x0A), (4, 1)], 0, 0] = some ([0x100C], 0x1018) ∧ body (encode (.add 1 2 3)) = none ∧
    c.inLoop = true ∧ c.boundary.isNone = true ∧ u.mayIssue 0 c = true ∧ (vectorMeaning w).isSome = true ∧
    (match (u.fetchNext 0 c).2 with | .word i n => decide (i = w ∧ n = 12) | _ => false) = true ∧
    (sent (exec (.vloopBodyIssue 0 0) s)).map (fun x => (Spec.slot 32 x.2 0, Spec.slot 32 x.2 5)) = some (1, 6) ∧
    coreHas (exec (.vloopBodyIssue 0 0) s) 0 0 (fun x => x.pc == 0x100C && (x.loop.map Loop.idx) == some [1]) = true ∧
    Spec.turnOf [2, 3] [1, 2] = 5 := by decide +kernel

/-- VectorResultsLand: nothing before the window, then the oldest, in its lanes. -/
theorem test_vector_results_land :
    let e : VLanding := ⟨[.reg 9 0xFF 0x12345], 2, 15, 0, 0, false⟩
    let f : VLanding := ⟨[.pred 0 (-1) 7], 2, 15, 0, 0, false⟩
    let s (n : Nat) (l : List VLanding) : State := { with1 { core3 with vlands := l } with now := n }
    nextIs (exec (.vectorResultLanding 0 0) (s 1 [e, f])) (s 1 [e, f]) = true ∧
    coreHas (exec (.vectorResultLanding 0 0) (s 2 [e, f])) 0 0 (fun c => c.gv 9 == 0x45 && c.vlands == [f]) = true ∧
    coreHas (exec (.vectorResultLanding 0 0) (s 2 [f])) 0 0 (fun c => c.gp 0 == -1 && c.vlands == []) = true ∧
    nextHas (exec (.vectorResultLanding 0 0) (s 2 [{ e with targets := [.mem [(own 0, 1)]] }])) (fun t => t.mem.byte (own 0) == 1) = true ∧
    (let g (n : BitVec 5) : VLanding := ⟨[.reg n 0xFF00 0x4300], 2, 15, 0, 1, false⟩;
      (((s 2 [e, g 10]).choose (.landLater 0 0 1)).core? 0 0).any (fun c => c.gv 10 == 0x4300 && c.vlands == [e]) = true ∧
      (s 2 [e, g 9]).choose (.landLater 0 0 1) = s 2 [e, g 9] ∧ (s 1 [e, g 10]).choose (.landLater 0 0 1) = s 1 [e, g 10]) := by
  decide +kernel

/-! ## Engines -/

/-- A header that names nothing, and a queue entry of a word whose guard is true. -/
def plain : EHdr := ⟨none, 0, 0, 0, 0, 0, none⟩
def entry (i : Instr) : Entry := ⟨i, 0, some true, none, false, none, false, true, 0, 0, 0, 0, 0, 0, 0, [], none⟩

/-- A core with the entries of a queue. -/
def queued (c : Core) (g : Engine) (l : List Entry) : Core := c.setQueue g l

/-- A copy of 4 rows of s32 through b1 with its token in s9 and its handle in s10. -/
def pump2 : Pump := ⟨1, 1, 0, 64, 9, 10, false, [⟨.count 3, 0, 0⟩]⟩

/-- A running entry. -/
def runs (e : Entry) (f : Run → Run := id) : Entry := { e with run := some (f (.fresh 0 0)) }

/-- EngineWordsAreQueued: R169, R170: an entry of each queue; a full queue holds the word, a token in use too; a check traps. -/
theorem test_engine_words_are_queued :
    Spec.issueOf (.mrel plain) ≠ none ∧ core1.here [.b 1, .b 1] = true ∧ (with1 core1).copyChk core1 pump2 false false = none ∧
    coreHas (exec (.pcopy plain pump2) (with1 core1)) 0 0 (fun c => (c.queue .pump).map Entry.word == [.pcopy plain pump2] && c.isPend 9 &&
      c.gs 10 == 0 && c.handles == 1 && c.pc == 0x1018 && (c.queue .pump).map Entry.img1 == [core1.gb 1]) = true ∧
    coreHas (exec (.mzero { plain with guard := some 3 } 0) ((with1 { core1 with g := core1.g.set 3 .opened }).modCtx 0 fun x =>
      { x with held := some { heldOne with acc := 1 } })) 0 0 (fun c => (c.queue .matrix).map (fun e => (e.outcome, e.pending)) == [(none, some 3)]) = true ∧
    coreHas (exec (.mrel { plain with guard := some 3 }) (with1 { core1 with g := core1.g.set 3 .no })) 0 0 (fun c =>
      (c.queue .matrix).map (fun e => (e.outcome, e.pending)) == [(some false, none)]) = true ∧
    coreHas (exec (.csync plain .herd 7) (with1 core1)) 0 0 (fun c => (c.queue .coll).length == 1) = true ∧
    nextIs (exec (.mrel plain) (with1 (queued core1 .matrix (.replicate 16 (entry (.mrel plain))))))
      (with1 (queued core1 .matrix (.replicate 16 (entry (.mrel plain))))) = true ∧
    nextIs (exec (.pcopy plain pump2) (with1 (core1.setPend 9 true))) (with1 (core1.setPend 9 true)) = true ∧
    coreHas (exec (.mzero plain 0) ((with1 core1).modCtx 0 fun x => { x with held := some { heldOne with acc := 0 } })) 0 0 (fun c =>
      c.x.xcause == 4 && c.queue .matrix == []) = true := by decide +kernel

/-- EngineWordsAreQueued: a completion barrier at b2: captured, malformed, or on its way to a translation. -/
theorem test_engine_words_name_a_barrier :
    let k : EHdr := { plain with bar := some ⟨2, 0⟩ }
    let c := withObject 0x6000000000000000
    let s (v : Nat) : State := withDsp c (leBytes 8 0x70005 ++ leBytes 8 (3 + v * 2 ^ 32))
    (match ((s 3).barCheck c k).2 with | .ok g p => g == 7 && p == 0x6000000000000000 | _ => false) = true ∧
    coreHas (exec (.csync k .herd 7) (s 3)) 0 0 (fun c => (c.queue .coll).map Entry.bar == [0x6000000000000000]) = true ∧
    coreHas (exec (.csync k .herd 7) (s 0)) 0 0 (fun c => c.x.xcause == 4) = true ∧
    (match (with1 core1).barCheck core1 plain with | (u, .ok 0 0) => decide (u = with1 core1) | _ => false) = true := by decide +kernel

/-- EngineWordsAreQueued: R265 to R268, R298, R309, R343, R380: what each check finds. -/
theorem test_engine_issue_checks :
    let s := with1 core1
    let bare := s.modCtx 0 fun x => { x with held := some { heldOne with matrix := false } }
    let some_ := s.modCtx 0 fun x => { x with held := some { heldOne with acc := 1 } }
    (recOf (core1.gb 1)).ok = true ∧ (recOf (rec 0 0 15)).ok = false ∧
    s.fillChk { core1 with b := .replicate 16 (rec 0 0 15) } pump2 = some (.bounds false 0) ∧
    (s.copyChk { core1 with b := .replicate 16 (rec 0 0 15) } pump2 false false).isSome = true ∧
    coreHas (exec (.ppage plain 1 1 9 0) s) 0 0 (fun c => c.x.xcause == 2 && c.queue .pump == []) = true ∧
    bare.matrixChk core1 (.mrel plain) = some .undeclaredMatrix ∧ some_.matrixChk core1 (.mzero plain 1) = some (.bounds false 0) ∧
    some_.matrixChk core1 (.mzero plain 0) = none ∧ some_.matrixChk core1 (.mrel plain) = none ∧
    ({ s with cur := (0, 1) } : State).wellChk core1 (.wmode plain ⟨0, 0⟩ .int8 false) = some (.bounds false 0) ∧
    s.wellChk core1 (.wmode plain ⟨0, 0⟩ .int8 false) = some (.bounds false 0) ∧
    (match (s.collChk core1 (.cred plain 1 1 .f32 0 .sum .herd 0)).2 with | .ok => true | _ => false) = true ∧
    (match (s.collChk core1 (.cred plain 1 1 .s4 3 .sum .herd 0)).2 with | .trap k => decide (k = .bounds false 0) | _ => false) = true ∧
    (let c := { withObject 0x6000000000000000 with sq := [⟨.store (dspLoc 0 8) [1], 0, 0⟩] };
      (match ((withDsp c (leBytes 8 5 ++ leBytes 8 (3 * 2 ^ 32))).barCheck c { plain with bar := some ⟨2, 0⟩ }).2 with
        | .wait => true
        | _ => false) = true) := by decide +kernel

/-- EngineEntriesStart: R171 to R175: a step of each kind. -/
theorem test_entry_steps :
    let e := entry (.mrel plain)
    let w := entry (.mrel { plain with wcnt := 2, wsem := 5 })
    (runs e).step = .running ∧ { e with outcome := none }.step = .guardHeld ∧ w.step = .semWaiting ∧ { w with granted := true }.step = .ready ∧
    e.step = .ready ∧ { e with outcome := some false }.step = .discarded ∧ { e with cancel := true }.step = .discarded := by decide +kernel

/-- EngineEntriesStart: R172, R304 to R306: the pump takes core 1 behind core 0; a lease and its bounds; a mzero needs one. -/
theorem test_engine_entries_start :
    let p := { (entry (.pcopy plain pump2)) with img1 := core1.gb 1, img2 := core1.gb 1, bounds := [4] }
    let z := entry (.mzero plain 0)
    let m (c : Core) := part [queued c .matrix [z], queued c .matrix [z]]
    let lend (l : Option Lease) (s : State) : State := s.modCtx 0 fun x => { x with lease := l, lastRun := [7, 7, 7, 0] }
    (part [queued core1 .pump [p], queued core1 .pump [p]]).pumpChoice 0 = some (0, 0) ∧
    coreHas (exec (.engineEntryStart 0 0 .pump) (part [queued core1 .pump [p], queued core1 .pump [p]])) 0 0 (fun c => c.runs .pump) = true ∧
    nextIs (exec (.engineEntryStart 0 1 .pump) (part [queued core1 .pump [p], queued core1 .pump [p]]))
      (part [queued core1 .pump [p], queued core1 .pump [p]]) = true ∧
    (m core1).matrixReady 0 0 = true ∧ (m core1).matrixBusy 0 = false ∧ (lend (some ⟨0, 0, 0, none⟩) (m core1)).underLease ⟨0, 0, 0, none⟩ z = true ∧
    coreHas (exec (.engineEntryStart 0 0 .matrix) (lend (some ⟨0, 0, 0, none⟩) (m core1))) 0 0 (fun c => c.runs .matrix) = true ∧
    nextIs (exec (.engineEntryStart 0 0 .matrix) (m core1)) (m core1) = true ∧
    nextHas (exec (.leaseGrant 0) (lend none (m core1))) (fun t => (t.ctx? 0).map HerdCtx.lease == some (some ⟨1, 0, 0, none⟩)) = true ∧
    nextIs (exec (.leaseGrant 0) (lend (some ⟨0, 0, 0, none⟩) (m core1))) (lend (some ⟨0, 0, 0, none⟩) (m core1)) = true ∧
    (lend (some ⟨0, 0, 16, none⟩) (m core1)).leaseOver 0 ⟨0, 0, 16, none⟩ = true ∧ (lend (some ⟨0, 0, 15, none⟩) (m core1)).leaseOver 0 ⟨0, 0, 15, none⟩ = false ∧
    nextHas (exec (.leaseEnd 0) (lend (some ⟨0, 0, 16, none⟩) (m core1))) (fun t => (t.ctx? 0).map HerdCtx.lease == some none) = true := by decide +kernel

/-- A stream register (R292): ring base, size, head, tail and format code. -/
def strm (base size head tail code : Nat) : Image :=
  .ofNat 256 (base + size * 2 ^ 64 + head * 2 ^ 128 + tail * 2 ^ 160 + code * 2 ^ 192)

/-- A core of which q1 and q2 are rings of 8 KiB of its scratchpad, from 0x1000 and 0x3000, that hold n bytes of a format each. -/
def ringed (n code : Nat) (c : Core := core1) : Core :=
  { c with q := [0, strm 0x2000000000001000 8192 0 n code, strm 0x2000000000003000 8192 0 n code] ++ .replicate 13 0 }

/-- A matrix entry on these rings. -/
def onRings (i : Instr) (code : Nat) : Entry :=
  { entry i with img1 := strm 0x2000000000001000 8192 0 0 code, img2 := strm 0x2000000000003000 8192 0 0 code }

/-- EngineEntriesStart: R172, R272, R297: a copy into a ring needs room for its 16 bytes, and one that drains a ring needs them there. -/
theorem test_ring_entries_start :
    let c (n : Nat) := ringed n 0x04
    let into : Entry := { (entry (.pcopy plain { pump2 with ring := true })) with img1 := core1.gb 1, img2 := (c 0).gq 1, bounds := [4] }
    let out : Entry := { (entry (.pring plain pump2)) with img1 := (c 0).gq 1, img2 := core1.gb 1, bounds := [8] }
    let ok (n : Nat) (e : Entry) := (with1 (queued (c n) .pump [e])).pumpReady 0 0
    [ok 8176 into, ok 8177 into, ok 16 out, ok 15 out] = [true, false, true, false] ∧
    ((with1 (queued (c 0) .pump [into])).pumpChoice 0).isSome = true ∧ (pumpJob (c 0) into).map PJob.bytes = some 16 := by decide +kernel

/-- Memory and footprints of a part whose herds each run one context and have lost no parity group. -/
theorem soundOf {s : State} (h : (s.marks.isEmpty && s.misses.isEmpty && s.herds.all fun x => x.old.isNone && x.phys.all fun p =>
    p.groups.all fun g => !g.dead) = true) : Spec.Sound s := by
  simp only [Bool.and_eq_true, List.isEmpty_iff, List.all_eq_true, Option.isNone_iff_eq_none, Bool.not_eq_true'] at h
  exact ⟨h.1.1, h.1.2, fun x hx => (h.2 x hx).2, s.spillHolds_of_single fun x hx => (h.2 x hx).1⟩

/-- A Running head that ends next. -/
theorem endsOf {s : State} {h c : Nat} {g : Engine} {x : Core} {e : Entry} {r : Run} (i : (decide (s.core? h c = some x) &&
    decide ((s.herds[h]?).bind Herd.old = none) && decide (x.head g = some e) && decide (e.run = some r) && !r.stop &&
    decide (r.final = .ok) && decide (e.hdr.bar = none) && s.mayEnd h e) = true) : Spec.Ends s h c g x e r := by
  simp only [Bool.and_eq_true, decide_eq_true_eq, Bool.not_eq_true'] at i
  obtain ⟨⟨⟨⟨⟨⟨⟨a, b⟩, c⟩, d⟩, e⟩, f⟩, g⟩, h⟩ := i
  exact ⟨a, b, c, d, e, f, g, h⟩

/-- EngineEntriesStart: R304, R306: a tile step under the lease starts with its operands, 4,096 bytes of bf16 from each ring's head; a mrel
without the lease completes, and another head waits. -/
theorem test_matrix_entries_start :
    let e := onRings (.mmul plain 0 1 2 true) 0x04
    let c := queued (ringed 4096 0x04) .matrix [e]
    let lend (l : Option Lease) (s : State) : State := s.modCtx 0 fun x => { x with lease := l }
    let s := lend (some ⟨0, 0, 0, none⟩) (with1 c)
    let m (l : Option Lease) := lend l (with1 (queued core1 .matrix [entry (.mrel plain)]))
    s.matrixReady 0 0 = true ∧ s.operandsHeld 0 0 e = false ∧ s.matrixBusy 0 = false ∧ Spec.charge e.word = 64 ∧
    (operandsOf e).map (fun o => (o.t, o.q.stripe)) = [(4096, 0), (4096, 0)] ∧ Spec.Sound s ∧
    (m none).matrixReady 0 0 = true ∧ (m none).operandsHeld 0 0 (entry (.mrel plain)) = false ∧ 2 ≤ core1.last.length ∧
    coreHas (exec (.engineEntryStart 0 0 .matrix) (m none)) 0 0 (fun x => x.queue .matrix == [] && x.done == [0, 1, 0, 0]) = true ∧
    nextHas (exec (.engineEntryStart 0 0 .matrix) (m (some ⟨1, 0, 0, none⟩))) (fun t => ((t.ctx? 0).bind HerdCtx.lease) == some ⟨1, 0, 0, none⟩) = true ∧
    nextIs (exec (.engineEntryStart 0 0 .matrix) (lend none (with1 c))) (lend none (with1 c)) = true := by
  refine ⟨?_, ?_, ?_, ?_, ?_, soundOf (by decide +kernel), ?_⟩ <;> decide +kernel

/-- EngineEntriesStart: R306: a lease whose holder has nothing ends when another core wants it, at once without a head, and after 64 ck with
one that is not startable. -/
theorem test_leases_end :
    let z := entry (.mzero plain 0)
    let idle := { z with outcome := none }
    let s (l : List Entry) (now : Nat) : State := { part [queued core1 .matrix l, queued core1 .matrix [z]] with now := now }
    let o (l : List Entry) (now : Nat) (k : Option Nat) := (s l now).leaseOver 0 ⟨0, 0, 0, k⟩
    (s [] 0).wantsLease 0 1 = true ∧ o [] 0 none = true ∧ o [idle] 70 none = false ∧ o [idle] 70 (some 6) = true ∧ o [idle] 69 (some 6) = false ∧
    o [z] 4096 none = true ∧ o [z] 4080 none = false ∧ (s [idle] 0).matrixReady 0 0 = false := by decide +kernel

/-- A rectangle of one well of the node, and its driver's part. -/
def rect1 : Rect := ⟨0, 0, 0, 0, 0, [[⟨⟨none, .int8, false, [], none, 0, 0⟩, ⟨none, .int8, false, [], none, 0, 0⟩, false⟩]],
  [⟨.int8, false, false, false, false, .identity, .replicate 32 0x3F800000, .replicate 32 0⟩], [.replicate 64 ⟨.replicate 32 0, -127⟩],
  [.replicate 64 ⟨none, .replicate 32 ⟨0, false, false, false⟩, .replicate 32 0, false, false, false, []⟩], [], false⟩

def driver (l : List Entry) : State :=
  { (with1 (queued core1 .well l)).modCtx 0 fun x => { x with held := some { heldOne with well := true, rows := 1, cols := 1 } } with rects := [rect1] }

/-- EngineEntriesStart: a windlass takes the driver's head; a csync starts at the eight cores of a herd at once. -/
theorem test_windlass_and_collective_start :
    let w := entry (.wmode plain ⟨0, 0⟩ .int8 true)
    let c := queued core1 .coll [entry (.csync plain .herd 7)]
    let s := part (.replicate 8 c)
    (driver [w]).wellReady 0 0 = true ∧ (driver [w]).refilling 0 = false ∧ (driver [w]).refilled 0 = driver [w] ∧
    coreHas (exec (.engineEntryStart 0 0 .well) (driver [w])) 0 0 (fun c => c.runs .well) = true ∧
    (let e := { (entry (.wload plain ⟨⟨0, 0⟩, 0, 0⟩ true 0x2000 5)) with scal := 0x4000 };
      nextHas (exec (.engineEntryStart 0 0 .well) (driver [e])) (fun t =>
        t.rects.map (fun x => ((x.well 0 0).latch true).off) == [some 0x6000] && t.rects.map (fun x => ((x.well 0 0).latch false).off) == [none] &&
        t.rects.map (fun x => ((x.well 0 0).latch true).fill) == [some ⟨false, [], []⟩]) = true) ∧
    ((collOf (.csync plain .herd 7)).any fun k => (List.range 8).all fun i => (s.collHead heldOne k 0 (0, i)).isSome) = true ∧
    nextHas (exec (.collectiveStart 0 3) s) (fun t => (List.range 8).all fun k => (t.core? 0 k).any fun c => c.runs .coll) = true ∧
    nextIs (exec (.collectiveStart 0 3) (part (core1 :: .replicate 7 c))) (part (core1 :: .replicate 7 c)) = true ∧
    (let d := queued core1 .coll [{ (entry (.csync plain .herd 7)) with num := 4096 }];
      nextIs (exec (.collectiveStart 0 3) (part (d :: .replicate 7 c))) (part (d :: .replicate 7 c)) = true) := by decide +kernel

/-- A herd whose cores each have a cred, running or not, of one s32 between two buffers of their scratchpads; core i's sends i + 1. -/
def creds (f : Nat → Entry → Entry) : State :=
  let w := Instr.cred plain 2 1 .s32 1 .sum .herd 7
  let e := { (entry w) with img1 := rec 0x2000000000001000 64 0 0 2, img2 := rec 0x2000000000002000 64 0 0 2 }
  { part ((List.range 8).map fun i => queued core1 .coll [f i e]) with
    mem := (List.range 8).foldl (fun m i => m.write (own (0x1000 + i * 2 ^ 20)) [.ofNat 8 (i + 1)]) ⟨[], []⟩ }

/-- EngineEntriesStart, EngineResults: R381, R382: cred of a herd's eight cores: all start, and each is to receive 36. -/
theorem test_collective_sums :
    let s := creds fun _ e => e
    let k : Coll := ⟨2, 1, .s32, 1, .herd, 7⟩
    collOf (.cred plain 2 1 .s32 1 .sum .herd 7) = some k ∧ (s.participants heldOne 0 .herd).length = 8 ∧
    ((List.range 8).all fun i => (s.collHead heldOne k 0 (0, i)).any fun e => (recOf e.img1).ok) = true ∧
    (let r := recOf (rec 0x2000000000001000 64 0 0 2);
      r.ok = true ∧ pSpace r.base = 1 ∧ 4 * 1 ≤ r.extent.toNat ∧ (∀ i, i < 8 → pAddr r.base + 4 * 1 ≤ s.capacity 0 i) ∧ pAddr r.base % 4 = 0) ∧
    Spec.collected (.cred plain 2 1 .s32 1 .sum .herd 7) ((List.range 8).map fun i => [.ofNat 8 (i + 1), 0, 0, 0]) 5 = [36, 0, 0, 0] ∧
    nextHas (exec (.collectiveStart 0 3) s) (fun t => (List.range 8).all fun i => (t.core? 0 i).any fun c =>
      (((c.head .coll).bind Entry.run).map Run.kept) == some [[36, 0, 0, 0]]) = true := by decide +kernel

/-- EngineResults: R382, R383: the completion of a cred of a herd gives every core its 36. -/
theorem test_collective_delivers :
    let r : Run := { Run.fresh 8 0 with kept := [[36, 0, 0, 0]] }
    let s := creds fun _ e => { e with run := some r }
    s.mayEnd 0 (entry (.cred plain 2 1 .s32 1 .sum .herd 7)) = true ∧ r.final = .ok ∧
    nextHas (exec (.engineEntryCompletion 0 5 .coll) s) (fun t => (List.range 8).all (fun i =>
      t.mem.read (own (0x2000 + i * 2 ^ 20)) 5 == [36, 0, 0, 0, 0]) && (t.core? 0 5).any fun c => c.queue .coll == []) = true := by decide +kernel

/-- EngineEntriesEnd: R178, R180 to R183. -/
theorem test_completion_actions :
    let x := ctxOf []
    let p := entry (.pcopy plain pump2)
    let c := queued (core1.setPend 9 true) .pump [p, p]
    (x.signal 5 65535).sem 5 = 65535 ∧ (x.signal 5 65535).kov = false ∧ ((x.signal 5 65535).signal 5 1).kov = true ∧
    (((x.signal 5 65535).signal 5 1).signal 6 65536).ksem = 5 ∧
    tokenOf (.mrel plain) = none ∧ tokenOf p.word = some 9 ∧ c.s.length = 32 ∧
    (c.complete .pump p .ok 0 16 3).gs 9 = 16 ∧ (c.complete .pump p .translation 0 16 3).gs 9 = 0xFFFFFFFFFFFFFFF8 ∧
    (c.complete .pump p .ok 0 16 3).isPend 9 = false ∧ (c.complete .pump p .ok 0 16 3).queue .pump = [p] ∧
    (c.complete .pump p .ok 0 16 3).done = [1, 0, 0, 0] ∧
    ((queued core1 .matrix [entry (.mrel plain)]).complete .matrix (entry (.mrel plain)) .ok 0 0 0).queue .matrix = [] ∧
    coreHas (exec (.engineEntryCompletion 0 0 .pump) (with1 (queued core1 .pump [{ p with outcome := some false }]))) 0 0 (fun c =>
      c.queue .pump == [] && c.last == [.ok, .ok, .ok, .ok] && c.gs 9 == 0) = true ∧
    coreHas (exec (.engineEntryCompletion 0 0 .pump) (with1 (queued core1 .pump [{ p with cancel := true }]))) 0 0 (fun c =>
      c.queue .pump == [] && c.last == [.cancelled, .ok, .ok, .ok]) = true ∧
    nextIs (exec (.engineEntryCompletion 0 0 .coll) (with1 c)) (with1 c) = true ∧
    (with1 c).oldCore? 0 0 = none ∧
    nextHas (exec (.engineEntryCompletion 0 0 .matrix) (with1 (queued core1 .matrix [{ (entry (.mrel { plain with scnt := 2, ssem := 9 })) with
      outcome := some false }]))) (fun t => ((t.ctx? 0).map fun x => x.sem 9) == some 2) = true := by decide +kernel

/-- EngineEntriesEnd: R178, R179, R182, R373: completions of entries that perform nothing. A signal waits while a grant has been made in
the ck, and saturates; an object of generation 7 takes one arrival of a discarded entry of that tag, with status 0; the 16 bytes of a
cancelled pump entry, with status 6, where it counts bytes; one of another tag makes the status stale_barrier. -/
theorem test_idle_completions :
    let w (k : EHdr) : Entry := { (entry (.mrel k)) with outcome := some false }
    let sig : EHdr := { plain with scnt := 3, ssem := 9 }
    let k : EHdr := { plain with bar := some ⟨2, 0⟩ }
    let at_ (n : Nat) (t : SemTurn) : State := (with1 (queued core1 .matrix [w sig])).modCtx 0 fun x =>
      { x with k := x.k.set 9 (.ofNat 16 n), turn := t }
    let obj (bytes : Nat) := leBytes 8 (0x70005 + 100 * 2 ^ 32) ++ leBytes 8 (3 + (6 + bytes) * 2 ^ 32)
    let held (b : Nat) (e : Entry) (g : Engine) : State :=
      withDsp (queued (withObject 0x6000000000000000) g [{ e with bar := 0x6000000000000000, gen := 7 }]) (obj b)
    let p : Entry := { (entry (.pcopy k pump2)) with cancel := true, img1 := core1.gb 1, img2 := core1.gb 1, bounds := [4] }
    let dw (o : Out) : Option Nat := match o with
      | .next t => some (leNat (t.mem.read (dspLoc 0 0) 8))
      | _ => none
    (at_ 65534 ⟨0, false, []⟩).mayEnd 0 (w sig) = true ∧ (at_ 65534 ⟨0, true, []⟩).mayEnd 0 (w sig) = false ∧
    nextIs (exec (.engineEntryCompletion 0 0 .matrix) (at_ 65534 ⟨0, true, []⟩)) (at_ 65534 ⟨0, true, []⟩) = true ∧
    nextHas (exec (.engineEntryCompletion 0 0 .matrix) (at_ 65534 ⟨0, false, []⟩)) (fun t => (t.ctx? 0).any fun x => x.sem 9 == 65535 && x.kov && x.ksem == 9)
      = true ∧
    (Machine.barOf (leNat (obj 0))).bytes = false ∧ (Machine.barOf (leNat (obj 1))).bytes = true ∧
    (Machine.barOf (leNat (obj 0))).discards (some 7) = false ∧ (Machine.barOf (leNat (obj 0))).discards (some 6) = true ∧
    (match ((held 0 (w k) .matrix).reach 0 0 true 0x6000000000000000 ⟨16, 16, true, false⟩).2 with | .at_ _ (.loc l false) => l == dspLoc 0 0 | _ => false) = true ∧
    dw (exec (.engineEntryCompletion 0 0 .matrix) (held 0 (w k) .matrix)) = some (0x70005 + 99 * 2 ^ 32) ∧
    dw (exec (.engineEntryCompletion 0 0 .pump) (held 1 p .pump)) = some (0x6070005 + 84 * 2 ^ 32) ∧
    coreHas (exec (.engineEntryCompletion 0 0 .pump) (held 1 p .pump)) 0 0 (fun x => x.last.headD .ok == .cancelled) = true ∧
    coreHas (exec (.engineEntryCompletion 0 0 .matrix) ((held 0 (w k) .matrix).modCore 0 0 fun x => queued x .matrix [{ w k with
      bar := 0x6000000000000000, gen := 6 }])) 0 0 (fun x => x.last.getD 1 .ok == .staleBarrier) = true ∧
    coreHas (exec (.engineEntryCompletion 0 0 .matrix) (with1 (queued core1 .matrix [{ w k with bar := 0x8000 }]))) 0 0 (fun x =>
      x.last.getD 1 .ok == .staleBarrier) = true := by decide +kernel

/-- EngineEntriesEnd: R306, R373: a Running mrel gives its core's lease back, signals, and arrives once at its header's barrier. -/
theorem test_mrel_completes :
    let k : EHdr := { plain with scnt := 3, ssem := 9 }
    let b : EHdr := { plain with bar := some ⟨2, 0⟩ }
    let e := runs (entry (.mrel k))
    let s : State := (with1 (queued core1 .matrix [e])).modCtx 0 fun x => { x with lease := some ⟨0, 0, 1, none⟩ }
    let o : State := withDsp (queued (withObject 0x6000000000000000) .matrix [{ (runs (entry (.mrel b))) with bar := 0x6000000000000000, gen := 7 }])
      (leBytes 8 (0x70005 + 2 * 2 ^ 32) ++ leBytes 8 (3 + 6 * 2 ^ 32))
    s.matrixSound 0 = true ∧ s.mayEnd 0 e = true ∧ (Run.fresh 0 0).final = .ok ∧
    nextHas (exec (.engineEntryCompletion 0 0 .matrix) s) (fun t => (t.ctx? 0).any fun x => x.lease.isNone && x.sem 9 == 3) = true ∧
    nextHas (exec (.engineEntryCompletion 0 0 .matrix) o) (fun t => leNat (t.mem.read (dspLoc 0 0) 8) == 0x70005 + 2 ^ 32) = true := by decide +kernel

/-- EngineEntriesEnd: R274: the three answers of pcancel, and the acknowledgement that a Running entry waits for. -/
theorem test_pump_cancel :
    let p : Entry := { (entry (.pcopy plain pump2)) with img1 := core1.gb 1, img2 := core1.gb 1, bounds := [4] }
    let q : Entry := { p with handle := 1 }
    let c := { queued core1 .pump [runs p, q] with handles := 3 }
    let ans (x : Core) := x.landings.map fun l => (l.reg, l.val)
    let a (v : Word) := exec (.pcancel 9 5) (with1 (withS 5 v c))
    coreHas (a 3) 0 0 (fun x => ans x == [(9, 2)]) = true ∧ coreHas (a 0x100000000) 0 0 (fun x => ans x == [(9, 2)]) = true ∧
    coreHas (a 2) 0 0 (fun x => ans x == [(9, 1)]) = true ∧ (pumpJob c q).isSome = true ∧
    coreHas (a 1) 0 0 (fun x => (x.queue .pump).map Entry.cancel == [false, true] && ans x == [(9, 0)]) = true ∧
    coreHas (a 0) 0 0 (fun x => x.cancelRd == [(0, 9)] && x.isPend 9 && ((x.head .pump).bind Entry.run).map Run.stop == some true) = true ∧
    nextIs (exec (.pumpCancelAck 0 0) (with1 c)) (with1 c) = true := by decide +kernel

/-- EngineEntriesEnd: R274: the acknowledgement of a stopped fill: cancelled, and the pcancel answered with 0. -/
theorem test_pump_cancel_ack :
    let p : Entry := { (entry (.pfill plain { pump2 with soff := 0 })) with img2 := core1.gb 1, bounds := [4] }
    let c := { queued core1 .pump [runs p fun r => { r with stop := true }] with handles := 1, cancelRd := [(0, 8)] }
    (pumpJob c p).isSome = true ∧ c.head .pump ≠ none ∧
    coreHas (exec (.pumpCancelAck 0 0) (with1 c)) 0 0 (fun x => x.queue .pump == [] && x.last.headD .ok == .cancelled &&
      x.gs 9 == 0xFFFFFFFFFFFFFFFA && x.cancelRd == [] && (x.landings.map fun l => (l.reg, l.val)) == [(8, 0)]) = true := by decide +kernel

/-- EngineResults: R312, R316: a mzero commits +0 to its accumulator and no other; lines of a tile step of 16,384 elements. -/
theorem test_matrix_results :
    let s := (with1 (queued core1 .matrix [runs (entry (.mzero plain 0))])).modCtx 0 fun x => { x with acc := [[7], [8]] }
    s.matrixSound 0 = true ∧ s.oldCore? 0 0 = none ∧
    nextHas (exec (.engineEntryCompletion 0 0 .matrix) s) (fun t => (t.ctx? 0).any fun x =>
      (x.acc.getD 0 []).take 2 == [0, 0] && x.acc.getD 1 [] == [8]) = true ∧
    (stepTile true 1 [.fin false 3 2] [.fin true 2 1] [0]) = [0xC0400000] ∧ (stepTile false 1 [.fin false 3 2] [.fin true 2 1] [0x40400000]) = [0] := by
  decide +kernel

/-- The part of a Running matrix entry whose herd holds two accumulators of zeros, all its tiles of 16,384 lanes. -/
def tiled (c : Core) (e : Entry) : State :=
  (with1 (queued c .matrix [e])).modCtx 0 fun x => { x with acc := List.replicate 2 (List.replicate 16384 0) }

theorem tiled_lengths (c : Core) (e : Entry) (y : HerdCtx) (h : (tiled c e).ctx? 0 = some y) : ∀ t ∈ y.acc, t.length = 16384 := by
  have : y.acc = List.replicate 2 (List.replicate 16384 0) := by
    rw [← Option.some.inj (show (tiled c e).ctx? 0 = some _ from rfl |>.symm.trans h)]
  intro t ht
  rw [this] at ht
  rw [List.eq_of_mem_replicate ht, List.length_replicate]

/-- A tile of zeros of n bytes, the least first 1.5 or 2 as bf16 with its other byte. -/
def tileOf (a b : Byte) (n : Nat) : List Byte := a :: b :: List.replicate n 0

theorem pieces_length (n k : Nat) (bs : List Byte) : (pieces n k bs).length = k := by simp [pieces]

theorem codes_length (w : Nat) (bs : List Byte) (h : w ≠ 4) : (codesOf w bs).length = bs.length / (w / 8) := by
  simp [codesOf, h, pieces_length]

/-- EngineResults: R301, R302, R312, R313: a Running mmul of bf16 tiles, K = 16, meets the hypotheses of its commit; so does a mkat. -/
theorem test_tile_steps :
    let ba := tileOf 0xC0 0x3F 4094
    let bb := tileOf 0 0x40 4094
    let r : Run := { Run.fresh 64 0 with kept := [ba, bb] }
    let c := ringed 4096 0x04
    let e (i : Instr) := { onRings i 0x04 with run := some r }
    let v (b : List Byte) := (codesOf 16 b).map (valueOf .bf16)
    let ok (i : Instr) : Prop := Spec.Ends (tiled c (e i)) 0 0 .matrix (queued c .matrix [e i]) (e i) r ∧ (tiled c (e i)).matrixSound 0 = true ∧
      wordK i (streamOf (e i).img1) (streamOf (e i).img2) = some 16 ∧ r.tiles (queued c .matrix [e i]) (e i) = [v ba, v bb]
    ok (.mmul plain 0 1 2 true) ∧ ok (.mkat plain 1 1 2 true 5) ∧ (v ba).length = 128 * 16 ∧ (v bb).length = 128 * 16 ∧ c.q.length = 16 ∧
    c.last.length = 4 ∧ ((tiled c (e (.mrel plain))).ctx? 0).map HerdCtx.accErr = some [] := by
  refine ⟨⟨⟨rfl, rfl, rfl, rfl, rfl, rfl, rfl, rfl⟩, ?_, ?_, rfl⟩, ⟨⟨rfl, rfl, rfl, rfl, rfl, rfl, rfl, rfl⟩, ?_, ?_, rfl⟩, ?_, ?_, ?_, ?_, ?_⟩
  case refine_5 | refine_6 =>
    rw [List.length_map, codes_length _ _ (by decide)]; simp only [tileOf, List.length_cons, List.length_replicate]
  all_goals decide +kernel

/-- EngineResults: R312, R318, R319: elements of a tile step and of a sliced product, and CRC-64/ECMA-182 of a byte. -/
theorem test_matrix_elements :
    Spec.stage true 1 [.fin false 3 2] [.fin true 2 1] 0 0 0 = 0xC0400000 ∧ Spec.stage false 1 [.fin false 3 2] [.fin true 2 1] 0x40400000 0 0 = 0 ∧
    Spec.sliced F32 2 true [.fin false 3 2] [.fin false 2 1] 0 = 0x40400000 ∧ Spec.sliced F32 1 true [.nan] [.fin false 2 1] 0 = 0x7FC00000 ∧
    Spec.digitsOf 2 64 3 4 = [48, 0] ∧ Spec.nearest 5 2 = 2 ∧ crc64 [1] = 0x42F0E1EBA9EA3693 ∧
    Spec.mstCode .f32 true 0x7F800000 = 0x7F7FFFFF ∧ Spec.mstCode .e4m3 true 0x43E10000 = 0x7E := by decide +kernel

/-- EngineResults: R317: a Running msl of f32 lines, 128 rows of 64, meets the hypotheses. -/
theorem test_sliced_products :
    let z := List.replicate 32768 (0 : Byte)
    let r : Run := { Run.fresh 112 0 with kept := [z, z] }
    let q (b : Nat) := strm b 32768 0 0 0x05
    let c := { core1 with q := [0, q 0x2000000000001000, q 0x2000000000009000] ++ .replicate 13 0 }
    let e := { entry (.msl plain 0 1 2 true 1) with img1 := c.gq 1, img2 := c.gq 2, run := some r }
    let v := (codesOf 32 z).map (valueOf .f32)
    Spec.Ends (tiled c e) 0 0 .matrix (queued c .matrix [e]) e r ∧ r.tiles (queued c .matrix [e]) e = [v, v] ∧ v.length = 8192 ∧
    (streamOf e.img1).code = 0x05 := by
  refine ⟨⟨rfl, rfl, rfl, rfl, rfl, rfl, rfl, rfl⟩, rfl, ?_, ?_⟩
  case refine_1 => rw [List.length_map, codes_length _ _ (by decide), List.length_replicate]
  all_goals decide +kernel

/-- EngineResults: R311, R314, R315: a Running mst, and a Running mld, of 128 rows of f32 that stand 512 bytes apart from 0x1000. -/
theorem test_matrix_moves :
    let i1 := rec 0x2000000000001000 65536 0 0 8 512
    let e (i : Instr) := { runs (entry i) with img1 := i1 }
    let s (i : Instr) := tiled core1 (e i)
    let rows := (List.range 128).map fun k => own (0x1000 + 512 * k)
    let ok (i : Instr) : Prop := Spec.Ends (s i) 0 0 .matrix (queued core1 .matrix [e i]) (e i) (.fresh 0 0) ∧ Spec.Sound (s i) ∧
      (s i).blockRows 0 0 true (recOf i1) 0 4 (decide (i = .mst plain 1 3 .f32 false 0)) = some (rows.map some)
    ok (.mst plain 1 3 .f32 false 0) ∧ ok (.mld plain 1 3 0) ∧ (∀ (i j l l' : Nat), i < j → rows[i]? = some l → rows[j]? = some l' → l + 512 ≤ l') := by
  refine ⟨⟨endsOf ?_, soundOf ?_, ?_⟩, ⟨endsOf ?_, soundOf ?_, ?_⟩, ?_⟩
  case refine_7 =>
    intro i j l l' h hi hj
    simp only [List.getElem?_map, Option.map_eq_some_iff, List.getElem?_range, Option.ite_none_right_eq_some] at hi hj
    simp only [List.getElem?_eq_some_iff, List.length_range, List.getElem_range] at hi hj
    obtain ⟨_, ⟨_, rfl⟩, rfl⟩ := hi
    obtain ⟨_, ⟨_, rfl⟩, rfl⟩ := hj
    simp only [own]; omega
  all_goals decide +kernel

/-- EngineResults: R263, R266: a copy of two elements of s32 from 0x1000 to 0x2000 of a scratchpad, and what it leaves there. -/
theorem test_pump_moves :
    let e : Entry := runs { (entry (.pcopy plain { pump2 with doff := 0 })) with img1 := core1.gb 1, img2 := rec 0x2000000000002000 64 0 0 2, bounds := [2] }
    let x := queued core1 .pump [e]
    let s : State := withBytes x [1, 2, 3, 4, 5, 6, 7, 8, 9]
    let src : PSide := .via (recOf (core1.gb 1)) 0 [0] false
    let dst : PSide := .via (recOf (rec 0x2000000000002000 64 0 0 2)) 0 [0] false
    let j : PJob := ⟨4, [2], src, dst, 0⟩
    Spec.Ends s 0 0 .pump x e (.fresh 0 0) ∧ pumpJob x e = some j ∧ Spec.Sound s ∧ Spec.InPad s 0 0 j src ∧ Spec.InPad s 0 0 j dst ∧
    ((List.range 2).all fun m => (List.range 2).all fun m' => (List.range 4).all fun b => (List.range 4).all fun b' =>
      ((m, b) == (m', b') || Spec.placeAt s 0 0 j m b dst != Spec.placeAt s 0 0 j m' b' dst) &&
      Spec.placeAt s 0 0 j m b src != Spec.placeAt s 0 0 j m' b' dst) = true ∧
    nextHas (exec (.engineEntryCompletion 0 0 .pump) s) (fun t => t.mem.read (own 0x2000) 9 == [1, 2, 3, 4, 5, 6, 7, 8, 0]) = true := by
  refine ⟨endsOf ?_, rfl, soundOf ?_, ⟨?_, ?_, ?_⟩, ⟨?_, ?_, ?_⟩, ?_, ?_⟩
  all_goals decide +kernel

/-- EngineResults: R272: a copy of four elements of s32 into a ring, and the way back from one. -/
theorem test_ring_moves :
    let c := ringed 16 0x05
    let into : Entry := { (runs (entry (.pcopy plain { pump2 with ring := true }))) with img1 := core1.gb 1, img2 := c.gq 1, bounds := [4] }
    let out : Entry := { (runs (entry (.pring plain { pump2 with doff := 0 }))) with img1 := c.gq 1, img2 := rec 0x2000000000005000 64 0 0 2, bounds := [4] }
    let s (e : Entry) : State := withBytes (queued c .pump [e]) [1, 2, 3, 4, 5, 6, 7, 8, 9, 10, 11, 12, 13, 14, 15, 16]
    ((pumpJob c into).map fun j => match j.dst with | .ring q p => (q.stripe, q.size, p) | _ => (1, 0, 0)) = some (0, 8192, 16) ∧
    coreHas (exec (.engineEntryCompletion 0 0 .pump) (s into)) 0 0 (fun x => (streamOf (x.gq 1)).tail == 32) = true ∧
    coreHas (exec (.engineEntryCompletion 0 0 .pump) (s out)) 0 0 (fun x => (streamOf (x.gq 1)).head == 16) = true ∧
    nextHas (exec (.engineEntryCompletion 0 0 .pump) (s out)) (fun t => t.mem.read (own 0x5000) 16 ==
      [1, 2, 3, 4, 5, 6, 7, 8, 9, 10, 11, 12, 13, 14, 15, 16]) = true := by decide +kernel

/-- EngineResults: R338, R340, R344, R345, R348: a wfeed ends once its two vectors are through its one row; a wdrain writes the 32 outputs of
slot 0 as e4m3, alpha 1, and clears it; a wchk of a well whose latch holds nothing. -/
theorem test_well_results :
    let fed (p : Nat) := driver [runs (entry (.wfeed plain ⟨⟨0, 0⟩, 0, 0⟩ .buf 4 1 none)) fun r => { r with pos := p }]
    let slot : CSlot := { CSlot.fresh with ql4 := some true, accs := .replicate 32 0x3F800000 }
    let d : Entry := { (runs (entry (.wdrain plain ⟨0, 0⟩ 1 0 0 .e4m3 false))) with img1 := (ringed 0 0x06).gq 1 }
    let drain : State :=
      { (driver [d]).modCore 0 0 fun x => { x with q := (ringed 0 0x06).q } with rects := [rect1.setSlot 0 0 slot] }
    let chk : State := driver [{ (runs (entry (.wchk plain ⟨⟨0, 0⟩, 0, 0⟩ 4 5))) with scal := 0x2000000000001000 }]
    ((fed 2).rect? 0).isSome = true ∧ nextIs (exec (.engineEntryCompletion 0 0 .well) (fed 1)) (fed 1) = true ∧
    coreHas (exec (.engineEntryCompletion 0 0 .well) (fed 2)) 0 0 (fun x => x.queue .well == []) = true ∧
    slot.errs = [] ∧ slot.undef = false ∧ slot.taint = false ∧ 32 * 1 * (1 * 1) ≤ (streamOf d.img1).size ∧
    Spec.drained slot ((rect1.row 0)) .e4m3 false 7 = 0x38 ∧
    nextHas (exec (.engineEntryCompletion 0 0 .well) drain) (fun t => t.mem.read (own 0x1000) 33 == .replicate 32 0x38 ++ [0] &&
      t.rects.map (fun x => x.slot 0 0) == [CSlot.fresh] && (t.core? 0 0).any fun x => (streamOf (x.gq 1)).tail == 32) = true ∧
    rect1.faults = [] ∧ ((chk.rect? 0).map fun x => ((x.live 0 0).fill, (x.live 0 0).zeroed, (x.live 0 0).poison)) = some (none, 0, 0) ∧
    (match (chk.reach 0 0 true 0x2000000000001000 ⟨16, 8, true, false⟩).2 with | .at_ _ (.loc l false) => l == own 0x1000 | _ => false) = true := by
  decide +kernel

/-! ## The host side and packets -/

/-- Tables that map the first 256 MiB of space 0 to device memory for PASIDs 0 and 7, user and write allowed, and the next to the host's:
tables at levels 5 to 3, leaves of size code 9 at level 2 (R235 to R237). -/
def tables : Mem :=
  (((Mem.write ⟨[], []⟩ 0x10000 (leBytes 8 0x110003)).write 0x11000 (leBytes 8 0x120003)).write 0x12000 (leBytes 8 0x130003)).write 0x13000
    (leBytes 16 0xE5 ++ leBytes 16 0x8E5)

/-- A part that is ready, with that queue in slot 0, some bytes of its ring, and launches. -/
def tahr1 (q : Queue) (packet : List Byte) (ls : List Launch := []) (st : SlotState := .serving) : State :=
  { part [.idle, .idle] with
    mem := tables.write 0x20000 packet
    roots := [⟨7, 0x10000⟩, ⟨0, 0x10000⟩]
    tahr := { Tahr.idle with ready := true, queues := [q], launches := ls, slots := ⟨some 5, st, 0, 0⟩ :: .replicate 31 ⟨none, .free, 0, 0⟩ } }

/-- A queue of a state. -/
def queueHas (o : Out) (f : Queue → Bool) : Bool := nextHas o fun t => (t.queue? 5).any f

/-- Doublewords in memory order. -/
def dws (l : List Nat) : List Byte := l.flatMap (leBytes 8)

/-- ControlRegisters: R47, R49 to R53. -/
theorem test_control_registers :
    let s := tahr1 queue5 []
    (match s.fwTranslate 7 0x30000 true with | (_, .loc l b) => l == 0x30000 && !b | _ => false) = true ∧
    queueHas (exec (.qtailWrite 5 16) s) (fun q => q.tail == 16 && q.status == 0) = true ∧
    queueHas (exec (.qtailWrite 5 17) s) (fun q => q.tail == 17 && q.status == 3 && q.head == 0) = true ∧
    queueHas (exec (.qtailWrite 5 17) (tahr1 { queue5 with status := 1 } [])) (fun q => q.tail == 17 && q.status == 1) = true ∧
    nextHas (exec (.qtailWrite 6 1) s) (fun t => t.logged == 1 && (t.log.map fun e => (e.kind, e.w2)) == [(8, 0x10030)]) = true ∧
    nextHas (exec (.registerWrite 0x44 8 0) s) (fun t => t.logged == 1) = true ∧
    nextHas (exec (.registerWrite 0x40 8 0x12345) s) (fun t => t.tahr.mqbase == 0x12000) = true ∧
    nextHas (exec (.registerWrite 0x44 4 7) s) (fun t => t.tahr.mqbase == 0x700000000) = true ∧
    nextHas (exec (.registerWrite 0x60 8 0x12345678) s) (fun t => t.tahr.w2base == 0x10000000) = true ∧
    nextHas (exec (.registerWrite 0x50 8 3) s) (fun t => t.tahr.mqtail == 3) = true ∧
    queueHas (exec (.registerWrite 0x10028 8 2) s) (fun q => q.tail == 2) = true ∧
    nextIs (exec (.registerWrite 0x68 8 3) s) s = true ∧
    (s.choose (.regRead 0x10028 8)).tahr.bar0Read = [1, 0, 0, 0, 0, 0, 0, 0] ∧ (s.choose (.regRead 0x5C 4)).tahr.bar0Read = [0, 0, 0, 0] ∧
    ((s.choose (.regRead 0x51 8)).log.map fun e => (e.kind, e.w2)) = [(8, 0x51)] := by decide +kernel

/-- HostAndPeerAccesses: R46, R48, R219, R385 to R387. -/
theorem test_host_and_peer_accesses :
    let s := { part [.idle, .idle] with pages := [⟨7, 2, none, false⟩] }
    let held := { s with pages := [⟨7, 2, some 0x5000, false⟩, ⟨8, 2, some 0x5000, false⟩] }
    let owes := { tahr1 { queue5 with owed := some [9], status := 1 } [] with pages := [⟨7, 2, none, false⟩] }
    let inv (a : Nat) : State := { part [{ core1 with sq := [⟨.store (hostLoc a) [1], 0, 3⟩] }, .idle] with tahr := { Tahr.idle with invals := [⟨7, 0x2FFF, 1, [0x5000]⟩] } }
    nextHas (exec (.bar2Access (.write 0xFFFFFFF [9])) s) (fun t => t.mem.byte 0xFFFFFFF == 9) = true ∧
    nextHas (exec (.bar2Access (.read 0x10 2)) { s with mem := Mem.write ⟨[], []⟩ 0x10 [4, 5] }) (fun t => t.tahr.bar2Read == [4, 5]) = true ∧
    nextIs (exec (.bar2Access (.write 0xFFFFFFF [9, 9])) s) s = true ∧
    nextHas (exec (.atsInvalidation 7 0x2FFF 1) held) (fun t => t.pages == [⟨8, 2, some 0x5000, false⟩] &&
      t.tahr.invals == [⟨7, 0x2FFF, 1, [0x5000]⟩]) = true ∧
    ((inv 0x6000).choose .invalSend).tahr.invalsDone = [⟨7, 0x2FFF, 1, [0x5000]⟩] ∧ (inv 0x5FFF).choose .invalSend = inv 0x5FFF ∧
    nextHas (exec (.pageRequestResponse 7 0x2100 (some 0x7000)) owes) (fun t => t.tahr.msix == [9] && leNat (t.mem.read 0x30006 2) == 1 &&
      (t.queue? 5).any fun q => q.owed.isNone) = true ∧
    (s.choose (.barResize 30)).tahr.bar2Log = 30 ∧ (s.choose (.barResize 41)).tahr.bar2Log = 28 ∧
    nextHas (exec (.remoteAccessReceived true (.amo 0 0x20 8 5 0)) { s with mem := Mem.write ⟨[], []⟩ 0x20 [3] }) (fun t => t.mem.byte 0x20 == 8) = true ∧
    nextIs (exec (.remoteAccessReceived true (.amo 9 0x20 8 5 1)) s) s = true ∧
    nextHas (exec (.pageRequestResponse 7 0x2100 (some 0x7000)) s) (fun t => t.pages == [⟨7, 2, some 0x7000, false⟩]) = true ∧
    nextHas (exec (.pageRequestResponse 7 0x2100 none) s) (fun t => t.pages == [⟨7, 2, none, true⟩]) = true ∧
    nextHas (exec (.remoteAccessReceived true (.store 0x20 [3])) s) (fun t => t.mem.byte 0x20 == 3) = true ∧
    nextIs (exec (.remoteAccessReceived true (.store 0x20 [3])) { s with ports := [true, false] }) { s with ports := [true, false] } = true ∧
    nextHas (exec (.peerPortDown false) s) (fun t => t.ports == [false, true]) = true := by decide +kernel

/-- Slots: R64 to R68, R105: the queue waits and slot 0 is its class's; at 4,096 ck an idle one is freed; a queue of class 0 takes back a slot
from the borrower of class 1. -/
theorem test_slots :
    let free := .replicate 32 ⟨none, .free, 0, 0⟩
    let s := tahr1 queue5 []
    let w : State := { s with tahr := { s.tahr with slots := free } }
    let idle (n : Nat) : State := { tahr1 { queue5 with tail := 0 } [] [] .idle with now := n }
    let low : Queue := { queue5 with qid := 6, cls := 1, level := 14 }
    let b : State := { s with tahr := { s.tahr with queues := [queue5, low, { low with qid := 7 }], slots :=
      [⟨some 6, .serving, 0, 0⟩, ⟨some 7, .serving, 3, 0⟩] ++ .replicate 30 ⟨none, .free, 0, 0⟩ } }
    (w.grantNext.map fun x => (x.1.qid, x.2)) = some (5, 0) ∧
    nextHas (exec .slotGrant w) (fun t => t.tahr.slots.take 2 == [⟨some 5, .serving, 0, 0⟩, ⟨none, .free, 0, 0⟩]) = true ∧
    nextIs (exec .slotGrant s) s = true ∧ s.robbed = none ∧ nextIs (exec .forcedUnmapping s) s = true ∧
    nextHas (exec (.slotIdleRelease 0) (idle 4096)) (fun t => t.tahr.slots.headD ⟨some 1, .idle, 0, 0⟩ == ⟨none, .free, 0, 0⟩) = true ∧
    nextIs (exec (.slotIdleRelease 0) (idle 4095)) (idle 4095) = true ∧
    b.robbed = some 0 ∧ b.borrower 0 = some 1 ∧
    nextHas (exec .forcedUnmapping b) (fun t => t.tahr.slots.map Slot.state |>.take 2 |> (· == [.serving, .unmapping])) = true ∧
    nextHas (exec (.queueContextSaved 0) (tahr1 queue5 [] [] .unmapping)) (fun t => t.tahr.slots.headD ⟨some 1, .idle, 0, 0⟩ == ⟨none, .free, 0, 0⟩) = true ∧
    nextIs (exec (.queueContextSaved 0) s) s = true := by decide +kernel

/-- Whether the packet at the head can be read. -/
def readable (s : State) (q : Queue) : Bool :=
  s.mayRead q && !q.unbound && match s.fwTranslate q.pasid (q.srec.toNat % 2 ^ 56) true with
    | (u, .loc _ _) => match u.fwRead q.pasid (pAddr q.base + 64 * (q.head.toNat % 2 ^ q.n)) 64 with
      | (_, .bytes bs) => !headerBad (dwAt bs 0)
      | _ => false
    | _ => false

/-- A launch of the queue that is outstanding. -/
def launch5 (ns : List Node) : Launch := ⟨0, 5, 7, 0x40000, 0x8000, 0, 0, ns, false, 4, true, false, false⟩

/-- QueuePackets: R54, R56, R58, R59, R62: MODE to level 11 and to one of another class; FENCE with and without a launch out. -/
theorem test_mode_and_fence_packets :
    let s (p : List Nat) (ls : List Launch := []) := tahr1 queue5 (dws p) ls
    readable (s [0x30104, 0x10B]) queue5 = true ∧
    queueHas (exec (.modePacket 5) (s [0x30104, 0x10B])) (fun q => q.level == 11 && q.strict && q.head == 1 && q.tag == 3) = true ∧
    queueHas (exec (.modePacket 5) (s [0x30104, 12])) (fun q => q.status == 1 && q.detail == 8 && q.level == 3) = true ∧
    queueHas (exec (.fencePacket 5) (s [0x30105, 0x3FF])) (fun q => q.head == 1 && q.tag == 3 && !q.fence) = true ∧
    queueHas (exec (.fencePacket 5) (s [0x30105, 0x3FF] [launch5 []])) (fun q => q.head == 0 && q.fence && q.ptag == 3 && q.pirq) = true := by decide +kernel

/-- QueuePackets: R58, R373: a WAIT that passes, that stops on an error and that blocks; a SIGNAL that arrives and one that is discarded. -/
theorem test_wait_and_signal_packets :
    let s (obj p : List Nat) := let t := tahr1 queue5 (dws p); { t with mem := t.mem.write 0x50000 (dws obj) }
    let obj := [5 + 9 * 2 ^ 24 + 2 * 2 ^ 32, 3 + 3 * 2 ^ 32]
    readable (s obj [2, 0x50000, 5]) queue5 = true ∧ ptrOk 0x50000 [0, 3] 16 = true ∧
    (match (s obj []).fwObject 7 0x50000 false with | (u, .at_ l) => l == 0x50000 && !(u.barAt l).malformed | _ => false) = true ∧
    queueHas (exec (.waitPacket 5) (s obj [2, 0x50000, 5])) (fun q => q.head == 1 && q.status == 0) = true ∧
    queueHas (exec (.waitPacket 5) (s obj [2, 0x50000, 0x10005])) (fun q => q.head == 0 && q.status == 10 && q.detail == 0x40000009) = true ∧
    queueHas (exec (.waitPacket 5) (s obj [2, 0x50000, 6])) (fun q => q.head == 0 && q.wait == some ⟨0x50000, 6, false, 0x50000, none⟩) = true ∧
    (match (s obj []).fwObject 7 0x20000000 false with | (_, .kind k) => k == 0 | _ => false) = true ∧
    queueHas (exec (.waitPacket 5) (s obj [2, 0x20000000, 5])) (fun q => q.status == 5 && q.detail == 0x40000000) = true ∧
    (match (s obj []).fwObject 7 0x6000000000000000 false with | (_, .bad) => true | _ => false) = true ∧
    queueHas (exec (.waitPacket 5) (s obj [2, 0x6000000000000000, 5])) (fun q => q.status == 1 && q.detail == 8) = true ∧
    queueHas (exec (.waitPacket 5) (s [0, 9] [2, 0x50000, 5])) (fun q => q.status == 1 && q.detail == 8) = true ∧
    queueHas (exec (.signalPacket 5) (s obj [3, 0x50000, 1])) (fun q => q.head == 1) = true ∧
    nextHas (exec (.signalPacket 5) (s obj [3, 0x50000, 1])) (fun t => leNat (t.mem.read 0x50000 8) == 5 + 9 * 2 ^ 24 + 2 ^ 32) = true ∧
    queueHas (exec (.signalPacket 5) (s [0, 9] [3, 0x50000, 1])) (fun q => q.status == 1 && q.detail == 8) = true := by decide +kernel

/-- QueuePackets: what lets a blocked packet go on: a phase that is there, in the part and in the host's memory, and an arrival that was
noted, with an error and without, whatever the object holds. -/
theorem test_blocked_packets :
    let obj (s : State) : State := { s with mem := (s.mem.write 0x50000 (dws [5, 3 + 3 * 2 ^ 32])).write (hostLoc 0x5000) (dws [5, 3 + 3 * 2 ^ 32]) }
    let w (l : Nat) (ph : BitVec 16) := obj (tahr1 { queue5 with wait := some ⟨l, ph, false, 0, none⟩ } [] [] .blocked)
    let hosted (s : State) : State := { s with pages := [⟨7, 0x10000, some 0x5000, false⟩] }
    let met (st : Bool) (e : Byte) := tahr1 { queue5 with wait := some ⟨0x50000, 5, st, 0x50000, some e⟩ } [] [] .blocked
    let f (ls : List Launch) := tahr1 { queue5 with fence := true } [] ls
    queueHas (exec (.fencePacketComplete 5) (f [])) (fun q => q.head == 1 && !q.fence) = true ∧
    nextIs (exec (.fencePacketComplete 5) (f [launch5 []])) (f [launch5 []]) = true ∧ isHost 0x50000 = false ∧ isHost (hostLoc 0x5000) = true ∧
    queueHas (exec (.waitSatisfied 5) (met false 9)) (fun q => q.head == 1 && q.wait.isNone) = true ∧
    queueHas (exec (.waitSatisfied 5) (met true 9)) (fun q => q.head == 0 && q.status == 10 && q.detail == 0x40000009) = true ∧
    ((w 0x50000 5).fwTranslate 7 0x30000 true).1.mem = (w 0x50000 5).mem ∧
    queueHas (exec (.waitSatisfied 5) (w 0x50000 5)) (fun q => q.head == 1 && q.wait.isNone) = true ∧
    queueHas (exec (.hostBarrierPoll 5) (hosted (w 0x10000000 5))) (fun q => q.head == 1 && q.wait.isNone) = true ∧
    queueHas (exec (.waitSatisfied 5) (w 0x50000 6)) (fun q => q.head == 0 && (q.wait.map QWait.phase) == some 6) = true ∧ nextIs (exec (.hostBarrierPoll 5) (w 0x50000 6)) (w 0x50000 6) = true ∧
    queueHas (exec (.poolRoomAdmit 5) (tahr1 { queue5 with held := some (launch5 []) } [])) (fun q => q.head == 1 && q.held.isNone && q.hold == some 0) = true ∧
    (tahr1 queue5 []).poolRoom (launch5 []) = true ∧ (tahr1 queue5 []).preempting 5 = false := by decide +kernel

/-- The header of 0x42000 below, and a fresh Ready node of one herd in slot 0 at a level. -/
def header1 : Header := ⟨0x60000, 77, 1, 0, false, 0, true, false, 0, 0, 0, 0, 0, 0⟩
def node1 (level : Nat := 3) (succs : List Nat := []) : Node :=
  ⟨.herd, 0, 0, succs, header1, 0, 0, 0, 0, 0, 0, .ready, .running, 0, false, false, level, 0, 0, false, [], false, none, none, [], none, 0, [], .ok⟩

/-- A launch record at 0x40000 of one herd node, its table at 0x41000 and its header at 0x42000: entry 0x60000, arg 77, a gang of one herd. -/
def recorded (p : List Nat) (version : Nat := 1) : State :=
  let t := tahr1 queue5 (dws p)
  let m := (t.mem.write 0x40000 (dws [version + 2 ^ 16, 0x41000, 0x8000])).write 0x41000 (dws [0, 0, 0x42000])
  { t with mem := m.write 0x42000 (dws [0x60000, 77, 1 + 2 ^ 21]) }

/-- LaunchesAreAccepted: R43, R54, R86: a LAUNCH, one whose record has version 2, one of a pointer that is not aligned, and a COPY. -/
theorem test_launches_are_accepted :
    let p := [0x40101, 0x40000, 0]
    let cp := [6, 0x6000000000000100, 0x6000000000000000, 0x40]
    let dsp (s : State) : State := s.modDie 0 fun d => { d with ways := 1 }
    readable (recorded p) queue5 = true ∧
    queueHas (exec (.launchPacket 5) (recorded p)) (fun q => q.head == 1 && q.hold == some 0 && q.held.isNone) = true ∧
    nextHas (exec (.launchPacket 5) (recorded p)) (fun t => t.tahr.lseq == 1 && (t.tahr.launches.map fun l => (l.lseq, l.tag, l.irq, l.image)) == [(0, 4, true, 0x8000)] &&
      (t.tahr.launches.flatMap Launch.nodes).map (fun n => (n.state, n.level, n.hdr.arg, n.hdr.gang)) == [(.ready, 3, 77, 1)]) = true ∧
    queueHas (exec (.launchPacket 5) (recorded p 2)) (fun q => q.status == 1 && q.detail == 0x80000000) = true ∧
    queueHas (exec (.launchPacket 5) (recorded [1, 0x40008, 0])) (fun q => q.status == 1 && q.detail == 8) = true ∧
    nextHas (exec (.copyPacket 5) (dsp (tahr1 queue5 (dws cp)))) (fun t => (t.tahr.launches.flatMap Launch.nodes).map (fun n => (n.kind, n.bytes, n.die)) ==
      [(.copy, 0x40, 0)]) = true ∧
    queueHas (exec (.copyPacket 5) ((dsp (tahr1 queue5 (dws cp))).modDie 0 fun d => { d with pumpsOut := [0, 1, 2, 3] })) (fun q => q.status == 12) = true := by
  decide +kernel

/-- Whether a load of records ends in a stop, and in which; and whether it answers something of which something holds. -/
def stopsAt {α : Type} (r : State × Load α) (st : QStatus) (d : Nat) : Bool :=
  match r.2 with
  | .stop st' d' => st' == st && d' == d
  | _ => false

def answers {α : Type} (r : State × Load α) (f : α → Bool) : Bool :=
  match r.2 with
  | .ok x => f x
  | _ => false

/-- LaunchesAreAccepted: R38 to R40, R43, R54, R82: a record that is not mapped, one in error, one whose table is off its alignment and one
whose image base is; a launch with a barrier; a descriptor of kind 3, a header of no herd and one of a rectangle that leaves its row of dies,
a successor beyond the graph, and nodes of which the second offends. -/
theorem test_launch_records :
    let s (a : Nat) (v : Nat) : State := let t := recorded []; { t with mem := t.mem.write a (leBytes 8 v) }
    let bad : State := { recorded [] with marks := [⟨0x4000, .double, 2⟩] }
    let launch (s : State) (a : Word := 0x40000) := s.readLaunch queue5 a 0 4 true
    let node (s : State) (n : Nat := 1) := s.readNode queue5 0x41000 n 0
    stopsAt (launch (recorded []) 0x20000000) .translation 0x40000000 = true ∧ stopsAt (launch bad) .dataError 0x80000010 = true ∧
    stopsAt (launch (s 0x40008 0x41020)) .invalidField 0x80000008 = true ∧ stopsAt (launch (s 0x40010 0x8001)) .invalidField 0x80000010 = true ∧
    stopsAt (launch (s 0x40000 1)) .invalidField 0x80000000 = true ∧
    answers (launch (recorded [])) (fun l => l.gbar == 0 && l.nodes.length == 1) = true ∧
    answers (launch { (s 0x40018 0x50000) with mem := (s 0x40018 0x50000).mem.write 0x50000 (dws [5 + 2 * 2 ^ 32]) }) (fun l => l.gbar == 0x50000) = true ∧
    answers (node (recorded [])) (fun n => n.kind == .herd && n.preds == 0 && n.state == .ready && n.hdr == header1) = true ∧
    stopsAt (node (s 0x41000 3)) .invalidField 0x80400000 = true ∧ stopsAt (node (s 0x42010 (2 ^ 21))) .invalidField 0x80800010 = true ∧
    stopsAt (node { (s 0x41000 1) with mem := (s 0x41000 1).mem.write 0x42018 (leBytes 8 (7 + 2 ^ 8 + 2 ^ 13 + 32 * 2 ^ 19)) }) .invalidField 0x80800018 = true ∧
    (let t := s 0x41000 (2 ^ 32); let u : State := { t with mem := (t.mem.write 0x41008 (leBytes 8 0x43000)).write 0x43000 [1] }
      stopsAt (node u) .invalidField 0x80C00000 = true ∧ answers (node u 2) (fun n => n.succs == [1]) = true) ∧
    stopsAt ((s 0x41040 3).readNodes queue5 0x41000 2 [0, 1]) .invalidField 0x80400800 = true ∧
    Spec.offence (Spec.recordRules (dws [1 + 2 ^ 16, 0x41000, 0x8000, 0, 0, 0, 0, 0])) = none := by decide +kernel

/-- LaunchesAreAccepted: R44, R54, R82: a doubleword of a record that is read ahead of the others keeps its first value; a record over the end of a page; one
whose second page is the host's keeps what was read of the first; one that is not mapped. -/
theorem test_records_are_read :
    let s := recorded []
    let t := s.choose (.fieldRead 5 0x40010)
    let u : State := { t with mem := t.mem.write 0x40010 (leBytes 8 0x9000) }
    let r (s : State) (va n : Nat) := s.recRead queue5 va n .launch 0 0
    s.mayRead queue5 = true ∧ t.seenBy 5 = [(0x40010, leBytes 8 0x8000)] ∧
    answers (r u 0x40000 64) (fun bs => dwAt bs 0x10 == 0x8000 && dwAt bs 8 == 0x41000) = true ∧
    answers (r { s with mem := s.mem.write 0x41000 [9] } 0x40FC0 128) (fun bs => bs.length == 128 && bs.getD 64 0 == 9) = true ∧
    (match r s 0x0FFFFFC0 128 with | (v, .wait) => (v.seenBy 5).map (fun e => (e.1, e.2.length)) == [(0x0FFFFFC0, 64)] | _ => false) = true ∧
    stopsAt (r s 0x20000000 64) .translation 0x40000000 = true ∧
    (match r s 0x10000000 64 with | (_, .wait) => true | _ => false) = true := by decide +kernel

/-- LaunchesAreAccepted: R58, R373: the tag of no barrier, of one in a die scratchpad of one way and of none, and of one that is not mapped; the node of a
copy with a barrier; a launch with a context descriptor. -/
theorem test_barrier_tags_are_read :
    let s (n : Nat) : State := let t := (recorded []).modDie 0 fun d => { d with ways := n }; { t with mem := t.mem.write (dspLoc 0 0x100) (dws [7 * 2 ^ 16]) }
    let tag (n : Nat) (b : Word) := (s n).loadTag 7 b 0x18
    let near (s : State) (bs : List (Nat × Nat)) : State := { s with mem := bs.foldl (fun m e => m.write e.1 (leBytes 8 e.2)) s.mem }
    let copy := near (recorded []) [(0x41000, 2), (0x41010, 0x100), (0x41018, 0x200), (0x41020, 64 + 5 * 2 ^ 40), (0x41028, 0x50000), (0x50000, 7 * 2 ^ 16)]
    let ctx := near (recorded []) [(0x70000, 1 + 2 ^ 16), (0x70008, 0x40000), (0x70018, 1), (0x70040, 5)]
    answers (tag 0 0) (· == 0) = true ∧ answers (tag 1 0x6000000000000100) (· == 7) = true ∧
    stopsAt (tag 0 0x6000000000000100) .invalidField 0x18 = true ∧ stopsAt (tag 1 0x6800000000000100) .invalidField 0x18 = true ∧
    stopsAt (tag 1 0x20000000) .translation 0x40000000 = true ∧
    answers (copy.readNode queue5 0x41000 1 0) (fun n => n.kind == .copy && n.colour == 5 && n.bytes == 64 && n.src == 0x100 && n.dst == 0x200 &&
      n.nbar == 0x50000 && n.ntag == 7) = true ∧
    answers (ctx.readLaunch queue5 0x40000 0x70000 4 true) (fun l => l.gtrig && l.nodes.map Node.state == [.retired]) = true := by decide +kernel

/-- LaunchesAreAccepted: R63, R424: a context of one node that ran, of one that waited, of another record, of another count, of state 6, and of an
offset for a node that has none. -/
theorem test_contexts_are_checked :
    let c (l : List Nat) (rec_ : Nat := 0x40000) (count : Nat := 1) : State × Load (List Node × Bool) :=
      let t := recorded []
      { t with mem := t.mem.write 0x70000 (dws ([1 + count * 2 ^ 16, rec_, 0, 1, 0, 0, 0, 0] ++ l)) }.readContext queue5 0x40000 0x70000 [node1]
    answers (c [3, 0x1000]) (fun r => r.2 && r.1.map (fun m => (m.state, m.saved)) == [(.ready, some (.virt 7 0x71000))]) = true ∧
    answers (c [2 ^ 13 + 8]) (fun r => r.1.map (fun m => (m.state, m.count, m.ntrig, m.saved)) == [(.waiting, 1, true, none)]) = true ∧
    answers (c [5]) (fun r => r.1.map Node.state == [.retired]) = true ∧ answers (c [2]) (fun r => r.1.map Node.state == [.reserving]) = true ∧
    stopsAt (c [3, 0x1000] 0x40040) .invalidField 0x81000008 = true ∧ stopsAt (c [3, 0x1000] 0x40000 2) .invalidField 0x81000000 = true ∧
    stopsAt (c [6]) .invalidField 0x81000040 = true ∧ stopsAt (c [1, 0x1000]) .invalidField 0x81000048 = true := by decide +kernel

/-- LaunchesAreAccepted: R33, R43, R54, R57, R87: a graph of two nodes that is good, one whose count is wrong, a cycle, a node without det for a
strict queue, a rectangle with a well out, and a gang of more herds than there are. -/
theorem test_graphs_are_checked :
    let n (preds : Nat) (succs : List Nat) (h : Header := header1) (k : NodeKind := .herd) : Node :=
      { node1 3 succs with kind := k, preds := preds, hdr := h }
    let s : State := { tahr1 queue5 [] with herds := [.idle, .idle] }
    let out := s.modDie 0 fun d => { d with wellsOut := [33] }
    let w : Header := { header1 with rows := 2, cols := 2 }
    s.graphStop queue5 [n 0 [1], n 1 []] = none ∧ s.graphStop queue5 [n 0 [1], n 0 []] = some (.invalidField, 0x80400800) ∧
    s.graphStop queue5 [n 1 [1], n 1 [0]] = some (.invalidField, 0x80400000) ∧
    s.graphStop { queue5 with strict := true } [n 0 []] = some (.invalidField, 0x80800010) ∧
    s.graphStop { queue5 with strict := true } [n 0 [] { header1 with det := true }] = none ∧
    out.graphStop queue5 [n 0 [] w .well] = some (.unavailableRectangle, 0x40000000) ∧
    s.graphStop queue5 [n 0 [] { header1 with gang := 3 }] = some (.unplaceable, 0x40000000) := by decide +kernel

/-- LaunchesAreAccepted: R47, R48, R54, R55: a status record that is written and its message; one on a page the host has not granted; one that is
not mapped, of a running queue and of a stopped one; a stop. -/
theorem test_status_records :
    let s (a : Word) (st : Nat := 0) := tahr1 { queue5 with srec := a, head := 3, tag := 4, done := 6, status := st, detail := 7 } []
    let t (a : Word) (st : Nat := 0) := (s a st).tellStatus 5 [9]
    (match (s 0x30000).fwTranslate 7 0x30000 true with | (_, .loc l _) => l == 0x30000 | _ => false) = true ∧
    (t 0x30000).mem.read 0x30000 16 = [3, 0, 0, 0, 4, 0, 0, 0, 6, 0, 0, 0, 7, 0, 0, 0] ∧ (t 0x30000).tahr.msix = [9] ∧
    (t 0x10000000).tahr.msix = [] ∧ ((t 0x10000000).queue? 5).map Queue.owed = some (some [9]) ∧
    ((t 0x20000000).queue? 5).map (fun q => (q.status, q.detail, q.head)) = some (5, 0x40000000, 3) ∧ (t 0x20000000).tahr.msix = [9] ∧
    ((t 0x20000000 1).queue? 5).map (fun q => (q.status, q.detail)) = some (1, 7) ∧ (t 0x20000000 1).tahr.msix = [9] ∧
    (((s 0x30000).stopQueue 5 .invalidField 8).queue? 5).map (fun q => (q.status, q.detail, q.head)) = some (1, 8, 3) := by decide +kernel

/-! ## Management commands -/

/-- A part with a command of some doublewords at the start of the management ring, which stands in host memory, at a bus address. BAR2 may
be anywhere on the bus, and does not cover both 0 and 2^40. -/
def cmd (a : Nat) (l : List Nat) (f : State → State := id) : State :=
  let s := tahr1 queue5 []
  f { s with
    mem := (s.mem.write (hostLoc 0) (dws l)).write (hostLoc (2 ^ 40)) (dws l)
    tahr := { s.tahr with mqbase := .ofNat 64 a, mqtail := 1, slots := [⟨some 5, .serving, 0, 0⟩, ⟨some 4096, .serving, 0, 0⟩] ++ .replicate 30 ⟨none, .free, 0, 0⟩ } }

/-- CommandsComplete and the statements about commands: one of the two addresses is that of host memory. -/
theorem test_command_location (l : List Nat) : (cmd 0 l).commandLoc = some (hostLoc 0) ∨ (cmd (2 ^ 40) l).commandLoc = some (hostLoc (2 ^ 40)) := by
  have far (s : State) (a : Nat) (h : ¬ (Config.bar2Bus ≤ a ∧ a + 64 ≤ Config.bar2Bus + s.tahr.bar2Bytes)) :
      s.busLoc a 64 = some (hostLoc (a % 2 ^ 59)) := if_neg h
  have place (a : Nat) (h : a < 2 ^ 59) : (cmd a l).commandLoc = (cmd a l).busLoc a 64 := by
    have e : (BitVec.ofNat 64 a).toNat = a := Nat.mod_eq_of_lt (by omega)
    show (cmd a l).busLoc ((BitVec.ofNat 64 a).toNat + 0) 64 = _
    rw [e, Nat.add_zero]
  rw [place 0 (by decide), place (2 ^ 40) (by decide)]
  by_cases h : Config.bar2Bus ≤ 0
  · exact .inr (far _ _ (by rw [show (cmd (2 ^ 40) l).tahr.bar2Bytes = 2 ^ 28 from rfl]; omega))
  · exact .inl (far _ _ fun x => h x.1)

/-- Whether a command can be taken at either address with these bytes and its code, and something holds of the state behind the read. -/
def takes (code : Nat) (l : List Nat) (ok : State → Bool) (f : State → State := id) : Bool :=
  [0, 2 ^ 40].all fun a => let s := cmd a l f
    s.mayCommand && match s.copyRead (hostLoc a) 64 with
      | (t, bs, _) => bs == dws l ++ List.replicate (64 - (dws l).length) 0 && !commandBad bs && Word.fieldAt (dwAt bs 0) 7 0 == code && ok t

/-- CommandsComplete: R69, R70: a good and a bad one; nothing is taken with an empty ring. -/
theorem test_commands :
    takes 2 [2, 5] (fun _ => true) = true ∧ commandBad (dws [0x202, 5, 0, 0, 0, 0, 0, 0]) = true ∧ commandBad (dws [11, 5, 0, 0, 0, 0, 0, 0]) = true ∧
    commandBad (dws [2, 5, 0, 0, 0, 0, 0, 1]) = true ∧
    (let s := tahr1 queue5 []; (nextIs (execUnmapq s) s && nextIs (execMapq s) s && nextIs (execDsp s) s) = true) := by decide +kernel

/-- QueuesAndAddressSpaces: a MAPQ of queue 6 for the bound PASID 7, of a queue that is there, and for PASID 9; an UNMAPQ of a queue that is
not there, of one that needs its slot and of one that does not; a PASID_BIND of 9, of 7 and of a bad root; a PASID_RETIRE of 7 and of 9. -/
theorem test_queue_commands :
    let d (qid pasid : Nat) := qid + 3 * 2 ^ 14 + 9 * 2 ^ 24 + pasid * 2 ^ 44
    let bound (p : BitVec 20) (s : State) : Bool := s.roots.any fun r => r.pasid == p
    Word.fieldAt (.ofNat 64 (d 6 7)) 43 35 = 0 ∧ Word.fieldAt (.ofNat 64 (d 6 7)) 19 14 / 12 = Word.fieldAt (.ofNat 64 (d 6 7)) 13 12 ∧
    ptrOk 0x21000 [0] (64 * 2 ^ 4) = true ∧
    takes 1 [1, d 6 7, 0x21000, 0x31000] (fun t => (t.queue? 6).isNone && bound 7 t) = true ∧
    takes 1 [1, d 5 7, 0x21000, 0x31000] (fun t => (t.queue? 5).isSome) = true ∧
    takes 1 [1, d 6 9, 0x21000, 0x31000] (fun t => (t.queue? 6).isNone && !bound 9 t) = true ∧
    takes 2 [2, 6] (fun t => (t.queue? 6).isNone) = true ∧
    takes 2 [2, 5] (fun t => (t.queue? 5).any fun q => q.status == 0 && q.head != q.tail) = true ∧
    takes 2 [2, 5] (fun t => (t.queue? 5).any fun q => q.status == 3) (fun s => s.modQueue 5 fun q => { q with status := 3 }) = true ∧
    takes 4 [4, 9, 0x10100] (fun t => !bound 9 t && decide (t.roots.length < 256)) = true ∧ takes 4 [4, 7, 0x10100] (bound 7) = true ∧
    takes 4 [4, 9, 0x10100] (fun t => !bound 9 t && decide (256 ≤ t.roots.length)) (fun s => { s with roots := .replicate 256 ⟨7, 0x10000⟩ }) = true ∧
    takes 4 [4, 9, 0x10101] (fun _ => true) = true ∧ takes 5 [5, 7] (bound 7) = true ∧ takes 5 [5, 9] (fun t => !bound 9 t) = true ∧
    takes 2 [2, 5] (fun t => (t.queue? 5).any fun q => q.owed.isSome) (fun s => s.modQueue 5 fun q => { q with status := 3, owed := some [] }) = true ∧
    (let s := (tahr1 queue5 []).modTahr fun x => { x with mgmt := some (.retire 7 1) }; s.hostPage 7 0x5000 = (s, .kind 6)) := by decide +kernel

/-- QueuesAndAddressSpaces: R4, R74: a queue's tail outlives UNMAPQ and is the head of the next; PASID_RETIRE marks a queue that does not read, and its next
packet stops with kind 0. -/
theorem test_tails_and_retired_spaces :
    let s := (tahr1 queue5 []).modTahr fun x => { x with tails := [(6, 9)] }
    let off : State := s.modQueue 5 fun q => { q with status := 3 }
    let un : State := s.modQueue 5 fun q => { q with unbound := true }
    (s.tahr.tailOf 6, s.tahr.tailOf 7) = (9, 0) ∧ s.reading queue5 = true ∧
    ((off.tahr.queues.filter off.reading).length, off.tahr.queues.map Queue.qid) = (0, [5]) ∧
    ((off.beginRetire 7).queue? 5).map Queue.unbound = some true ∧ ((s.beginRetire 7).queue? 5).map Queue.status = some 4 ∧
    ((un.queue? 5).any un.mayRead) = true ∧
    queueHas (exec (.launchPacket 5) un) (fun q => q.status == 4 && q.detail == 0x40000000 && !q.unbound) = true ∧
    queueHas (exec (.fencePacket 5) un) (fun q => q.status == 4 && q.detail == 0x40000000 && !q.unbound) = true ∧
    (((un.restartQueue 5).queue? 5).map Queue.unbound) = some true := by decide +kernel

/-- ResetAndPreemptQueues: QRESET of a queue with a launch and without; PREEMPT into an area that is too small, that is not mapped, and that is. -/
theorem test_reset_and_preempt :
    let out (s : State) : State := s.modTahr fun x => { x with launches := [launch5 []] }
    let reach (s : State) (a n : Nat) : Option (Option Nat) := (s.fwProbe 7 true (pagePieces a n)).2
    let rec_ (s : State) : Bool := match s.fwTranslate 7 0x30000 true with | (_, .loc _ _) => true | _ => false
    takes 3 [3, 5] (fun t => rec_ t && t.tahr.launches != []) out = true ∧ takes 3 [3, 5] (fun t => rec_ t && t.tahr.launches == []) = true ∧
    takes 6 [6, 5, 0x70000, 64] (fun t => decide (64 < (layArea (t.launchesOf 5)).2)) out = true ∧
    takes 6 [6, 5, 0x20000000, 64] (fun t => decide ((layArea (t.launchesOf 5)).2 ≤ 64) && reach t 0x20000000 64 == some (some 0)) = true ∧
    takes 6 [6, 5, 0x70000, 8192] (fun t => decide ((layArea (t.launchesOf 5)).2 ≤ 8192) && reach t 0x70000 8192 == none &&
      (t.savedReach (t.launchesOf 5)).2) out = true ∧
    takes 6 [6, 5, 0x70000, 64] (fun t => t.tahr.launches == [] && reach t 0x70000 64 == none) = true ∧ ptrOk 0x70000 [0] 4096 = true := by decide +kernel

/-- ServiceCommands: RESYNC into 4 KiB; PATCH of 64 bytes with a queue that needs a slot and with none, good or not as its signature is; DSP to 1 of a die of 0, 1 and 9 ways. -/
theorem test_service_commands :
    let quiet (s : State) : State := s.modQueue 5 fun q => { q with tail := 0 }
    let ways (n : Nat) (s : State) : State := s.modDie 0 fun d => { d with ways := n }
    takes 7 [7, 0x70000, 4096] (fun t => (t.fwProbe 0 true (pagePieces 0x70000 (min t.summary.length 4096))).2 == none) = true ∧
    takes 9 [9, 0x70000, 64] (fun t => t.tahr.queues.any Queue.needsSlot) = true ∧
    takes 9 [9, 0x70000, 64] (fun t => !t.tahr.queues.any Queue.needsSlot && (t.fwProbe 0 false (pagePieces 0x70000 64)).2 == none &&
      match t.fwRead 0 0x70000 64 with | (_, .bytes bs) => bs.length == 64 | _ => false) quiet = true ∧
    takes 10 [10, 8] (fun t => (t.dies[0]?).any fun d => d.change.isNone && d.ways == 0) = true ∧
    takes 10 [10, 8] (fun t => (t.dies[0]?).any fun d => d.change.isNone && d.ways == 1) (ways 1) = true ∧
    takes 10 [10, 8] (fun t => (t.dies[0]?).any fun d => d.change.isSome) (fun s => s.modDie 0 fun d => { d with change := some ⟨2, none⟩ }) = true ∧
    takes 10 [10, 72] (fun _ => true) = true ∧
    nextHas (exec (.dspChangeComplete 0) ((tahr1 queue5 []).modDie 0 fun d => { d with ways := 1, change := some ⟨0, none⟩ })) (fun t =>
      (t.dies[0]?).any fun d => d.ways == 0 && d.change.isNone) = true ∧
    nextIs (exec (.dspChangeComplete 0) (tahr1 queue5 [])) (tahr1 queue5 []) = true ∧
    State.reset.tahr.slots.length = 32 ∧ State.reset.herds.length = 128 ∧ State.reset.dies.length = 8 := by decide +kernel

/-- ServiceCommands: R77 to R79: a part whose summary and evidence have their fields: queue 5, of level 3 and PASID 7, serves in slot 0. -/
theorem test_summary_and_attestation :
    let s : State := { State.reset with tahr := { State.reset.tahr with queues := [queue5], slots := State.reset.tahr.slots.set 0 ⟨some 5, .serving, 0, 0⟩ } }
    s.tahr.slots.length = 32 ∧ s.herds.length = 128 ∧ s.dies.length = 8 ∧ s.dieMap.length = 8 ∧ s.tahr.leaves ≤ 32768 ∧ s.tahr.patches.length < 2 ^ 20 ∧
    s.summary.length = 2720 ∧ (s.tahr.queues.map Queue.qid).Nodup ∧
    dwAt s.summary 64 = .ofNat 64 (5 + slotOwner 0 * 2 ^ 16 + 3 * 2 ^ 20 + SlotState.serving.code * 2 ^ 28) ∧
    dwAt s.summary 2688 = .ofNat 64 (5 + 3 * 2 ^ 14 + 4 * 2 ^ 24 + 7 * 2 ^ 44) := by decide +kernel

/-- ServiceCommands: ATTEST's nonce can be read, its evidence fits 64 KiB, and leaves remain or do not. -/
theorem test_attest :
    takes 8 [8, 0x70000, 0x71000, 65536] (fun t => decide (t.tahr.leaves ≠ 0) && (t.fwProbe 0 false (pagePieces 0x70000 32)).2 == none &&
      match t.fwRead 0 0x70000 32 with
        | (v, .bytes n) => decide ((v.attestation n).length ≤ 65536) && (v.fwProbe 0 true (pagePieces 0x71000 (v.attestation n).length)).2 == none
        | _ => false) = true ∧
    takes 8 [8, 0x70000, 0x71000, 65536] (fun t => t.tahr.leaves == 0) (fun s => s.modTahr fun x => { x with leaves := 0 }) = true := by decide +kernel

/-! ## Nodes and contexts -/

/-- A herd that is free. -/
def freeHerd : Herd := { Herd.idle with act := { HerdCtx.idle with acc := [] } }

/-- A part of some herds with one launch of some nodes. -/
def grid (hs : List Herd) (ns : List Node) : State :=
  { tahr1 { queue5 with head := 1, hold := some 0 } [] [launch5 ns] .holding with herds := hs }

/-- The herd of a node that runs, with given cores. -/
def held1 (cs : List Core) : Herd := { freeHerd with act := { ctxOf cs with held := some { heldOne with acc := 0, fp := 0 } } }

/-- A node that runs there. -/
def running1 (succs : List Nat := []) : Node := { node1 3 succs with state := .running, herds := [0] }

/-- Whether something holds of node i of launch 0 of the answer. -/
def nodeHas (o : Out) (i : Nat) (f : Node → Bool) : Bool := nextHas o fun t => (t.node? 0 i).any f

/-- NodesAreDispatched: R89, R90, R95: the higher level goes first; with no herd a node becomes Reserving; it claims a herd; it ages. -/
theorem test_nodes_are_dispatched :
    let two := grid [freeHerd, freeHerd] [node1 3, node1 4]
    let none_ := grid [held1 [.idle]] [node1]
    let res := grid [freeHerd] [{ node1 with state := .reserving }]
    (two.nodes.all fun x => two.satisfiable x.2.2 && decide (x.2.2.level < 48 ∧ x.2.2.aging < 64)) = true ∧
    ((two.bestReady 0 []).map fun x => (x.2.1, x.2.2.level)) = some (1, 4) ∧ (two.fit 0 1 (node1 4) [] []).whole = true ∧
    nodeHas (exec (.nodeDispatch 0) two) 1 (fun n => n.state == .running && n.herds == [0]) = true ∧
    nextHas (exec (.nodeDispatch 0) two) (fun t => (t.dies[0]?).any fun d => d.nextPick == 16 && d.served.getD 4 9 == 0) = true ∧
    nextIs (exec (.nodeDispatch 0) (two.modDie 0 fun d => { d with nextPick := 1 })) (two.modDie 0 fun d => { d with nextPick := 1 }) = true ∧
    none_.satisfiable node1 = true ∧ (none_.fit 0 0 node1 [] []).whole = false ∧ (none_.nodesIn .ready).length = 1 ∧
    nodeHas (exec (.nodeDispatch 0) none_) 0 (fun n => n.state == .reserving) = true ∧
    nextIs (exec (.nodeDispatch 0) (grid [freeHerd] [])) (grid [freeHerd] []) = true ∧ (res.nodesIn .reserving).length = 1 ∧
    nodeHas (exec .reservingClaim res) 0 (fun n => n.state == .running && n.herds == [0]) = true ∧
    nextIs (exec .reservingClaim two) two = true ∧ two.reserving = [] ∧
    nodeHas (exec (.levelAging 0 0) (grid [freeHerd] [{ node1 11 with aging := 64 }])) 0 (fun n => n.level == 11 && n.aging == 0) = true ∧
    nodeHas (exec (.levelAging 0 0) (grid [freeHerd] [{ node1 with aging := 63 }])) 0 (fun n => n.level == 3 && n.aging == 63) = true := by decide +kernel

/-- EntryState: R154, R449: a fresh gang of two herds, from herds 1 and 0. -/
theorem test_entry_state :
    let n : Node := { node1 with hdr := { header1 with gang := 2 } }
    let t := (grid [freeHerd, freeHerd] [n]).place 0 0 ⟨[1, 0], none, true⟩
    n.saved.isNone = true ∧ [1, 0].Nodup ∧ ((t.node? 0 0).any fun m => m.state == .running && m.herds == [1, 0]) = true ∧
    (((t.ctx? 0).bind HerdCtx.held).any fun y => y.lseq == 0 && y.node == 0 && y.grank == 1 && y.gang == 2 && y.pasid == 7) = true ∧
    ((t.core? 0 3).any fun c => [c.gs 0, c.gs 1, c.gs 2, c.gs 3, c.gs 4] == [0, 77, 11, 16, 0] && c.pc == 0x60000) = true ∧
    ((t.core? 0 3).any fun c => (recOf (c.gb 15)).base == 0x8000 && (recOf (c.gb 15)).extent == 0xFFFFFFFF && (recOf (c.gb 15)).fmt == 3) = true ∧
    ((core1.ps 0 9).gs 0) = 0 := by decide +kernel

/-- TriggersAndRetirement: R98, R99: marks whose stores are visible, or not yet. -/
theorem test_triggers_fire :
    let c := { Core.idle with cutN := some 4, cutG := some 4 }
    let c' := { c with sq := [⟨.store 0 [1], 0, 3⟩] }
    let w : Node := { node1 with state := .waiting, count := 1 }
    let s (x : Core) := grid [held1 [c, x]] [running1 [1], w]
    (running1 [1]).runs = true ∧ (s c).preempting 5 = false ∧
    nodeHas (exec (.nodeTriggerFire 0 0) (s c)) 0 (fun n => n.ntrig && n.state == .triggered) = true ∧
    nodeHas (exec (.nodeTriggerFire 0 0) (s c)) 1 (fun n => n.state == .ready && n.count == 0) = true ∧
    nextIs (exec (.nodeTriggerFire 0 0) (s c')) (s c') = true ∧ nextIs (exec (.nodeTriggerFire 0 0) (s .idle)) (s .idle) = true ∧
    nextIs (exec (.nodeTriggerFire 0 1) (s c)) (s c) = true ∧
    (let g := grid [held1 [c]] [running1];
      queueHas (exec (.graphTriggerFire 0) g) (fun q => q.hold.isNone) = true ∧
      nextHas (exec (.graphTriggerFire 0) g) (fun t => t.tahr.launches.map Launch.gtrig == [true]) = true) ∧
    queueHas (exec (.graphTriggerFire 0) (s c)) (fun q => q.hold == some 0) = true ∧
    (let l : Launch := { launch5 [] with gtrig := true }; let g := tahr1 queue5 [] [l]; nextIs (exec (.graphTriggerFire 0) g) g = true) := by decide +kernel

/-- TriggersAndRetirement: R429, R432: a node whose core has ended, or has a store left; a graph whose nodes have retired, or not. -/
theorem test_nodes_and_graphs_retire :
    let c := { Core.idle with sq := [⟨.store 0 [1], 0, 3⟩] }
    let w : Node := { node1 with state := .waiting, count := 1 }
    let b : State := let t := grid [held1 [.idle]] [{ running1 with nbar := 0x50000, ntag := 7 }]; { t with mem := t.mem.write 0x50000 (dws [0x70000 + 2 * 2 ^ 32, 3 + 3 * 2 ^ 32]) }
    let g : State := let t := grid [freeHerd] [{ node1 with state := .retired }]; { t.modTahr (fun x => { x with
      launches := x.launches.map fun l => { l with gbar := 0x50000, gtag := 7 } }) with mem := t.mem.write 0x50000 (dws [0x70000 + 2 * 2 ^ 32, 3 + 3 * 2 ^ 32]) }
    (match g.fwObject 7 0x50000 true with | (_, .at_ a) => a == 0x50000 | _ => false) = true ∧
    (match g.fwTranslate 7 0x30000 true with | (_, .loc _ _) => true | _ => false) = true ∧
    nextHas (exec (.graphRetirement 0) g) (fun t => leNat (t.mem.read 0x50000 8) == 0x70000 + 2 ^ 32 && t.tahr.launches == [] &&
      leNat (t.mem.read 0x30008 4) == 1 && (t.queue? 5).any fun q => q.done == 1) = true ∧
    (grid [held1 [.idle]] [running1 [1], w]).fillsDone 0 0 = true ∧
    nodeHas (exec (.nodeRetirement 0 0) (grid [held1 [.idle]] [running1 [1], w])) 0 (fun n => n.state == .retired && n.herds == []) = true ∧
    nodeHas (exec (.nodeRetirement 0 0) (grid [held1 [.idle]] [running1 [1], w])) 1 (fun n => n.state == .ready) = true ∧
    nextHas (exec (.nodeRetirement 0 0) (grid [held1 [.idle]] [running1 [1], w])) (fun t => ((t.ctx? 0).map fun x => x.held.isNone) == some true) = true ∧
    nextIs (exec (.nodeRetirement 0 0) (grid [held1 [c]] [running1])) (grid [held1 [c]] [running1]) = true ∧
    (match b.fwObject 7 0x50000 true with | (_, .at_ a) => a == 0x50000 | _ => false) = true ∧
    nodeHas (exec (.nodeRetirement 0 0) b) 0 (fun n => n.state == .retired) = true ∧
    nextHas (exec (.nodeRetirement 0 0) b) (fun t => leNat (t.mem.read 0x50000 8) == 0x70000 + 2 ^ 32) = true ∧
    nextIs (exec (.graphRetirement 0) (grid [held1 [c]] [running1])) (grid [held1 [c]] [running1]) = true ∧
    queueHas (exec (.graphRetirement 0) (grid [freeHerd] [{ node1 with state := .retired }])) (fun q => q.done == 1 && q.tag == 4 && q.hold.isNone) = true ∧
    nextHas (exec (.graphRetirement 0) (grid [freeHerd] [{ node1 with state := .retired }])) (fun t => t.tahr.launches == [] && t.tahr.msix == [9]) = true := by
  decide +kernel

/-- CopiesMoveTheirBytes: R430, R431: 96 bytes within the die scratchpad. -/
theorem test_copies :
    let n : Node := { node1 with kind := .copy, state := .running, pump := some 0, src := 0x6000000000000100, dst := 0x6000000000000000, bytes := 96 }
    let s : State := { (grid [freeHerd] [n]).modDie 0 (fun d => { d with ways := 1 }) with mem := tables.write (dspLoc 0 0x100) ((List.range 96).map (BitVec.ofNat 8)) }
    n.copying = true ∧ s.dieStopped 0 = false ∧ s.dspSize 0 = 2 ^ 25 ∧ s.physDie 0 = 0 ∧
    nodeHas (exec (.copyNodeRetirement 0 0) s) 0 (fun m => m.state == .retired && m.stop == .ok) = true ∧
    nextHas (exec (.copyNodeRetirement 0 0) s) (fun t => t.mem.byte (dspLoc 0 95) == 95 && t.mem.byte (dspLoc 0 96) == 0 && t.mem.byte (dspLoc 0 0x15F) == 95) = true := by
  decide +kernel

/-- ContextsLeave: R103, R409 to R414: a rotation off a hot herd; a swap that waits for a vector result, of one core and of the last; quiescence. -/
theorem test_contexts_leave :
    let hot : Herd := { held1 [.idle] with hot := 256 }
    let s := grid [hot, freeHerd] [running1]
    let r : SaveRef := .firm 0 0
    let ev (cs : List Core) (old : Option HerdCtx := none) : State := grid [{ held1 cs with evict := some r, old := old }] [running1]
    let late : Core := { core1 with vlands := [⟨[], 2, 15, 0, 0, false⟩] }
    let sp (cs : List Core) (q : Bool) : State := grid [{ freeHerd with old := some (held1 cs).act, spill := some ⟨r, q⟩ }] [{ running1 with moving := [0] }]
    s.mayRotate (launch5 [running1]) running1 = true ∧
    nodeHas (exec (.nodeRotation 0 0) s) 0 (fun n => n.moving == [0] && n.turned == some 0) = true ∧
    nextHas (exec (.nodeRotation 0 0) s) (fun t => (t.herds[0]?).any fun x => x.evict.isSome) = true ∧
    nextIs (exec (.nodeRotation 0 0) (grid [hot, freeHerd] [{ running1 with turned := some 0 }])) (grid [hot, freeHerd] [{ running1 with turned := some 0 }]) = true ∧
    nextIs (exec (.contextSwap 0 0) (ev [late, core1])) (ev [late, core1]) = true ∧
    nextIs (exec (.contextSwap 0 0) (ev [core1] (some (held1 [core1]).act))) (ev [core1] (some (held1 [core1]).act)) = true ∧
    coreHas (exec (.contextSwap 0 0) (ev [core1, core1])) 0 0 (fun c => c.swapped) = true ∧
    nextHas (exec (.contextSwap 0 0) (ev [core1, { core1 with swapped := true }])) (fun t => (t.herds[0]?).any fun x =>
      x.act.held.isNone && x.evict.isNone && x.spill == some ⟨r, false⟩ && (x.old.bind HerdCtx.held).isSome) = true ∧
    nextHas (exec (.herdQuiescence 0) (sp [core1] false)) (fun t => (t.herds[0]?).any fun x => x.spill == some ⟨r, true⟩) = true ∧
    nextIs (exec (.herdQuiescence 0) (sp [late] false)) (sp [late] false) = true ∧
    nextIs (exec (.contextSpillComplete 0) (sp [core1] false)) (sp [core1] false) = true ∧
    ((sp [core1] true).saveReach r true (r.pieces ({ heldOne with acc := 0, fp := 0 } : Held).bytes)).2 = true ∧
    ((held1 [core1]).act.held.map Held.bytes) = some ({ heldOne with acc := 0, fp := 0 } : Held).bytes := by decide +kernel

/-- ContextsLeave, ContextsReturn: R413, R415: a spill of eight cores into an area of firmware's, and a context that comes back from one. -/
theorem test_spills_and_restores :
    let r : SaveRef := .firm 0 0
    let n : Held := { heldOne with acc := 0, fp := 0 }
    let o : HerdCtx := (held1 (.replicate 8 core1)).act
    let s := grid [{ freeHerd with old := some o, spill := some ⟨r, true⟩, phys := .replicate 8 .sound }] [{ running1 with moving := [0] }]
    let b := grid [{ held1 [{ Core.idle with saved := some r, swapped := true }] with phys := .replicate 8 .sound }] [{ running1 with moving := [0] }]
    (s.marks = [] ∧ s.misses = [] ∧ o.accErr = [] ∧ o.cores.length = 8 ∧ o.held = some n ∧ s.rectOut o n r = [] ∧
      s.saveReach r true (r.pieces n.bytes) = (s, true)) ∧
    (b.marks = [] ∧ b.misses = [] ∧ b.saveReach r false (r.pieces n.bytes) = (b, true) ∧ [core1].all (fun c => c.cs.length == 4) = true) ∧
    ∀ c a, s.inDeadGroup (scratchLoc 0 c a) = false ∧ b.inDeadGroup (scratchLoc 0 c a) = false := by
  refine ⟨by decide +kernel, by decide +kernel, fun c a => ⟨State.inDeadGroup_of_alive _ (by decide +kernel) _, State.inDeadGroup_of_alive _ (by decide +kernel) _⟩⟩

/-- ContextsReturn: R407, R415, R419: a saved context that can be read; the place of s5; a miss of s5 by a word that
uses it, by one that does not, and one of a register that is there. -/
theorem test_contexts_return :
    let r : SaveRef := .firm 0 0
    let w : Core := { Core.idle with saved := some r, swapped := true }
    let s := grid [held1 [w]] [{ running1 with moving := [0] }]
    let m : Core := { core1 with saved := some r, absent := [.s 5], buf := [⟨0x1000, .add 9 5 1, 4, 0x1004, false, 0⟩] }
    let n : Core := { m with buf := [⟨0x1000, .add 9 4 1, 4, 0x1004, false, 0⟩] }
    let u : State := grid [held1 [n]] [running1]
    let t : State := let u := grid [held1 [m]] [running1]; { u with mem := u.mem.write (2 ^ 61 + 40) [9] }
    let lost : State := { grid [held1 [{ m with saved := some (.virt 7 0x80000), s := .replicate 32 7 }]] [running1] with marks := [⟨0x8000, .double, 0⟩] }
    (s.saveReach r false (r.pieces ({ heldOne with acc := 0, fp := 0 } : Held).bytes)).2 = true ∧
    nextIs (exec (.contextRestore 0) (grid [{ held1 [w] with old := some (held1 []).act }] [])) (grid [{ held1 [w] with old := some (held1 []).act }] []) = true ∧
    (Core.idle.fetched (.s 5) (((s.coreImage (ctxOf []) 0 0 (withS 5 9 core1)).drop 40).take 8)).gs 5 = 9 ∧ core1.isLive = true ∧
    t.mayIssue 0 m = true ∧
    nextIs (exec (.registerMiss 0 0 (.s 6)) t) t = true ∧ m.isAbsent (.s 5) = true ∧ .s 5 ∈ m.uses (.add 9 5 1) ∧
    .s 5 ∉ n.uses (.add 9 4 1) ∧ nextIs (exec (.registerMiss 0 0 (.s 5)) u) u = true ∧
    (t.saveReach (r.add 40) false ((r.add 40).pieces 8)).2 = true ∧
    coreHas (exec (.registerMiss 0 0 (.s 5)) t) 0 0 (fun c => c.gs 5 == 9 && c.absent == []) = true ∧
    coreHas (exec (.registerMiss 0 0 (.s 5)) lost) 0 0 (fun c => c.gs 5 == 0 && c.x.xcause == 0x206 && c.x.xtval == 5) = true := by
  decide +kernel

/-- ContextsReturn: the lengths of a core's register files. -/
theorem test_register_files : core1.s.length = 32 ∧ core1.p.length = 8 ∧ core1.l.length = 8 ∧ core1.g.length = 16 ∧ core1.b.length = 16 ∧
    core1.q.length = 16 ∧ core1.v.length = 32 := by decide +kernel

/-! ## Units, wells, translation and the whole part -/

/-- The scratchpads of core 0 in a part, changed. -/
def withPhys (f : CorePhys → CorePhys) : State := (with1 core1).modHerd 0 fun x => { x with phys := x.phys.modify 0 f }

/-- Whether something holds of the scratchpads of core 0. -/
def physHas (o : Out) (f : CorePhys → Bool) : Bool := nextHas o fun t => (Spec.physOf t 0 0).any f

/-- A part in which a unit has counted errors. -/
def counted (u : UnitId) (unc cor : Nat) : State := { with1 core1 with
  counters := [⟨.unit u, unc, cor⟩], tahr := { Tahr.idle with ready := true } }

/-- UnitsRetire: R227, R230, R231, R435: thresholds of each kind, one short of each, and the four groups of a core. -/
theorem test_units_retire :
    let stay (u : UnitId) (a b : Nat) : Bool := nextIs (exec (.unitRetirement u) (counted u a b)) (counted u a b)
    physHas (exec (.parityUpdate 0 0 3 9) (withPhys fun p => { p with stale := [(3, 9), (3, 8)] })) (fun p => p.stale == [(3, 8)]) = true ∧
    physHas (exec (.bankRebuild 0 0 5) (withPhys fun p => { p with groups := p.groups.set 1 { Group.sound with rebuild := some 5 } })) (fun p =>
      p.groups.getD 1 .sound == { Group.sound with degraded := true }) = true ∧
    nextIs (exec (.bankRebuild 0 0 4) (with1 core1)) (with1 core1) = true ∧
    (with1 core1).hasUnit (.herd 1) = false ∧ (with1 core1).hasUnit (.dataBank 0 0 5) = true ∧ (with1 core1).unitOut (.dataBank 0 0 5) = false ∧
    physHas (exec (.unitRetirement (.dataBank 0 0 5)) (counted (.dataBank 0 0 5) 2 0)) (fun p => p.groups.getD 1 .sound == { Group.sound with
      lostBanks := [5], rebuild := some 5 }) = true ∧
    physHas (exec (.unitRetirement (.dataBank 0 0 5)) (counted (.dataBank 0 0 5) 1 4096)) (fun p => (p.groups.getD 1 .sound).lostBanks == [5]) = true ∧
    stay (.dataBank 0 0 5) 1 4095 = true ∧ stay (.matrix 0) 2 0 = true ∧ stay (.herd 0) 0 9 = true ∧ stay (.diePump 0 1) 2 9 = true ∧ stay (.well 0 7) 2 9 = true ∧
    nextHas (exec (.unitRetirement (.matrix 0)) (counted (.matrix 0) 3 0)) (fun t => t.herds.map Herd.mstate == [2]) = true ∧
    nextHas (exec (.unitRetirement (.herd 0)) (counted (.herd 0) 1 0)) (fun t => t.herds.map Herd.retired == [true]) = true ∧
    nextHas (exec (.unitRetirement (.diePump 0 1)) (counted (.diePump 0 1) 3 0)) (fun t => t.dies.map Die.pumpsOut == [[1]]) = true ∧
    nextHas (exec (.unitRetirement (.well 0 7)) (counted (.well 0 7) 3 0)) (fun t => t.dies.map Die.wellsOut == [[7]]) = true ∧
    (let hurt := { Group.sound with degraded := true };
      ((Spec.physOf ((withPhys fun p => { p with groups := p.groups.set 1 hurt }).retireUnit (.dataBank 0 0 5) 2) 0 0).any fun p =>
        (p.groups.getD 1 .sound).dead) = true ∧
      ((withPhys fun p => { p with groups := [hurt, .sound, .sound, .sound, .sound] ++ .replicate 3 { hurt with dead := true } }).retireUnit (.parityBank 0 0 0) 2).herds.map
        Herd.retired = [true]) ∧
    ((Spec.physOf ((with1 core1).retireUnit (.parityBank 0 0 1) 2) 0 0).any fun p => (p.groups.getD 1 .sound).degraded) = true := by decide +kernel

/-- The rectangle of one well with a fill of latch 1 under way, from offset 0x2000 of its well. -/
def filling (f : Fill) (o : Latch := ⟨none, .int8, false, [], none, 0, 0⟩) : State :=
  { driver [] with rects := [{ rect1 with wells := [[⟨o, ⟨some 0x2000, .int8, false, [], some f, 0, 0⟩, false⟩]] }] }

/-- WellFillsAndArrivals: R330, R331, R347: a fill opens row 1 of bank 0, not in refresh; it completes; lost beats; a refresh of 200 ck;
a row in another bank opens beside the other latch's fill, one in its bank does not. -/
theorem test_well_fills :
    let s := filling ⟨false, [], []⟩
    let b := { filling ⟨true, [], []⟩ with mem := Mem.write ⟨[], []⟩ 0x2000 [7, 8] }
    let busy := s.modDie 0 fun d => { d with refresh := [(0, 0, 5)] }
    let l : Latch := ⟨some 0, .int8, false, [], none, 0, 0⟩
    let beside (off : Nat) := filling ⟨false, [], []⟩ { l with off := some off, fill := some ⟨true, [], []⟩ }
    bankRow 0x40000 = (0, 32) ∧ bankRow 0x800000 = (1, 0) ∧
    nextIs (exec (.fillRowActivation 0 0 true) (beside 0x40000)) (beside 0x40000) = true ∧
    nextIs (exec (.fillRowActivation 0 0 true) (beside 0x800000)) ((beside 0x800000).modDie 0 fun d => d.openRow 0 0 1) = true ∧
    ({ l with fmt := .ql4 }.filled ⟨true, [1, 2], [0]⟩).image = .replicate 512 0x77 ∧
    (s.fillOf 0 0 true).isSome = true ∧ (s.fillOf 0 0 false).isNone = true ∧ bankRow 0x2000 = (0, 1) ∧ (0x2000 % 2 ^ 13 + imageBytes .int8 false ≤ 2 ^ 13) ∧
    nextHas (exec (.fillRowActivation 0 0 true) s) (fun t => t.dies.map Die.openRows == [[⟨0, 0, 1⟩]]) = true ∧
    nextIs (exec (.fillRowActivation 0 0 true) busy) busy = true ∧ nextIs (exec (.fillRowActivation 0 0 true) b) b = true ∧
    nextIs (exec (.fillComplete 0 0 true) s) s = true ∧ nextIs (exec (.fillComplete 0 0 false) s) s = true ∧
    nextHas (exec (.fillComplete 0 0 true) b) (fun t => (t.rects.map fun x => let y := (x.well 0 0).latch true; (y.image.take 3, y.image.length, y.fill)) ==
      [([7, 8, 0], imageBytes .int8 false, none)]) = true ∧
    (l.filled ⟨true, [1, 2], [0]⟩).image = [] ∧ (l.filled ⟨true, [1, 2], []⟩).image = [1, 2] ∧
    nextHas (exec (.bankRefresh 0 3 15) s) (fun t => t.dies.map Die.refresh == [[(3, 15, 200)]]) = true ∧
    nextIs (exec (.bankRefresh 0 0 0) busy) busy = true := by decide +kernel

/-- WellFillsAndArrivals: R328, R330, R347: a fill that has read a beat reads the rest; one whose beat of weights is lost; one that reaches the end of its row
opens the next for the rest. -/
theorem test_fills_go_on :
    let line := List.replicate 64 1
    let s := { filling ⟨true, line, []⟩ with mem := Mem.write ⟨[], []⟩ 0x2040 [7, 8] }
    let lost := { filling ⟨true, [], []⟩ with marks := [⟨0x204, .double, 0⟩] }
    let last : State := { driver [] with rects := [{ rect1 with wells := [[⟨⟨none, .int8, false, [], none, 0, 0⟩,
      ⟨some 0x3FC0, .int8, false, [], some ⟨true, [], []⟩, 0, 0⟩, false⟩]] }] }
    let latch (t : State) := t.rects.map fun x => (x.well 0 0).latch true
    nextHas (exec (.fillComplete 0 0 true) s) (fun t => (latch t).map (fun l => (l.image.take 66, l.image.length, l.zeroed)) ==
      [(line ++ [7, 8], imageBytes .int8 false, 0)]) = true ∧
    nextHas (exec (.fillComplete 0 0 true) lost) (fun t => (latch t).map (fun l => (l.image, l.zeroed, l.fill)) == [([], 1, none)]) = true ∧
    nextHas (exec (.fillComplete 0 0 true) last) (fun t => (latch t).map (fun l => l.fill.map fun f => (f.beats, f.got.length)) == [some (false, 64)]) = true := by
  decide +kernel

/-- WellFillsAndArrivals: R334 to R338: the second of two vectors of a wfeed of one row arrives; a stopped or finished wfeed makes no arrival;
the flags of a slot. -/
theorem test_well_arrivals :
    let w : Instr := .wfeed plain ⟨⟨0, 0⟩, 0, 0⟩ .buf 4 1 none
    let s (p : Nat) (st : Bool) := driver [runs (entry w) fun r => { r with pos := p, stop := st }]
    let k : CSlot := ⟨some true, .replicate 32 ⟨0, false, false, false⟩, .replicate 32 0, false, false, false, []⟩
    let z := k.combine false false true ⟨.replicate 16 none, 3, 4, false⟩ []
    feedStream w = none ∧ (s 1 false).oldHas 0 0 Core.feeds = false ∧
    coreHas (exec (.cisternArrival 0) (s 1 false)) 0 0 (fun c => (((c.head .well).bind Entry.run).map Run.pos) == some 2) = true ∧
    nextHas (exec (.cisternArrival 0) (s 1 false)) (fun t => t.rects.map (fun x => ((x.slot 0 5).ql4, (x.slot 0 4).ql4)) == [(some false, none)]) = true ∧
    nextIs (exec (.cisternArrival 0) (s 2 false)) (s 2 false) = true ∧ nextIs (exec (.cisternArrival 0) (s 1 true)) (s 1 true) = true ∧
    z.taint = true ∧ z.undef = true ∧ z.ql4 = some true ∧ z.nan = false := by decide +kernel

/-- WellFillsAndArrivals: R286, R332, R335, R347: the first vector of a wfeed from a stream goes into slot 4 of its column's buffer, and upon the partial sums of
its part; it waits for a latch that it uses to fill; the error records of a latch are reported once. -/
theorem test_streams_feed :
    let w : Instr := .wfeed plain ⟨⟨0, 0⟩, 0, 0⟩ (.stream 1 false) 4 1 (some 2)
    let e : Entry := runs { entry w with img1 := strm 0x2000000000001000 8192 0 0 4, img2 := strm 0x2000000000003000 8192 0 0 0 }
    let d := driver [e]
    let s : State := { (d.modCore 0 0 fun c => { c with q := (ringed 2048 4).q }) with mem := Mem.write ⟨[], []⟩ (own 0x1000) [0x80, 0x3F] }
    let told : Rect := { rect1 with wells := [[⟨⟨none, .int8, false, [], none, 1, 3⟩, ⟨none, .int8, false, [], none, 0, 0⟩, false⟩]] }
    let busy : State := { s with rects := [{ rect1 with wells := [[⟨⟨some 0, .int8, false, [], some ⟨true, [], []⟩, 0, 0⟩, ⟨none, .int8, false, [], none, 0, 0⟩, false⟩]] }] }
    s.oldHas 0 0 Core.feeds = false ∧ s.wellRingsHeld 0 0 ((s.core? 0 0).getD .idle) w = false ∧ rect1.actives (rect1.used w) = [(0, 0, false)] ∧
    nextHas (exec (.cisternArrival 0) s) (fun t => t.rects.map (fun x => x.bufs.map fun b => (b.drop 4).take 2) ==
      [[[wa16 (0x3F80 :: .replicate 31 0), ⟨.replicate 32 0, -127⟩]]] && t.rects.map (fun x => (x.slot 0 4).ql4) == [some false]) = true ∧
    nextIs (exec (.cisternArrival 0) busy) busy = true ∧
    nextHas (exec (.cisternArrival 0) { s with rects := [told] }) (fun t => t.rects.map (fun x => ((x.well 0 0).latch false).poison) == [0] &&
      (t.core? 0 0).any fun c => ((c.head .well).bind Entry.run).map (fun k => (k.pos, k.poisoned)) == some (1, 3)) = true ∧
    (told.report [(0, 0, false)]).2 = (1, 3) := by decide +kernel

/-- PowerAndResets: R20, R447, R448. -/
theorem test_resets :
    let s := grid [{ held1 [core1] with retired := true, mstate := 1 }] []
    let off : State := { s with powered := false }
    let cold : State := { s with tahr := .idle }
    let warm : State := { s with tahr := { Tahr.idle with warm := true }, dieMap := [4, 5, 6, 7, 0, 1, 2, 3] }
    nextHas (exec .powerOnReset s) (fun t => !t.tahr.ready && t.tahr.queues == [] && t.powered && t.herds.length == 128 && t.roots == []) = true ∧
    nextHas (exec .mainPowerLoss s) (fun t => !t.powered) = true ∧ nextIs (exec .fundamentalReset off) off = true ∧
    nextHas (exec .functionLevelReset { s with tahr := { s.tahr with launches := [] } }) (fun t => !t.tahr.ready && t.tahr.queues == [] && t.herds.map Herd.retired == [true] &&
      t.herds.map Herd.mstate == [1]) = true ∧
    nextHas (exec .functionLevelReset (grid [{ held1 [{ core1 with sq := [⟨.store 0 [1], 0, 3⟩] }] with old := some (ctxOf [core1]) }] [running1])) (fun t =>
      t.tahr.launches == [] && t.logged == 0 && t.roots == [] && t.herds.all fun x => x.act.held.isNone && x.act.cores == .replicate 8 .idle && x.old.isNone && x.evict.isNone) = true ∧
    nextHas (exec (.bringUpComplete (.ready true)) cold) (fun t => t.tahr.ready && t.dieMap == [4, 5, 6, 7, 0, 1, 2, 3]) = true ∧
    nextHas (exec (.bringUpComplete (.ready false)) warm) (fun t => t.tahr.ready && t.dieMap == [4, 5, 6, 7, 0, 1, 2, 3]) = true ∧
    nextHas (exec (.bringUpComplete .fatal) cold) (fun t => t.tahr.fatal) = true ∧ s.powered = true ∧
    ((s.choose .tahrFails).tahr.fatal, (s.choose .tahrFails).tahr.ready) = (true, false) ∧
    nextIs (exec (.bringUpComplete .fatal) s) s = true ∧ nextIs (exec (.bringUpComplete .fatal) off) off = true := by decide +kernel

/-- HeatNoticesAndReports: R439: the edges of each state of a zone. -/
theorem test_zone_states :
    ([85, 86, 105, 106].map fun t => nextZone t 0) = [0, 1, 1, 3] ∧ ([82, 83, 95, 96].map fun t => nextZone t 1) = [0, 1, 1, 2] ∧
    ([92, 93, 106].map fun t => nextZone t 2) = [1, 2, 3] ∧ ([100, 101].map fun t => nextZone t 3) = [2, 3] := by decide +kernel

/-- HeatNoticesAndReports: a sample, budgets, an emergency's stop, and a notice that ends a wait. -/
theorem test_heat_and_notices :
    let x : Sample := ⟨[106 :: .replicate 15 40], 6000001, 45⟩
    let s := with1 core1
    let stop := s.modDie 0 fun d => { d with stops := [0] }
    let told (c : Core) : State := { with1 c with tahr := { Tahr.idle with notices := [(0, 0, 3)] } }
    nextHas (exec (.sensorSample x) s) (fun t => t.tahr.allow == 14 && t.tahr.power == [6000001] && (t.log.map fun g => (g.kind, g.die, g.qid, g.w1)) == [(6, 0, 0xFFF, .ofNat 64 (3 * 2 ^ 6 + 106 * 2 ^ 8))] && t.dies.map (fun d => (d.zones.take 2, d.stops)) == [([⟨106, 3⟩, ⟨40, 0⟩], [0])] &&
      t.herds.map Herd.hot == [1]) = true ∧
    nextHas (exec (.xthermUpdate 0) (s.modDie 0 fun d => { d with zones := [⟨90, 1⟩, ⟨96, 2⟩] })) (fun t => t.dies.map Die.budgets == [[7, 3]]) = true ∧
    nextIs (exec (.thermalEmergencyStop 0 0) s) s = true ∧
    nextHas (exec (.thermalEmergencyStop 0 0) stop) (fun t => t.dies.map Die.stops == [[]] && t.tahr.notices.length == 8) = true ∧
    nextIs (exec (.noticePost 0 0 3) s) s = true ∧
    coreHas (exec (.noticePost 0 0 3) (told core1)) 0 0 (fun c => c.x.np && c.x.ncode == 3 && c.pc == 0x1000) = true ∧
    coreHas (exec (.noticePost 0 0 3) (told { core1 with block := some .notice })) 0 0 (fun c => c.x.np && c.block.isNone && c.pc == 0x1004) = true := by
  decide +kernel

/-- HeatNoticesAndReports: R443: the stop of a herd with a Running matrix or pump entry, whose token is s9; one while the herds take no signals; a
sample that changes no zone. -/
theorem test_thermal_stops :
    let y := queued core1 .matrix [runs (entry (.mzero plain 1)), entry (.mzero plain 2)]
    let z := queued core1 .pump [runs (entry (.pfill plain { pump2 with tok := 9 }))]
    let p := (with1 z).modDie 0 fun d => { d with stops := [0] }
    let s := (with1 y).modDie 0 fun d => { d with stops := [0] }
    let shut := s.modHerd 0 fun h => { h with act := { h.act with turn := { h.act.turn with ck := 0, granted := true } } }
    s.allOpen = true ∧ shut.allOpen = false ∧ nextIs (exec (.thermalEmergencyStop 0 0) shut) shut = true ∧
    (y.head .matrix).map (fun e => e.run.map Run.final) = some (some .ok) ∧ y.cancelRd = [] ∧ s.nodes.length = 0 ∧
    coreHas (exec (.thermalEmergencyStop 0 0) s) 0 0 (fun c => (c.queue .matrix).length == 1 &&
      c.last.getD (engineCode .matrix) .ok == .thermalAbort) = true ∧
    (z.head .pump).any (fun e => (pumpJob z e).isSome && tokenOf e.word == some 9) = true ∧
    coreHas (exec (.thermalEmergencyStop 0 0) p) 0 0 (fun c => (c.queue .pump).length == 0 && c.gs 9 == -(11#64)) = true ∧
    (let x : Sample := ⟨[.replicate 16 40], 5800000, 45⟩; nextHas (exec (.sensorSample x) (with1 core1)) (fun t => t.log == [] && t.tahr.allow == 15) = true) := by
  decide +kernel

/-- HeatNoticesAndReports: R405, R406: a report and one that ends its core. -/
theorem test_reports :
    let s (e : Bool) := grid [held1 [{ core1 with block := some (.report 0x77 e 0x10004 0x1000 9) }]] [running1]
    (s true).oldHas 0 0 (Core.reports · true) = false ∧
    nextIs (exec (.reportPost 0 0) (s true)) (s true) = true ∧ nextIs (exec (.reportPostEnd 0 0) (s false)) (s false) = true ∧
    coreHas (exec (.reportPost 0 0) (s false)) 0 0 (fun c => c.block.isNone && c.front == .stray && c.pc == 0x1000) = true ∧
    coreHas (exec (.reportPostEnd 0 0) (s true)) 0 0 (fun c => c.block.isNone && c.front == .halted) = true ∧
    nextHas (exec (.reportPost 0 0) (s false)) (fun t => t.tahr.msix == [9] && t.log.map (fun e => (e.kind, e.qid, e.w2, e.w3)) == [(1, 5, 0x1000, 9)] &&
      t.log.map (fun e => e.w1.extractLsb' 0 33) == [.ofNat 33 (0x77 + 0x10004 * 2 ^ 16)]) = true := by decide +kernel

/-- TranslationAndInvalidation: R235 to R243: a walk down to the leaf, its end without a root, at a table that is malformed and at no
descriptor; the checks of a leaf; an invalidation. -/
theorem test_translation :
    let s := tahr1 queue5 []
    let e (f : Nat) (n : Option Nat := none) : TlbEntry := ⟨7, 0, 4096, .ofNat 64 f, n⟩
    let got (i : Intent) (x : TlbEntry) : Nat := match s.throughLeaf 7 8 i (.ok x) with | (_, .kind k) => k | (_, .loc l _) => 100 + l | _ => 99
    let leaf (r : Walked) : Nat := match r.leaf with | .ok x => x.size | .error k => k
    leaf (s.walk [] 7 0x30000) = 2 ^ 28 ∧ leaf (s.walk [] 9 0x30000) = 0 ∧ leaf (s.walk [] 7 0x20000000) = 0 ∧
    leaf ({ s with mem := s.mem.write 0x11000 (leBytes 8 0x120007) }.walk [] 7 0x30000) = 5 ∧
    leaf ({ s with mem := s.mem.write 0x13000 (leBytes 8 0xE1) }.walk [] 7 0x30000) = 5 ∧
    nextHas (exec (.tlbMissWalk 0 7 0x30000) s) (fun t => t.dies.map (fun d => d.tlb.map TlbEntry.size) == [[2 ^ 28]]) = true ∧
    nextIs (exec (.tlbMissWalk 0 7 8) (s.modDie 0 fun d => { d with tlb := [e 0xE5] })) (s.modDie 0 fun d => { d with tlb := [e 0xE5] }) = true ∧
    (match exec (.tlbMissWalk 1 7 8) s with | .fault .noSuchUnit => true | _ => false) = true ∧
    got ⟨true, false, false⟩ (e 0x41) = 2 ∧ got ⟨true, false, true⟩ (e 0xC1) = 3 ∧ got ⟨true, true, false⟩ (e 0x81) = 1 ∧
    got ⟨true, true, false⟩ (e 0xC1 (some 2)) = 4 ∧ got ⟨true, false, false⟩ (e 0xC1) = 108 := by decide +kernel

/-- TranslationAndInvalidation: R243: tlbinv at supervisor level, and its end. -/
theorem test_invalidation :
    let e : TlbEntry := ⟨7, 0, 4096, 0xC1, none⟩
    let s (c : Core) : State := (with1 c).modHerd 0 fun x => { x with tlb := [e] }
    coreHas (exec (.tlbinv 1) (s super1)) 0 0 (fun c => c.block == some (.tlbinv (some 7) (some 5))) = true ∧
    coreHas (exec (.tlbinvall 1) (s super1)) 0 0 (fun c => c.block == some (.tlbinv none none)) = true ∧ (s super1).translatedDone = true ∧
    ([.bwait 999 16 5 false, .spinw 999 16 5] : List Block).all (fun b => ((s { core1 with block := some b }).retrace 0 0).core? 0 0 ==
      some { core1 with block := some (match b with | .bwait _ p t m => .bwait 16 p t m | _ => .spinw 16 16 5) }) = true ∧
    nextHas (exec (.tlbInvalidationComplete 0 0) (s { super1 with block := some (.tlbinv (some 7) (some 5)) })) (fun t => t.herds.map Herd.tlb == [[]] &&
      (t.core? 0 0).any fun c => c.block.isNone) = true := by decide +kernel

/-- PagesAndWays: R244, R245: pops from a list, from any well, from an empty list; pushes onto one and of a bad frame. -/
theorem test_free_pages :
    let d : Die := { Die.idle with free := [⟨1, 0, [0x8001000, 0x8002000]⟩] }
    let s (r : FreeReq) : State := { with1 { core1 with freeReq := some r } with dies := [d] }
    let left (o : Out) (l : List Nat) (v : Word) : Bool := nextHas o fun t => t.dies.map (fun x => x.frames 1 0) == [l] && (t.core? 0 0).any fun c =>
      c.freeReq.isNone && c.x.xfres == v
    let all := [0x8001000, 0x8002000]
    (s ⟨0, 0, 1, false, false, 0⟩).oldHas 0 0 Core.hasFreeReq = false ∧
    left (exec (.freePagePop 0 0) (s ⟨0, 0, 1, false, false, 0⟩)) [0x8002000] 0x8001001 = true ∧
    left (exec (.freePagePop 0 0) (s ⟨0, 0, 0, true, false, 0⟩)) [0x8002000] 0x8001001 = true ∧
    left (exec (.freePagePop 0 0) (s ⟨0, 0, 0, false, false, 0⟩)) all 0 = true ∧ left (exec (.freePagePop 0 0) (s ⟨9, 0, 1, false, false, 0⟩)) all 0 = true ∧
    left (exec (.freePagePop 0 0) (s ⟨1, 0, 0, true, false, 0⟩)) all 0 = true ∧
    frameOk 0x8003000 0 = true ∧ paWell 0x8003000 = 1 ∧ frameOk 0x8003000 1 = false ∧
    left (exec (.freePagePush 0 0) (s ⟨0, 0, 0, false, true, 0x8003⟩)) (0x8003000 :: all) 0x8003001 = true ∧
    nextHas (exec (.freePagePush 0 0) (s ⟨0, 0, 0, false, true, 0x8003⟩)) (fun t => leNat (t.mem.read 0x8003000 8) == 0x8001001) = true ∧
    nextHas (exec (.freePagePush 0 0) (s ⟨1, 0, 0, false, true, 0x8003⟩)) (fun t => t.dies == [d]) = true := by decide +kernel

/-- PagesAndWays: R234, R246: a write of xdsp with a change in progress, without one, and of what is there; pgdec on counts 2, 1 and 0. -/
theorem test_ways_and_shared_pages :
    let x (f : Die → Die) : State := (with1 { core1 with block := some (.xdsp 2 false) }).modDie 0 f
    let w (n : Nat) : State := withBytes core1 (leBytes 8 (0x201 + 5 * 2 ^ 16) ++ leBytes 8 n)
    let c := exec (.pgdec 1 0)
    let count (o : Out) (n : Nat) : Bool := nextHas o fun t => leNat (t.mem.read (own 0x1008) 8) == n
    nextIs (exec (.xdspWrite 0 0) (x fun d => { d with change := some ⟨3, none⟩ })) (x fun d => { d with change := some ⟨3, none⟩ }) = true ∧
    coreHas (exec (.xdspWrite 0 0) (x fun d => { d with ways := 2 })) 0 0 (fun c => c.block.isNone) = true ∧
    (let nine := (with1 { core1 with block := some (.xdsp 9 false) }).modDie 0 fun d => { d with ways := 8 };
      nextHas (exec (.xdspWrite 0 0) nine) (fun t => t.dies.map (fun d => (d.ways, d.waysSet, d.change)) == [(8, 9, none)]) = true) ∧
    coreHas (exec (.xdspWrite 0 0) (x id)) 0 0 (fun c => c.block == some (.xdsp 2 true)) = true ∧
    nextHas (exec (.xdspWrite 0 0) (x id)) (fun t => t.dies.map Die.change == [some ⟨2, some (0, 0)⟩]) = true ∧ core1.quietAccess = true ∧
    count (c (w 2)) 1 = true ∧ count (c (w 1)) 0 = true ∧ nextHas (c (w 1)) (fun t => t.dies.map (fun d => d.frames 0 0) == [[0x5000]]) = true ∧
    coreHas (c (w 0)) 0 0 (fun c => c.x.xcause == 0x705) = true ∧ coreHas (c (withBytes core1 [])) 0 0 (fun c => c.x.xcause == 0x505) = true := by decide +kernel

/-- EveryRowGoesOn: a part has the units that its rows name, and no others. -/
theorem test_units_that_are_named :
    (with1 core1).core? 0 0 ≠ none ∧ (with1 core1).core? 5 0 = none ∧ (match exec (.trapEntry 5 0) (with1 core1) with | .fault .noSuchUnit => true | _ => false) = true ∧
    nextHas (exec (.trapEntry 0 0) (with1 core1)) (fun _ => true) = true := by decide +kernel

/-- WordsLeaveMemory, WordsActOnTheirCore: a store enters the queue of core 0 and changes neither memory nor core 1. -/
theorem test_words_act_on_their_core :
    let s := part [core1, core2]
    encode (.stW 1 1 0) ≠ [] ∧ nextHas (exec (.stW 1 1 0) s) (fun t => decide (t.mem = s.mem) && t.core? 0 1 == s.core? 0 1 && decide (t.core? 0 0 ≠ s.core? 0 0)) = true := by
  decide +kernel

/-- StepKeepsMemoryCanonical: a step of a part whose memory has a byte. -/
theorem test_memory_form :
    let s := { (withBytes core1 [7]).withFetchWord 32 0x00204400 with agenda := [⟨0, .choice (.hostWrite 5 [0, 3])⟩] }
    s.mem.wf = true ∧ nextHas (step s) (fun t => t.mem.wf && t.mem.byte (hostLoc 6) == 3) = true := by decide +kernel

/-- ResetMemoryIsUndefined: a location of each kind. -/
theorem test_kinds_of_memory : isDram 0 = true ∧ isDsp (dspLoc 7 0) = true ∧ isScratch (own 0) = true := by decide +kernel

end Sys2Proof.Tests
end

section
/-! SUPPORT. Encode after decode (WordsHaveOneMeaning): each part of the decoder answers only instructions that the encoder writes
with the very fields that were read, so that the fields laid out again are the word (R106, R109 to R133). -/

namespace Sys2Proof.Laws.DecodeSound

open Sys2Proof Sys2Proof.Machine

/-! ## What a decoding writes -/

/-- Whatever instruction the decoding answers is written as these granules. -/
def Writes (r : Decoded) (gs : List Granule) : Prop := ∀ i, r = .ok i → encode i = gs

@[simp] theorem writes_error (e : DecodeError) (gs : List Granule) : Writes (.error e) gs := by
  intro i h; cases h

@[simp] theorem writes_ok {i : Instr} {gs : List Granule} : Writes (.ok i) gs ↔ encode i = gs := by
  simp [Writes]

@[simp] theorem writes_need {c : Bool} {e : DecodeError} {k : Decoded} {gs : List Granule} :
    Writes (need c e k) gs ↔ (c = true → Writes k gs) := by
  cases c <;> simp [need]

@[simp] theorem writes_field {α : Type} {o : Option α} {k : α → Decoded} {gs : List Granule} :
    Writes (field o k) gs ↔ ∀ x, o = some x → Writes (k x) gs := by
  cases o <;> simp [field]

theorem writes_ite {p : Prop} [Decidable p] {r r' : Decoded} {gs : List Granule} (ht : p → Writes r gs) (hf : ¬p → Writes r' gs) :
    Writes (if p then r else r') gs := by
  split
  case isTrue h => exact ht h
  case isFalse h => exact hf h

theorem writes_ite_eq {m n : Nat} {r r' : Decoded} {gs : List Granule} (ht : m = n → Writes r gs) (hf : m ≠ n → Writes r' gs) :
    Writes (if m == n then r else r') gs :=
  writes_ite (fun h => ht (eq_of_beq h)) fun h => hf fun e => h (beq_of_eq e)

/-! ## Fields laid out again -/

theorem toNat_ofNat_of_lt {n k m : Nat} (hn : n < m) (hm : m = 2 ^ k) : (BitVec.ofNat k n).toNat = n := by
  subst hm
  simp [Nat.mod_eq_of_lt hn]

theorem toNat_beq_one {n : Nat} (h : n < 2) : (n == 1).toNat = n := by
  interval_cases n <;> rfl

theorem pack_zip_unpack (ns : List Nat) (w : Nat) : pack (ns.zip (unpack ns w)) = w % 2 ^ ns.sum := by
  induction ns generalizing w with
  | nil => simp [pack, unpack, Nat.mod_one]
  | cons n ns ih => simp [pack, unpack, ih, pow_add, Nat.mod_mul]

/-- Fields laid out again are the bits that they were read from. -/
theorem pack_of_unpack {ns vs : List Nat} {w k : Nat} (hk : ns.sum = k) (h : unpack ns w = vs) : pack (ns.zip vs) = w % 2 ^ k := by
  rw [← h, pack_zip_unpack, hk]

/-- Fields that fill a granule, laid out again, are the granule. -/
theorem granule_of_unpack {ns vs : List Nat} {w : Nat} (hs : ns.sum = 32) (h : unpack ns w = vs) :
    BitVec.ofNat 32 (pack (ns.zip vs)) = .ofNat 32 w := by
  apply BitVec.eq_of_toNat_eq
  simp [← h, pack_zip_unpack, hs]

/-- An operand that fits its field is its own fields, laid out again. -/
theorem operand_of_unpack {ns vs : List Nat} {x k : Nat} (hk : ns.sum = k) (hx : x < 2 ^ k) (h : unpack ns x = vs) :
    pack (ns.zip vs) = x :=
  (pack_of_unpack hk h).trans (Nat.mod_eq_of_lt hx)

/-- Each value read is below the bound of its field. -/
theorem unpack_fits (ns : List Nat) (w : Nat) : List.Forall₂ (fun v n => v < 2 ^ n) (unpack ns w) ns := by
  induction ns generalizing w with
  | nil => exact .nil
  | cons n ns ih => exact .cons (Nat.mod_lt _ (by positivity)) (ih _)

theorem fits_of_unpack {ns vs : List Nat} {w : Nat} (h : unpack ns w = vs) : List.Forall₂ (fun v n => v < 2 ^ n) vs ns :=
  h ▸ unpack_fits ns w

theorem splitGranules_mod (n w : Nat) : splitGranules n (w % 2 ^ (32 * n)) = splitGranules n w := by
  induction n generalizing w with
  | zero => rfl
  | succ n ih =>
    have hlow : BitVec.ofNat 32 (w % 2 ^ (32 * (n + 1))) = BitVec.ofNat 32 w := by
      apply BitVec.eq_of_toNat_eq
      rw [BitVec.toNat_ofNat, BitVec.toNat_ofNat, Nat.mod_mod_of_dvd _ (pow_dvd_pow 2 (by omega))]
    have hhigh : w % 2 ^ (32 * (n + 1)) / 2 ^ 32 = w / 2 ^ 32 % 2 ^ (32 * n) := by
      rw [mul_add, pow_add, mul_comm, mul_one, Nat.mod_mul_right_div_self]
    rw [splitGranules, splitGranules, hlow, hhigh, ih]

theorem splitGranules_join32 (l : List Granule) : splitGranules l.length (join32 l) = l := by
  induction l with
  | nil => rfl
  | cons g r ih =>
    have hlow : BitVec.ofNat 32 (g.toNat + 2 ^ 32 * join32 r) = g := by
      apply BitVec.eq_of_toNat_eq
      simp [Nat.mod_eq_of_lt g.isLt]
    have hhigh : (g.toNat + 2 ^ 32 * join32 r) / 2 ^ 32 = join32 r := by omega
    rw [List.length_cons, splitGranules, join32, hlow, hhigh, ih]

/-! ## Codes of the small types -/

theorem rndCode_rndOfCode {n : Nat} (h : n < 4) : rndCode (rndOfCode n) = n := by
  interval_cases n <;> rfl

theorem engineCode_engineOfCode {n : Nat} (h : n < 4) : engineCode (engineOfCode n) = n := by
  interval_cases n <;> rfl

theorem scopeCode_of {n : Nat} {x : Scope} (h : scopeOfCode n = some x) : scopeCode x = n := by
  unfold scopeOfCode at h
  split at h <;> cases h <;> rfl

theorem xregNum_of {n : Nat} {x : XReg} (h : xregOfNum n = some x) : xregNum x = n := by
  unfold xregOfNum at h
  split at h <;> cases h <;> rfl

theorem elemCode_of {n : Nat} {x : ElemType} (h : elemOfCode n = some x) : elemCode x = n := by
  unfold elemOfCode at h
  split at h <;> cases h <;> rfl

theorem cmpCode_of {n : Nat} {x : Cmp} (h : cmpOfCode n = some x) : cmpCode x = n := by
  unfold cmpOfCode at h
  split at h <;> cases h <;> rfl

theorem outKindCode_of {n : Nat} {x : OutKind} (h : outKindOfCode n = some x) : outKindCode x = n := by
  unfold outKindOfCode at h
  split at h <;> cases h <;> rfl

theorem drainKindCode_of {n : Nat} {x : DrainKind} (h : drainKindOfCode n = some x) : drainKindCode x = n := by
  unfold drainKindOfCode at h
  split at h <;> cases h <;> rfl

theorem wellFmtCode_of {n : Nat} {x : WellFmt} (h : wellFmtOfCode n = some x) : wellFmtCode x = n := by
  unfold wellFmtOfCode at h
  split at h <;> cases h <;> rfl

theorem actFnCode_of {n : Nat} {x : ActFn} (h : actFnOfCode n = some x) : actFnCode x = n := by
  unfold actFnOfCode at h
  split at h <;> cases h <;> rfl

theorem collOpCode_of {n : Nat} {x : CollOp} (h : collOpOfCode n = some x) : collOpCode x = n := by
  unfold collOpOfCode at h
  split at h <;> cases h <;> rfl

/-! ## Scalar words, by shape (R110, R126 to R130) -/

section ScalarShapes
variable {m c d a b : Nat}

theorem r3_writes {f : BitVec 5 → BitVec 5 → BitVec 5 → Instr}
    (hf : ∀ x y z, encode (f x y z) = encRR m c x.toNat y.toNat z.toNat) : Writes (r3 f d a b) (encRR m c d a b) := by
  simp [r3, hf, encRR, pack]

theorem r2_writes {f : BitVec 5 → BitVec 5 → Instr} (hf : ∀ x y, encode (f x y) = encRR m c x.toNat y.toNat 0) :
    Writes (r2 f d a b) (encRR m c d a b) := by
  simp +contextual [r2, hf, encRR, pack]

theorem rcvt_writes {f : BitVec 5 → BitVec 5 → Rnd → Instr}
    (hf : ∀ x y r, encode (f x y r) = encRR m c x.toNat y.toNat (rndCode r)) : Writes (rcvt f d a b) (encRR m c d a b) := by
  simp +contextual [rcvt, hf, encRR, pack, rndCode_rndOfCode]

theorem decodeRR0_writes (f d a b : Nat) : Writes (decodeRR0 f d a b) (encRR 0 f d a b) := by
  unfold decodeRR0
  split
  any_goals exact r3_writes fun _ _ _ => rfl
  any_goals exact r2_writes fun _ _ => rfl
  exact writes_error _ _

theorem decodeRR1_writes (f d a b : Nat) : Writes (decodeRR1 f d a b) (encRR 1 f d a b) := by
  unfold decodeRR1
  split
  any_goals exact r3_writes fun _ _ _ => rfl
  exact writes_error _ _

theorem decodeRR2_writes (f d a b : Nat) : Writes (decodeRR2 f d a b) (encRR 2 f d a b) := by
  unfold decodeRR2
  split
  any_goals exact r2_writes fun _ _ => rfl
  any_goals exact rcvt_writes fun _ _ _ => rfl
  exact writes_error _ _

theorem decodeRR3_writes (f d a b : Nat) : Writes (decodeRR3 f d a b) (encRR 3 f d a b) := by
  unfold decodeRR3
  split
  any_goals exact r3_writes fun _ _ _ => rfl
  any_goals exact r2_writes fun _ _ => rfl
  exact writes_error _ _

theorem encode_jr (a : BitVec 5) : encode (.jr a) = encRR 4 0 0 a.toNat 0 := rfl
theorem encode_callr (d a : BitVec 5) : encode (.callr d a) = encRR 4 1 d.toNat a.toNat 0 := rfl

theorem decodeRR4_writes (f d a b : Nat) : Writes (decodeRR4 f d a b) (encRR 4 f d a b) := by
  unfold decodeRR4
  split <;> simp +contextual [encode_jr, encode_callr, encRR, pack]

theorem ri_writes {f : BitVec 5 → BitVec 5 → BitVec 14 → Instr} {i : Nat}
    (hf : ∀ x y z, encode (f x y z) = encRI m x.toNat y.toNat z.toNat) :
    Writes (.ok (f (.ofNat 5 d) (.ofNat 5 a) (.ofNat 14 i))) (encRI m d a i) := by
  simp [hf, encRI, pack]

theorem shImm_writes {f : BitVec 5 → BitVec 5 → BitVec 6 → Instr} {i : Nat}
    (hf : ∀ x y z, encode (f x y z) = encRI m x.toNat y.toNat z.toNat) : Writes (shImm f d a i) (encRI m d a i) := by
  simp only [shImm, writes_need, writes_ok, hf, decide_eq_true_eq]
  intro hi
  simp [encRI, pack, Nat.mod_eq_of_lt hi]

theorem decodeGset_writes (d a i : Nat) : Writes (decodeGset d a i) (encRI 0x14 d a i) := by
  have hopen : ∀ x, encode (.gsetOpen x) = encRI 0x14 x.toNat 0 0 := fun _ => rfl
  have hne : ∀ x y, encode (.gsetNe x y) = encRI 0x14 x.toNat y.toNat 1 := fun _ _ => rfl
  have heq : ∀ x y, encode (.gsetEq x y) = encRI 0x14 x.toNat y.toNat 2 := fun _ _ => rfl
  simp only [decodeGset, writes_need, decide_eq_true_eq]
  intro hd
  split <;> simp +contextual [hopen, hne, heq, encRI, pack, Nat.mod_eq_of_lt hd]

theorem decodeRI_writes (m d a i : Nat) (hm : 0x08 ≤ m ∧ m ≤ 0x14) (h11 : m ≠ 0x11) (h12 : m ≠ 0x12) :
    Writes (decodeRI m d a i) (encRI m d a i) := by
  unfold decodeRI
  split
  any_goals exact shImm_writes fun _ _ _ => rfl
  any_goals exact ri_writes fun _ _ _ => rfl
  · have hlset : ∀ x y z, encode (.lset x y z) = encRI 19 x.toNat y.toNat z.toNat := fun _ _ _ => rfl
    simp only [writes_need, writes_ok, hlset, decide_eq_true_eq]
    intro hd
    simp [encRI, pack, Nat.mod_eq_of_lt hd]
  · obtain rfl : m = 0x14 := by simp only [imp_false] at *; omega
    exact decodeGset_writes d a i

theorem decodeRB_writes (m a b i : Nat) (hm : 0x18 ≤ m ∧ m ≤ 0x1D) : Writes (decodeRB m a b i) (encRI m a b i) := by
  unfold decodeRB
  split
  case h_6 =>
    obtain rfl : m = 0x1D := by simp only [imp_false] at *; omega
    exact ri_writes fun _ _ _ => rfl
  all_goals exact ri_writes fun _ _ _ => rfl

theorem ls_writes {s o : Nat} {f : BitVec 5 → BitVec 4 → BitVec 15 → Instr}
    (hf : ∀ x y z, encode (f x y z) = encLS m x.toNat y.toNat z.toNat) :
    Writes (.ok (f (.ofNat 5 s) (.ofNat 4 b) (.ofNat 15 o))) (encLS m s b o) := by
  simp [hf, encLS, pack]

theorem img_writes {s o : Nat} {f : BitVec 4 → BitVec 4 → BitVec 15 → Instr}
    (hf : ∀ x y z, encode (f x y z) = encLS m x.toNat y.toNat z.toNat) : Writes (img f s b o) (encLS m s b o) := by
  simp only [img, writes_need, writes_ok, hf, decide_eq_true_eq]
  intro hs
  simp [encLS, pack, Nat.mod_eq_of_lt hs]

theorem decodeLS_writes (m s b o : Nat) (hm : 0x20 ≤ m ∧ m ≤ 0x2F) : Writes (decodeLS m s b o) (encLS m s b o) := by
  unfold decodeLS
  split
  case h_16 =>
    obtain rfl : m = 0x2F := by simp only [imp_false] at *; omega
    exact img_writes fun _ _ _ => rfl
  any_goals exact ls_writes fun _ _ _ => rfl
  all_goals exact img_writes fun _ _ _ => rfl

theorem at_writes {s o : Nat} {f : BitVec 5 → BitVec 4 → BitVec 10 → Instr}
    (hf : ∀ x y z, encode (f x y z) = encAT m c x.toNat y.toNat z.toNat) :
    Writes (.ok (f (.ofNat 5 s) (.ofNat 4 b) (.ofNat 10 o))) (encAT m c s b o) := by
  simp [hf, encAT, pack]

theorem cas_writes {s o : Nat} {f : BitVec 4 → BitVec 4 → BitVec 10 → Instr}
    (hf : ∀ x y z, encode (f x y z) = encAT m c (2 * x.toNat) y.toNat z.toNat) (hs : s < 32) :
    Writes (need (s % 2 == 0) .reservedValue (.ok (f (.ofNat 4 (s / 2)) (.ofNat 4 b) (.ofNat 10 o)))) (encAT m c s b o) := by
  simp only [writes_need, writes_ok, hf, beq_iff_eq]
  intro heven
  have hpair : 2 * (s / 2 % 2 ^ 4) = s := by omega
  simp only [encAT, pack, BitVec.toNat_ofNat, Nat.mod_mod, hpair]

theorem decodeATW_writes (f s b o : Nat) (hs : s < 32) : Writes (decodeATW f s b o) (encAT 0x30 f s b o) := by
  unfold decodeATW
  split
  any_goals exact at_writes fun _ _ _ => rfl
  · exact cas_writes (fun _ _ _ => rfl) hs
  · exact writes_error _ _

theorem decodeATD_writes (f s b o : Nat) (hs : s < 32) : Writes (decodeATD f s b o) (encAT 0x31 f s b o) := by
  unfold decodeATD
  split
  any_goals exact at_writes fun _ _ _ => rfl
  · exact cas_writes (fun _ _ _ => rfl) hs
  · exact writes_error _ _

theorem syncW_writes {f : BitVec 5 → BitVec 4 → BitVec 5 → Instr}
    (hf : ∀ x y z, encode (f x y z) = encRR m c x.toNat y.toNat z.toNat) : Writes (syncW f d a b) (encRR m c d a b) := by
  simp only [syncW, writes_need, writes_ok, hf, decide_eq_true_eq]
  intro ha
  simp [encRR, pack, Nat.mod_eq_of_lt ha]

end ScalarShapes

/-! ## Scalar words from their fields -/

theorem unpack_layRR (w : Nat) : unpack layRR w =
    [w % 2 ^ 9, w / 2 ^ 9 % 2 ^ 5, w / 2 ^ 14 % 2 ^ 5, w / 2 ^ 19 % 2 ^ 5, w / 2 ^ 24 % 2 ^ 6, w / 2 ^ 30 % 2 ^ 2] := by
  simp [unpack, layRR, Nat.div_div_eq_div_mul]

theorem unpack_layX (w : Nat) : unpack layX w =
    [w % 2 ^ 9, w / 2 ^ 9 % 2 ^ 10, w / 2 ^ 19 % 2 ^ 5, w / 2 ^ 24 % 2 ^ 6, w / 2 ^ 30 % 2 ^ 2] := by
  simp [unpack, layX, Nat.div_div_eq_div_mul]

theorem unpack_layRI (w : Nat) : unpack layRI w =
    [w % 2 ^ 14, w / 2 ^ 14 % 2 ^ 5, w / 2 ^ 19 % 2 ^ 5, w / 2 ^ 24 % 2 ^ 6, w / 2 ^ 30 % 2 ^ 2] := by
  simp [unpack, layRI, Nat.div_div_eq_div_mul]

theorem unpack_layRW (w : Nat) : unpack layRW w =
    [w % 2 ^ 19, w / 2 ^ 19 % 2 ^ 5, w / 2 ^ 24 % 2 ^ 6, w / 2 ^ 30 % 2 ^ 2] := by
  simp [unpack, layRW, Nat.div_div_eq_div_mul]

theorem unpack_layJ (w : Nat) : unpack layJ w = [w % 2 ^ 24, w / 2 ^ 24 % 2 ^ 6, w / 2 ^ 30 % 2 ^ 2] := by
  simp [unpack, layJ, Nat.div_div_eq_div_mul]

theorem unpack_layLS (w : Nat) : unpack layLS w =
    [w % 2 ^ 15, w / 2 ^ 15 % 2 ^ 4, w / 2 ^ 19 % 2 ^ 5, w / 2 ^ 24 % 2 ^ 6, w / 2 ^ 30 % 2 ^ 2] := by
  simp [unpack, layLS, Nat.div_div_eq_div_mul]

theorem unpack_layAT (w : Nat) : unpack layAT w =
    [w % 2 ^ 10, w / 2 ^ 10 % 2 ^ 5, w / 2 ^ 15 % 2 ^ 4, w / 2 ^ 19 % 2 ^ 5, w / 2 ^ 24 % 2 ^ 6, w / 2 ^ 30 % 2 ^ 2] := by
  simp [unpack, layAT, Nat.div_div_eq_div_mul]

theorem unpack_layK (w : Nat) : unpack layK w =
    [w % 2 ^ 9, w / 2 ^ 9 % 2 ^ 4, w / 2 ^ 13 % 2 ^ 3, w / 2 ^ 16 % 2 ^ 8, w / 2 ^ 24 % 2 ^ 6, w / 2 ^ 30 % 2 ^ 2] := by
  simp [unpack, layK, Nat.div_div_eq_div_mul]

section ScalarWord
variable {w m : Nat} (hc : w / 2 ^ 30 % 2 ^ 2 = 0) (hm : w / 2 ^ 24 % 2 ^ 6 = m)
include hc hm

theorem encRR_of_word : encRR m (w % 2 ^ 9) (w / 2 ^ 19 % 2 ^ 5) (w / 2 ^ 14 % 2 ^ 5) (w / 2 ^ 9 % 2 ^ 5) = [.ofNat 32 w] := by
  have h := granule_of_unpack rfl (unpack_layRR w)
  rw [hc, hm] at h
  exact congrArg (fun g => [g]) h

theorem encX_of_word (h3F : m = 0x3F) : encX (w % 2 ^ 9) (w / 2 ^ 9 % 2 ^ 10) (w / 2 ^ 19 % 2 ^ 5) = [.ofNat 32 w] := by
  have h := granule_of_unpack rfl (unpack_layX w)
  rw [hc, hm, h3F] at h
  exact congrArg (fun g => [g]) h

theorem encRI_of_word : encRI m (w / 2 ^ 19 % 2 ^ 5) (w / 2 ^ 14 % 2 ^ 5) (w % 2 ^ 14) = [.ofNat 32 w] := by
  have h := granule_of_unpack rfl (unpack_layRI w)
  rw [hc, hm] at h
  exact congrArg (fun g => [g]) h

theorem encRW_of_word : encRW m (w / 2 ^ 19 % 2 ^ 5) (w % 2 ^ 19) = [.ofNat 32 w] := by
  have h := granule_of_unpack rfl (unpack_layRW w)
  rw [hc, hm] at h
  exact congrArg (fun g => [g]) h

theorem encJ_of_word : encJ m (w % 2 ^ 24) = [.ofNat 32 w] := by
  have h := granule_of_unpack rfl (unpack_layJ w)
  rw [hc, hm] at h
  exact congrArg (fun g => [g]) h

theorem encLS_of_word : encLS m (w / 2 ^ 19 % 2 ^ 5) (w / 2 ^ 15 % 2 ^ 4) (w % 2 ^ 15) = [.ofNat 32 w] := by
  have h := granule_of_unpack rfl (unpack_layLS w)
  rw [hc, hm] at h
  exact congrArg (fun g => [g]) h

theorem encAT_of_word : encAT m (w / 2 ^ 10 % 2 ^ 5) (w / 2 ^ 19 % 2 ^ 5) (w / 2 ^ 15 % 2 ^ 4) (w % 2 ^ 10) = [.ofNat 32 w] := by
  have h := granule_of_unpack rfl (unpack_layAT w)
  rw [hc, hm] at h
  exact congrArg (fun g => [g]) h

theorem encK_of_word (h32 : m = 0x32) :
    encK (w % 2 ^ 9) (w / 2 ^ 9 % 2 ^ 4) (w / 2 ^ 13 % 2 ^ 3) (w / 2 ^ 16 % 2 ^ 8) = [.ofNat 32 w] := by
  have h := granule_of_unpack rfl (unpack_layK w)
  rw [hc, hm, h32] at h
  exact congrArg (fun g => [g]) h

end ScalarWord

theorem fenceC_writes (c s k : Nat) :
    Writes (need (c == 0) .unusedField (field (scopeOfCode s) fun x => .ok (.fenceC (.ofNat 8 k) x))) (encK 0 c s k) := by
  simp only [writes_need, writes_field, writes_ok, beq_iff_eq]
  rintro rfl x hx
  rw [← scopeCode_of hx]
  change encK 0 0 (scopeCode x) (BitVec.ofNat 8 k).toNat = _
  simp [encK, pack]

theorem semaphore_writes {n c s k : Nat} {f : BitVec 8 → BitVec 4 → Instr} (hf : ∀ x y, encode (f x y) = encK n y.toNat 0 x.toNat) :
    Writes (need (s == 0) .unusedField (.ok (f (.ofNat 8 k) (.ofNat 4 c)))) (encK n c s k) := by
  simp +contextual [hf, encK, pack]

theorem pgdec_writes (d a b : Nat) :
    Writes (need (d == 0 && decide (a < 16)) .unusedField (.ok (.pgdec (.ofNat 4 a) (.ofNat 5 b)))) (encRR 0x32 9 d a b) := by
  simp only [writes_need, writes_ok, Bool.and_eq_true, beq_iff_eq, decide_eq_true_eq]
  rintro ⟨rfl, ha⟩
  change encRR 0x32 9 0 (BitVec.ofNat 4 a).toNat (BitVec.ofNat 5 b).toNat = _
  simp [encRR, pack, Nat.mod_eq_of_lt ha]

theorem decodeSync_writes {w : Nat} (hc : w / 2 ^ 30 % 2 ^ 2 = 0) (hm : w / 2 ^ 24 % 2 ^ 6 = 0x32) :
    Writes (decodeSync w) [.ofNat 32 w] := by
  have hRR := encRR_of_word hc hm
  have hK := encK_of_word hc hm rfl
  rw [decodeSync, unpack_layRR, unpack_layK]
  dsimp only
  generalize w % 2 ^ 9 = f, w / 2 ^ 9 % 2 ^ 4 = c, w / 2 ^ 13 % 2 ^ 3 = s, w / 2 ^ 16 % 2 ^ 8 = k, w / 2 ^ 9 % 2 ^ 5 = b,
    w / 2 ^ 14 % 2 ^ 5 = a, w / 2 ^ 19 % 2 ^ 5 = d at hRR hK ⊢
  split
  case h_1 => exact hK ▸ fenceC_writes c s k
  case h_2 | h_3 | h_4 | h_5 | h_6 => exact hRR ▸ syncW_writes fun _ _ _ => rfl
  case h_7 | h_8 => exact hK ▸ semaphore_writes fun _ _ => rfl
  case h_9 => exact hRR ▸ r2_writes fun _ _ => rfl
  case h_10 => exact hRR ▸ pgdec_writes d a b
  case h_11 => exact writes_error _ _

theorem xreg_writes {n x d : Nat} {f : BitVec 5 → XReg → Instr} (hf : ∀ y r, encode (f y r) = encX n (xregNum r) y.toNat) :
    Writes (field (xregOfNum x) fun r => .ok (f (.ofNat 5 d) r)) (encX n x d) := by
  simp only [writes_field, writes_ok, hf]
  intro r hr
  simp [encX, pack, xregNum_of hr]

theorem sys0_writes {n d x : Nat} {i : Instr} (hi : encode i = encX n 0 0) : Writes (sys0 i d x) (encX n x d) := by
  simp +contextual [sys0, hi]

theorem trap_writes (d x : Nat) : Writes (need (d == 0) .unusedField (.ok (.trap (.ofNat 10 x)))) (encX 4 x d) := by
  simp only [writes_need, writes_ok, beq_iff_eq]
  rintro rfl
  change encX 4 (BitVec.ofNat 10 x).toNat 0 = _
  simp [encX, pack]

theorem herdid_writes (d x : Nat) : Writes (need (x == 0) .unusedField (.ok (.herdid (.ofNat 5 d)))) (encX 8 x d) := by
  simp only [writes_need, writes_ok, beq_iff_eq]
  rintro rfl
  change encX 8 0 (BitVec.ofNat 5 d).toNat = _
  simp [encX, pack]

theorem qstat_writes (d a b : Nat) :
    Writes (need (decide (a < 4) && b == 0) .unusedField (.ok (.qstat (.ofNat 5 d) (engineOfCode a)))) (encRR 0x3F 0xB d a b) := by
  simp only [writes_need, writes_ok, Bool.and_eq_true, beq_iff_eq, decide_eq_true_eq]
  rintro ⟨ha, rfl⟩
  change encRR 0x3F 0xB (BitVec.ofNat 5 d).toNat (engineCode (engineOfCode a)) 0 = _
  simp [encRR, pack, engineCode_engineOfCode ha]

theorem tlbinv_writes {n d a b : Nat} {f : BitVec 5 → Instr} (hf : ∀ x, encode (f x) = encRR 0x3F n 0 x.toNat 0) :
    Writes (need (d == 0 && b == 0) .unusedField (.ok (f (.ofNat 5 a)))) (encRR 0x3F n d a b) := by
  simp +contextual [hf, encRR, pack]

theorem decodeSys_writes {w : Nat} (hc : w / 2 ^ 30 % 2 ^ 2 = 0) (hm : w / 2 ^ 24 % 2 ^ 6 = 0x3F) :
    Writes (decodeSys w) [.ofNat 32 w] := by
  have hRR := encRR_of_word hc hm
  have hX := encX_of_word hc hm rfl
  rw [decodeSys, unpack_layRR, unpack_layX]
  dsimp only
  generalize w % 2 ^ 9 = f, w / 2 ^ 9 % 2 ^ 10 = x, w / 2 ^ 9 % 2 ^ 5 = b, w / 2 ^ 14 % 2 ^ 5 = a, w / 2 ^ 19 % 2 ^ 5 = d at hRR hX ⊢
  split
  case h_1 | h_2 | h_3 | h_4 => exact hX ▸ xreg_writes fun _ _ => rfl
  case h_5 => exact hX ▸ trap_writes d x
  case h_9 => exact hX ▸ herdid_writes d x
  case h_12 => exact hRR ▸ qstat_writes d a b
  case h_14 | h_15 => exact hRR ▸ tlbinv_writes fun _ => rfl
  case h_19 => exact writes_error _ _
  all_goals exact hX ▸ sys0_writes rfl

theorem upper_writes {m d w : Nat} {f : BitVec 5 → BitVec 19 → Instr} (hf : ∀ x y, encode (f x y) = encRW m x.toNat y.toNat) :
    Writes (.ok (f (.ofNat 5 d) (.ofNat 19 w))) (encRW m d (w % 2 ^ 19)) := by
  simp [hf, encRW, pack]

theorem jump_writes {m w : Nat} {f : BitVec 24 → Instr} (hf : ∀ x, encode (f x) = encJ m x.toNat) :
    Writes (.ok (f (.ofNat 24 w))) (encJ m (w % 2 ^ 24)) := by
  simp [hf, encJ, pack]

theorem decodeScalar_writes {w : Nat} (hc : w / 2 ^ 30 % 2 ^ 2 = 0) : Writes (decodeScalar w) [.ofNat 32 w] := by
  have hs : w / 2 ^ 19 % 2 ^ 5 < 32 := Nat.mod_lt _ (by decide)
  rw [decodeScalar, unpack_layRR, unpack_layRI, unpack_layLS, unpack_layAT]
  dsimp only
  refine writes_ite_eq (fun h => encRR_of_word hc h ▸ decodeRR0_writes _ _ _ _) fun _ => ?_
  refine writes_ite_eq (fun h => encRR_of_word hc h ▸ decodeRR1_writes _ _ _ _) fun _ => ?_
  refine writes_ite_eq (fun h => encRR_of_word hc h ▸ decodeRR2_writes _ _ _ _) fun _ => ?_
  refine writes_ite_eq (fun h => encRR_of_word hc h ▸ decodeRR3_writes _ _ _ _) fun _ => ?_
  refine writes_ite_eq (fun h => encRR_of_word hc h ▸ decodeRR4_writes _ _ _ _) fun _ => ?_
  refine writes_ite_eq (fun h => encRW_of_word hc h ▸ upper_writes fun _ _ => rfl) fun h11 => ?_
  refine writes_ite_eq (fun h => encRW_of_word hc h ▸ upper_writes fun _ _ => rfl) fun h12 => ?_
  refine writes_ite (fun h => encRI_of_word hc rfl ▸ decodeRI_writes _ _ _ _ h h11 h12) fun _ => ?_
  refine writes_ite (fun h => encRI_of_word hc rfl ▸ decodeRB_writes _ _ _ _ h) fun _ => ?_
  refine writes_ite_eq (fun h => encJ_of_word hc h ▸ jump_writes fun _ => rfl) fun _ => ?_
  refine writes_ite_eq (fun h => encJ_of_word hc h ▸ jump_writes fun _ => rfl) fun _ => ?_
  refine writes_ite (fun h => encLS_of_word hc rfl ▸ decodeLS_writes _ _ _ _ h) fun _ => ?_
  refine writes_ite_eq (fun h => encAT_of_word hc h ▸ decodeATW_writes _ _ _ _ hs) fun _ => ?_
  refine writes_ite_eq (fun h => encAT_of_word hc h ▸ decodeATD_writes _ _ _ _ hs) fun _ => ?_
  refine writes_ite_eq (fun h => decodeSync_writes hc h) fun _ => ?_
  exact writes_ite_eq (fun h => decodeSys_writes hc h) fun _ => writes_error _ _

theorem decodeScalar_unassigned {w : Nat} (hm : w / 2 ^ 24 % 64 ∈ [0x05, 0x06, 0x07, 0x15, 0x16, 0x17, 0x33, 0x34, 0x35, 0x36, 0x37,
    0x38, 0x39, 0x3A, 0x3B, 0x3C, 0x3D, 0x3E]) : decodeScalar w = .error .reservedMajor := by
  rw [decodeScalar, unpack_layRR, unpack_layRI, unpack_layLS, unpack_layAT]
  dsimp only
  generalize w / 2 ^ 24 % 64 = m at hm ⊢
  fin_cases hm <;> rfl

theorem unassignedWordsAreRefused : Spec.UnassignedWordsAreRefused := by
  rintro g rest (h | ⟨hc, hm⟩)
  · have hclass : granules g = none := by simp only [granules, h]
    exact ⟨.notAClass, by simp [decodeGranules, decodeRaw, hclass]⟩
  · have hclass : granules g = some 1 := WordLength.granules_of_class hc (by simp)
    have hraw : decodeScalar g.toNat = .error .reservedMajor := by
      refine decodeScalar_unassigned ?_
      rwa [Nat.mod_eq_of_lt (by omega)]
    exact ⟨.reservedMajor, by simp [decodeGranules, decodeRaw, hclass, hraw]⟩

/-! ## Descriptors (R114) -/

theorem descBits_of {x : Nat} {y : Desc} (h : descOf x = some y) : descBits y = x % 2 ^ 21 := by
  unfold descOf at h
  split at h
  case h_1 lo sel b hx | h_3 lo sel b hx =>
    split_ifs at h with hlo
    cases h
    simp only [Bool.and_eq_true, decide_eq_true_eq, beq_iff_eq] at hlo
    obtain ⟨⟨hlo, rfl⟩, rfl⟩ := hlo
    refine Eq.trans ?_ (pack_of_unpack rfl hx)
    simp [descBits, layD, pack, Nat.mod_eq_of_lt hlo]
  case h_2 lo sel b hx =>
    cases h
    refine Eq.trans ?_ (pack_of_unpack rfl hx)
    simp [descBits, layD, pack]
  case h_4 lo sel b hx =>
    split_ifs at h with hb
    cases h
    have hfits := fits_of_unpack hx
    simp only [layD, List.forall₂_cons] at hfits
    obtain ⟨hlo, hsel, -⟩ := hfits
    refine Eq.trans ?_ (pack_of_unpack rfl hx)
    simp only [descBits, layD, List.zip_cons_cons, List.zip_nil_left, pack, BitVec.toNat_ofNat]
    omega
  case h_5 => cases h

theorem vregOf_bits {x : Nat} {n : BitVec 5} (h : vregOf x = some n) : descBits (.reg n) = x % 2 ^ 21 := by
  unfold vregOf at h
  split at h
  case h_1 m hx => cases h; exact descBits_of hx
  case h_2 => cases h

theorem memOf_bits {x : Nat} {m : MemRef} (h : memOf x = some m) : descBits (.mem m) = x % 2 ^ 21 := by
  unfold memOf at h
  split at h
  case h_1 m hx => cases h; exact descBits_of hx
  case h_2 => cases h

theorem pregOf_bits {x : Nat} {p : BitVec 3} (h : pregOf x = some p) : pBits p = x % 2 ^ 21 := by
  unfold pregOf at h
  split at h
  case h_1 n hx =>
    split_ifs at h with hn
    cases h
    have hp : (BitVec.ofNat 3 n.toNat).setWidth 5 = n := by
      apply BitVec.eq_of_toNat_eq
      simp [Nat.mod_eq_of_lt hn, n.isLt]
    rw [pBits, hp, descBits_of hx]
  case h_2 => cases h

theorem immOf_bits {limit x n : Nat} (h : immOf limit x = some n) : n < limit ∧ iBits n = x % 2 ^ 21 := by
  unfold immOf at h
  split at h
  case h_1 i hx =>
    split_ifs at h with hi
    cases h
    exact ⟨hi, by rw [iBits, BitVec.ofNat_toNat, BitVec.setWidth_eq, descBits_of hx]⟩
  case h_2 => cases h

theorem encV_congr {op : Nat} {h : VHdr} {e d a b d' a' b' : Nat} (hd : d' = d % 2 ^ 21) (ha : a' = a % 2 ^ 21)
    (hb : b' = b % 2 ^ 21) : encV op h e d' a' b' = encV op h e d a b := by
  simp [encV, pack, hd, ha, hb]

/-! ## Vector words (R131, R132) -/

section VectorShapes
variable {op e d a b : Nat} {h : VHdr}

theorem v3_writes {f : VHdr → Desc → Desc → Desc → Instr} (hf : ∀ d a b, encode (f h d a b) = encVs3 op h 0 d a b) :
    Writes (v3 f h e d a b) (encV op h e d a b) := by
  simp only [v3, writes_need, writes_field, writes_ok, beq_iff_eq, hf]
  rintro rfl x hx y hy z hz
  exact encV_congr (descBits_of hx) (descBits_of hy) (descBits_of hz)

theorem v2_writes {f : VHdr → Desc → Desc → Instr} (hf : ∀ d a, encode (f h d a) = encVs2 op h 0 d a) :
    Writes (v2 f h e d a b) (encV op h e d a b) := by
  simp only [v2, writes_need, writes_field, writes_ok, Bool.and_eq_true, beq_iff_eq, hf]
  rintro ⟨rfl, rfl⟩ x hx y hy
  exact encV_congr (descBits_of hx) (descBits_of hy) rfl

theorem p3_writes {f : VHdr → BitVec 3 → BitVec 3 → BitVec 3 → Instr}
    (hf : ∀ d a b, encode (f h d a b) = encV op h 0 (pBits d) (pBits a) (pBits b)) :
    Writes (p3 f h e d a b) (encV op h e d a b) := by
  simp only [p3, writes_need, writes_field, writes_ok, beq_iff_eq, hf]
  rintro rfl x hx y hy z hz
  exact encV_congr (pregOf_bits hx) (pregOf_bits hy) (pregOf_bits hz)

theorem p2_writes {f : VHdr → BitVec 3 → BitVec 3 → Instr} (hf : ∀ d a, encode (f h d a) = encV op h 0 (pBits d) (pBits a) 0) :
    Writes (p2 f h e d a b) (encV op h e d a b) := by
  simp only [p2, writes_need, writes_field, writes_ok, Bool.and_eq_true, beq_iff_eq, hf]
  rintro ⟨rfl, rfl⟩ x hx y hy
  exact encV_congr (pregOf_bits hx) (pregOf_bits hy) rfl

theorem vp_writes {f : VHdr → BitVec 5 → BitVec 3 → Instr}
    (hf : ∀ d a, encode (f h d a) = encV op h 0 (descBits (.reg d)) (pBits a) 0) : Writes (vp f h e d a b) (encV op h e d a b) := by
  simp only [vp, writes_need, writes_field, writes_ok, Bool.and_eq_true, beq_iff_eq, hf]
  rintro ⟨rfl, rfl⟩ x hx y hy
  exact encV_congr (vregOf_bits hx) (pregOf_bits hy) rfl

theorem vs2_writes {f : VHdr → ElemType → Desc → Desc → Instr}
    (hf : ∀ s d a, encode (f h s d a) = encVs2 op h (elemCode s) d a) : Writes (vs2 f h e d a b) (encV op h e d a b) := by
  simp only [vs2, writes_need, writes_field, writes_ok, beq_iff_eq, hf]
  rintro rfl s hs x hx y hy
  rw [← elemCode_of hs]
  exact encV_congr (descBits_of hx) (descBits_of hy) rfl

theorem vs3_writes {f : VHdr → ElemType → Desc → Desc → Desc → Instr}
    (hf : ∀ s d a b, encode (f h s d a b) = encVs3 op h (elemCode s) d a b) : Writes (vs3 f h e d a b) (encV op h e d a b) := by
  simp only [vs3, writes_field, writes_ok, hf]
  intro s hs x hx y hy z hz
  rw [← elemCode_of hs]
  exact encV_congr (descBits_of hx) (descBits_of hy) (descBits_of hz)

theorem vsp_writes {f : VHdr → ElemType → Desc → Desc → BitVec 3 → Instr}
    (hf : ∀ s d a j, encode (f h s d a j) = encV op h (elemCode s) (descBits d) (descBits a) (iBits j.toNat)) :
    Writes (vsp f h e d a b) (encV op h e d a b) := by
  simp only [vsp, writes_field, writes_ok, hf]
  intro s hs x hx y hy j hj
  obtain ⟨hlt, hj⟩ := immOf_bits hj
  rw [← elemCode_of hs, toNat_ofNat_of_lt hlt rfl]
  exact encV_congr (descBits_of hx) (descBits_of hy) hj

theorem vcmp_writes : Writes (field (cmpOfCode e) fun c => field (descOf d) fun d => field (descOf a) fun a =>
    field (descOf b) fun b => .ok (.vcmp h c d a b)) (encV 0x30 h e d a b) := by
  simp only [writes_field, writes_ok]
  intro c hc x hx y hy z hz
  rw [← cmpCode_of hc]
  exact encV_congr (descBits_of hx) (descBits_of hy) (descBits_of hz)

theorem pset_writes : Writes (need (e == 0 && b == 0) .unusedField <| field (pregOf d) fun d => field (descOf a) fun a =>
    .ok (.pset h d a)) (encV 0x35 h e d a b) := by
  simp only [writes_need, writes_field, writes_ok, Bool.and_eq_true, beq_iff_eq]
  rintro ⟨rfl, rfl⟩ x hx y hy
  exact encV_congr (pregOf_bits hx) (descBits_of hy) rfl

/-- vdq and vcpop name a vector register and a queue (R132). -/
theorem queueRead_writes {f : BitVec 5 → BitVec 2 → Instr}
    (hf : ∀ x n, encode (f x n) = encV op h 0 (descBits (.reg x)) (iBits n.toNat) 0) :
    Writes (need (e == 0 && b == 0) .unusedField <| field (vregOf d) fun d => field (immOf 4 a) fun n => .ok (f d (.ofNat 2 n)))
      (encV op h e d a b) := by
  simp only [writes_need, writes_field, writes_ok, Bool.and_eq_true, beq_iff_eq, hf]
  rintro ⟨rfl, rfl⟩ x hx n hn
  obtain ⟨hlt, hn⟩ := immOf_bits hn
  rw [toNat_ofNat_of_lt hlt rfl]
  exact encV_congr (vregOf_bits hx) hn rfl

theorem vaq_writes : Writes (need (e == 0) .unusedField <| field (memOf d) fun d => field (vregOf a) fun a =>
    field (immOf 4 b) fun n => .ok (.vaq h d a (.ofNat 2 n))) (encV 0x75 h e d a b) := by
  simp only [writes_need, writes_field, writes_ok, beq_iff_eq]
  rintro rfl x hx y hy n hn
  obtain ⟨hlt, hn⟩ := immOf_bits hn
  refine encV_congr (memOf_bits hx) (vregOf_bits hy) ?_
  rwa [toNat_ofNat_of_lt hlt rfl]

theorem vloop_writes (he : e < 16) : Writes (need (d == 0) .unusedField <| field (immOf 8 a) fun a => field (immOf 4096 b) fun b =>
    .ok (.vloop h (.ofNat 4 e) (.ofNat 3 a) (.ofNat 12 b))) (encV 0x80 h e d a b) := by
  simp only [writes_need, writes_field, writes_ok, beq_iff_eq]
  rintro rfl x hx y hy
  obtain ⟨hxlt, hx⟩ := immOf_bits hx
  obtain ⟨hylt, hy⟩ := immOf_bits hy
  change encV 0x80 h (BitVec.ofNat 4 e).toNat 0 (iBits (BitVec.ofNat 3 x).toNat) (iBits (BitVec.ofNat 12 y).toNat) = _
  rw [toNat_ofNat_of_lt he rfl, toNat_ofNat_of_lt hxlt rfl, toNat_ofNat_of_lt hylt rfl]
  exact encV_congr rfl hx hy

theorem vcpush_writes : Writes (need (e == 0 && d == 0) .unusedField <| field (descOf a) fun a => field (immOf 4 b) fun n =>
    .ok (.vcpush h a (.ofNat 2 n))) (encV 0x81 h e d a b) := by
  simp only [writes_need, writes_field, writes_ok, Bool.and_eq_true, beq_iff_eq]
  rintro ⟨rfl, rfl⟩ x hx n hn
  obtain ⟨hlt, hn⟩ := immOf_bits hn
  refine encV_congr rfl (descBits_of hx) ?_
  rwa [toNat_ofNat_of_lt hlt rfl]

theorem vcflush_writes : Writes (need (e == 0 && d == 0 && b == 0) .unusedField <| field (immOf 4 a) fun n =>
    .ok (.vcflush h (.ofNat 2 n))) (encV 0x83 h e d a b) := by
  simp only [writes_need, writes_field, writes_ok, Bool.and_eq_true, beq_iff_eq]
  rintro ⟨⟨rfl, rfl⟩, rfl⟩ n hn
  obtain ⟨hlt, hn⟩ := immOf_bits hn
  refine encV_congr rfl ?_ rfl
  rwa [toNat_ofNat_of_lt hlt rfl]

end VectorShapes

theorem decodeVec_writes (op : Nat) (h : VHdr) {e : Nat} (d a b : Nat) (he : e < 16) :
    Writes (decodeVec op h e d a b) (encV op h e d a b) := by
  unfold decodeVec
  split
  any_goals exact v3_writes fun _ _ _ => rfl
  any_goals exact v2_writes fun _ _ => rfl
  any_goals exact p3_writes fun _ _ _ => rfl
  any_goals exact p2_writes fun _ _ => rfl
  any_goals exact vp_writes fun _ _ => rfl
  any_goals exact vs2_writes fun _ _ _ => rfl
  any_goals exact vsp_writes fun _ _ _ _ => rfl
  case h_34 => exact vcmp_writes
  case h_39 => exact pset_writes
  case h_44 => exact vs3_writes fun _ _ _ _ => rfl
  case h_68 | h_72 => exact queueRead_writes fun _ _ => rfl
  case h_69 => exact vaq_writes
  case h_70 => exact vloop_writes he
  case h_71 => exact vcpush_writes
  case h_73 => exact vcflush_writes
  case h_74 => exact writes_error _ _

theorem unpack_layV (w : Nat) : unpack layV w =
    [w % 2 ^ 4, w / 2 ^ 4 % 2 ^ 1, w / 2 ^ 5 % 2 ^ 1, w / 2 ^ 6 % 2 ^ 2, w / 2 ^ 8 % 2 ^ 4, w / 2 ^ 12 % 2 ^ 3, w / 2 ^ 15 % 2 ^ 4,
      w / 2 ^ 19 % 2 ^ 3, w / 2 ^ 22 % 2 ^ 8, w / 2 ^ 30 % 2 ^ 2] := by
  simp [unpack, layV, Nat.div_div_eq_div_mul]

theorem decodeVector_writes {w : Nat} (o : Nat) (hc : w / 2 ^ 30 % 2 ^ 2 = 1) :
    Writes (decodeVector w o) (.ofNat 32 w :: splitGranules 2 o) := by
  unfold decodeVector
  split
  case h_1 e lb sat rnd ty gap lat pred op cls d a b r hw ho =>
    obtain rfl : cls = 1 := by simp only [unpack_layV, List.cons.injEq] at hw; omega
    simp only [writes_need, writes_field, beq_iff_eq]
    rintro rfl t ht
    have hfits := fits_of_unpack hw
    simp only [layV, List.forall₂_cons] at hfits
    obtain ⟨he, hlb, hsat, hrnd, -, hgap, hlat, hpred, -⟩ := hfits
    have hhead := granule_of_unpack rfl hw
    have htail := pack_of_unpack (k := 64) rfl ho
    simp only [layV, layO, List.zip_cons_cons, List.zip_nil_left] at hhead htail
    have hword : encV op ⟨.ofNat 3 pred, .ofNat 4 lat, .ofNat 3 gap, t, rndOfCode rnd, sat == 1, lb == 1⟩ e d a b =
        .ofNat 32 w :: splitGranules 2 o := by
      simp only [encV, elemCode_of ht, rndCode_rndOfCode hrnd, toNat_beq_one hsat, toNat_beq_one hlb,
        toNat_ofNat_of_lt hpred rfl, toNat_ofNat_of_lt hlat rfl, toNat_ofNat_of_lt hgap rfl]
      rw [hhead, htail]
      exact congrArg _ (splitGranules_mod 2 o)
    exact hword ▸ decodeVec_writes op _ d a b he
  case h_2 => exact writes_error _ _

/-! ## Payloads of engine words (R121 to R124) -/

theorem encE_congr {eng op p p' : Nat} {h : EHdr} (hp : p' = p % 2 ^ 128) : encE eng op h p' = encE eng op h p := by
  simp only [encE, hp, splitGranules_mod 4 p]

theorem boundBits_of {b : Nat} {x : Bound} (h : boundOf b = some (some x)) : boundBits x = b := by
  unfold boundOf at h
  split_ifs at h with h0 hcount hloop
  · cases h
  · cases h
    exact toNat_ofNat_of_lt hcount rfl
  · cases h
    have hl : (BitVec.ofNat 3 (b - 32)).toNat = b - 32 := toNat_ofNat_of_lt (m := 8) (by omega) rfl
    rw [boundBits, hl]
    omega

/-- The dimensions of a nest are written as they were read, the absent ones as zeros (R121). -/
theorem dimBits_of {l : List (Nat × Nat × Nat)} {ds : List Dim} (hsel : ∀ x ∈ l, x.2.1 < 4 ∧ x.2.2 < 4) (h : dimsOf l = some ds)
    (i : Nat) : dimBits ds i = l[i]?.getD (0, 0, 0) := by
  induction l generalizing ds i with
  | nil => cases h; rfl
  | cons x r ih =>
    obtain ⟨b, s, t⟩ := x
    unfold dimsOf at h
    split at h
    case h_1 => cases h
    case h_2 =>
      split_ifs at h with hzero
      cases h
      simp only [Bool.and_eq_true, beq_iff_eq, List.all_eq_true] at hzero
      obtain ⟨hx, hr⟩ := hzero
      rw [hx]
      cases i with
      | zero => rfl
      | succ i =>
        cases hi : r[i]? with
        | none => simp [dimBits, hi]
        | some y => simp [dimBits, hi, hr y (List.mem_of_getElem? hi)]
    case h_3 bd hbd =>
      obtain ⟨l', hl', rfl⟩ := Option.map_eq_some_iff.mp h
      cases i with
      | zero =>
        obtain ⟨hs, ht⟩ := hsel _ List.mem_cons_self
        have hs : (BitVec.ofNat 2 s).toNat = s := toNat_ofNat_of_lt hs rfl
        have ht : (BitVec.ofNat 2 t).toNat = t := toNat_ofNat_of_lt ht rfl
        simp only [dimBits, List.getElem?_cons_zero, Option.getD_some, boundBits_of hbd, hs, ht]
      | succ i => exact ih (fun y hy => hsel y (List.mem_cons_of_mem _ hy)) hl' i

theorem pumpBits_of {p : Nat} {x : Pump} (h : pumpOf p = some x) : pumpBits x = p % 2 ^ 128 := by
  unfold pumpOf at h
  split at h
  case h_2 => cases h
  case h_1 sb db so dof tok hr ring r1 b0 b1 b2 b3 b4 b5 s0 d0 s1 d1 s2 d2 s3 d3 s4 d4 s5 d5 r2 hp =>
    split_ifs at h with hr
    obtain ⟨ds, hds, rfl⟩ := Option.map_eq_some_iff.mp h
    simp only [Bool.and_eq_true, beq_iff_eq] at hr
    obtain ⟨rfl, rfl⟩ := hr
    have hfits := fits_of_unpack hp
    simp only [layP, List.forall₂_cons] at hfits
    obtain ⟨hsb, hdb, hso, hdo, htok, hhr, hring, -, hb0, hb1, hb2, hb3, hb4, hb5, hs0, hd0, hs1, hd1, hs2, hd2, hs3, hd3, hs4, hd4,
      hs5, hd5, -⟩ := hfits
    have hdims := dimBits_of (by simp; omega) hds
    refine Eq.trans ?_ (pack_of_unpack rfl hp)
    simp only [pumpBits, hdims, toNat_ofNat_of_lt hsb rfl, toNat_ofNat_of_lt hdb rfl, toNat_ofNat_of_lt hso rfl,
      toNat_ofNat_of_lt hdo rfl, toNat_ofNat_of_lt htok rfl, toNat_ofNat_of_lt hhr rfl, toNat_beq_one hring]
    rfl

theorem pump_writes {op p : Nat} {h : EHdr} {x : Pump} {f : EHdr → Pump → Instr} (hx : pumpOf p = some x)
    (hf : encode (f h x) = encE 0 op h (pumpBits x)) : Writes (.ok (f h x)) (encE 0 op h p) := by
  rw [writes_ok, hf]
  exact encE_congr (pumpBits_of hx)

theorem decodePump_writes (op : Nat) (h : EHdr) (p : Nat) : Writes (decodePump op h p) (encE 0 op h p) := by
  simp only [decodePump, writes_field]
  intro x hx
  split
  case h_1 | h_2 | h_3 | h_4 | h_5 => exact pump_writes hx rfl
  case h_6 =>
    obtain ⟨sb, db, so, dof, tok, hr, ring, dims⟩ := x
    simp only [writes_need, writes_ok, Bool.and_eq_true, beq_iff_eq, Bool.not_eq_true', List.isEmpty_iff]
    rintro ⟨⟨⟨rfl, rfl⟩, rfl⟩, rfl⟩
    exact encE_congr (pumpBits_of hx)
  case h_7 => exact writes_error _ _

theorem decodeMatrix_writes (op : Nat) (h : EHdr) (p : Nat) : Writes (decodeMatrix op h p) (encE 1 op h p) := by
  unfold decodeMatrix
  split
  case h_2 => exact writes_error _ _
  case h_1 qa qb acc init sl ob ofmt oo r crc hp =>
    have hfits := fits_of_unpack hp
    simp only [layM, List.forall₂_cons] at hfits
    obtain ⟨hqa, hqb, hacc, hinit, hsl, hob, hofmt, hoo, -, hcrc, -⟩ := hfits
    have hA := toNat_ofNat_of_lt hacc rfl
    have hQa := toNat_ofNat_of_lt hqa rfl
    have hQb := toNat_ofNat_of_lt hqb rfl
    have hSl := toNat_ofNat_of_lt hsl rfl
    have hOb := toNat_ofNat_of_lt hob rfl
    have hOo := toNat_ofNat_of_lt hoo rfl
    have hCrc := toNat_ofNat_of_lt hcrc rfl
    have hInit := toNat_beq_one hinit
    simp only [writes_need, beq_iff_eq]
    rintro rfl
    have hpack := pack_of_unpack (k := 128) rfl hp
    simp only [layM, List.zip_cons_cons, List.zip_nil_left] at hpack
    have hbits : encM qa qb acc init sl ob ofmt oo crc = p % 2 ^ 128 := hpack
    rw [← encE_congr hbits]
    split
    case h_1 =>
      simp only [writes_need, writes_ok, Bool.and_eq_true, beq_iff_eq]
      rintro ⟨⟨⟨⟨rfl, rfl⟩, rfl⟩, rfl⟩, rfl⟩
      change encE 1 0 h (encM _ _ _ _ 0 0 0 0 0) = _
      rw [hA, hQa, hQb, hInit]
    case h_2 =>
      simp only [writes_need, writes_ok, Bool.and_eq_true, beq_iff_eq]
      rintro ⟨⟨⟨rfl, rfl⟩, rfl⟩, rfl⟩
      change encE 1 1 h (encM _ _ _ _ _ 0 0 0 0) = _
      rw [hA, hQa, hQb, hInit, hSl]
    case h_3 =>
      simp only [writes_need, writes_ok, Bool.and_eq_true, beq_iff_eq]
      rintro ⟨⟨⟨rfl, rfl⟩, rfl⟩, rfl⟩
      change encE 1 2 h (encM _ _ _ _ 0 0 0 0 _) = _
      rw [hA, hQa, hQb, hInit, hCrc]
    case h_4 =>
      simp only [writes_need, writes_field, writes_ok, Bool.and_eq_true, beq_iff_eq]
      rintro ⟨⟨⟨⟨rfl, rfl⟩, rfl⟩, rfl⟩, rfl⟩ k hk
      have hkind : outKindCode k + 8 * (decide (8 ≤ ofmt)).toNat = ofmt := by
        rw [outKindCode_of hk]
        interval_cases ofmt <;> rfl
      change encE 1 3 h (encM 0 0 _ 0 0 _ (outKindCode k + 8 * (decide (8 ≤ ofmt)).toNat) _ 0) = _
      rw [hA, hOb, hOo, hkind]
    case h_5 =>
      simp only [writes_need, writes_ok, Bool.and_eq_true, beq_iff_eq]
      rintro ⟨⟨⟨⟨⟨rfl, rfl⟩, rfl⟩, rfl⟩, rfl⟩, rfl⟩
      change encE 1 4 h (encM 0 0 _ 0 0 _ 0 _ 0) = _
      rw [hA, hOb, hOo]
    case h_6 =>
      simp only [writes_need, writes_ok, Bool.and_eq_true, beq_iff_eq]
      rintro ⟨⟨⟨⟨⟨⟨⟨rfl, rfl⟩, rfl⟩, rfl⟩, rfl⟩, rfl⟩, rfl⟩, rfl⟩
      change encE 1 5 h (encM 0 0 _ 0 0 0 0 0 0) = _
      rw [hA]
    case h_7 =>
      simp only [writes_need, writes_ok, beq_iff_eq]
      rintro rfl
      exact (encE_congr hbits).symm
    case h_8 => exact writes_error _ _

theorem decodeColl_writes (op : Nat) (h : EHdr) (p : Nat) : Writes (decodeColl op h p) (encE 3 op h p) := by
  unfold decodeColl
  split
  case h_2 => exact writes_error _ _
  case h_1 sb db ty o sc g r cnt r' hp =>
    have hfits := fits_of_unpack hp
    simp only [layC, List.forall₂_cons] at hfits
    obtain ⟨hsb, hdb, -, -, -, hg, -, hcnt, -⟩ := hfits
    have hS := toNat_ofNat_of_lt hsb rfl
    have hD := toNat_ofNat_of_lt hdb rfl
    have hG := toNat_ofNat_of_lt hg rfl
    have hCnt := toNat_ofNat_of_lt hcnt rfl
    simp only [writes_need, writes_field, Bool.and_eq_true, beq_iff_eq]
    rintro ⟨rfl, rfl⟩ s hs t ht c hc
    have hpack := pack_of_unpack (k := 128) rfl hp
    simp only [layC, List.zip_cons_cons, List.zip_nil_left] at hpack
    have hbits : encC sb db ty o sc g cnt = p % 2 ^ 128 := hpack
    rw [← encE_congr hbits, ← elemCode_of ht, ← collOpCode_of hc, ← scopeCode_of hs]
    split
    case h_1 =>
      rw [writes_ok]
      change encE 3 0 h (encC _ _ _ _ _ _ _) = _
      rw [hS, hD, hG, hCnt]
    case h_2 | h_3 | h_4 =>
      simp only [writes_need, writes_ok, beq_iff_eq]
      rintro rfl
      change encE 3 _ h (encC _ _ _ 0 _ _ _) = encE 3 _ h (encC _ _ _ 0 _ _ _)
      rw [hS, hD, hG, hCnt]
    case h_5 =>
      simp only [writes_need, writes_ok, Bool.and_eq_true, beq_iff_eq]
      rintro ⟨⟨⟨⟨rfl, rfl⟩, ht0⟩, hc0⟩, rfl⟩
      change encE 3 4 h (encC 0 0 0 0 _ _ 0) = _
      rw [hG, ht0, hc0]
    case h_6 => exact writes_error _ _

section WellWords
variable {h : EHdr} {r : WellRect} {rows : WellRows} {la q oa ob : Nat}

theorem encode_wload {off sn : Nat} (hla : la < 2) (hob : ob < 2 ^ 64) (hx : unpack [27, 5, 32] ob = [off, sn, 0]) :
    encode (.wload h r (la == 1) (.ofNat 27 off) (.ofNat 5 sn)) = encE 2 0 h (encW r la 0 0 ob) := by
  have hfits := fits_of_unpack hx
  simp only [List.forall₂_cons] at hfits
  obtain ⟨hoff, hsn, -⟩ := hfits
  have hpack := operand_of_unpack rfl hob hx
  change encE 2 0 h (encW r _ 0 0 (pack [(27, _), (5, _), (32, 0)])) = _
  rw [toNat_beq_one hla, toNat_ofNat_of_lt hoff rfl, toNat_ofNat_of_lt hsn rfl, ← hpack]
  rfl

theorem encode_wfeed {slot cnt qp pv reuse bc : Nat} (hq : q < 2 ^ 4) (hoa : oa < 2 ^ 32) (hob : ob < 2 ^ 64)
    (hx : unpack [6, 6, 20] oa = [slot, cnt, 0]) (hy : unpack [4, 1, 1, 1, 57] ob = [qp, pv, reuse, bc, 0])
    (hpart : pv = 1 ∨ qp = 0) (hsrc : reuse = 0 ∨ q = 0 ∧ bc = 0) :
    encode (.wfeed h r (if reuse = 1 then .buf else .stream (.ofNat 4 q) (bc == 1)) (.ofNat 6 slot) (.ofNat 6 cnt)
      (if pv = 1 then some (.ofNat 4 qp) else none)) = encE 2 2 h (encW r 0 q oa ob) := by
  have hfx := fits_of_unpack hx
  have hfy := fits_of_unpack hy
  simp only [List.forall₂_cons] at hfx hfy
  obtain ⟨hslot, hcnt, -⟩ := hfx
  obtain ⟨hqp, hpv, hreuse, hbc, -⟩ := hfy
  have hQ := toNat_ofNat_of_lt hq rfl
  have hSlot := toNat_ofNat_of_lt hslot rfl
  have hCnt := toNat_ofNat_of_lt hcnt rfl
  have hQp := toNat_ofNat_of_lt hqp rfl
  have hBc := toNat_beq_one hbc
  rw [← operand_of_unpack (k := 32) rfl hoa hx, ← operand_of_unpack (k := 64) rfl hob hy]
  have hpv' : pv = 0 ∨ pv = 1 := by omega
  have hreuse' : reuse = 0 ∨ reuse = 1 := by omega
  rcases hpv' with rfl | rfl <;> rcases hreuse' with rfl | rfl
  · obtain rfl : qp = 0 := by simpa using hpart
    change encE 2 2 h (encW r 0 _ (pack [(6, _), (6, _), (20, 0)]) (pack [(4, 0), (1, 0), (1, 0), (1, _), (57, 0)])) = _
    rw [hQ, hSlot, hCnt, hBc]
    rfl
  · obtain rfl : qp = 0 := by simpa using hpart
    obtain ⟨rfl, rfl⟩ : q = 0 ∧ bc = 0 := by simpa using hsrc
    change encE 2 2 h (encW r 0 0 (pack [(6, _), (6, _), (20, 0)]) (pack [(4, 0), (1, 0), (1, 1), (1, 0), (57, 0)])) = _
    rw [hSlot, hCnt]
    rfl
  · change encE 2 2 h (encW r 0 _ (pack [(6, _), (6, _), (20, 0)]) (pack [(4, _), (1, 1), (1, 0), (1, _), (57, 0)])) = _
    rw [hQ, hSlot, hCnt, hQp, hBc]
    rfl
  · obtain ⟨rfl, rfl⟩ : q = 0 ∧ bc = 0 := by simpa using hsrc
    change encE 2 2 h (encW r 0 0 (pack [(6, _), (6, _), (20, 0)]) (pack [(4, _), (1, 1), (1, 1), (1, 0), (57, 0)])) = _
    rw [hSlot, hCnt, hQp]
    rfl

theorem encode_wdrain {slot cnt k sat : Nat} {kind : DrainKind} (hq : q < 2 ^ 4) (hoa : oa < 2 ^ 32)
    (hx : unpack [6, 6, 3, 1, 16] oa = [slot, cnt, k, sat, 0]) (hk : drainKindOfCode k = some kind) :
    encode (.wdrain h rows (.ofNat 4 q) (.ofNat 6 slot) (.ofNat 6 cnt) kind (sat == 1)) =
      encE 2 3 h (encW (rowsRect rows) 0 q oa 0) := by
  have hfits := fits_of_unpack hx
  simp only [List.forall₂_cons] at hfits
  obtain ⟨hslot, hcnt, -, hsat, -⟩ := hfits
  have hpack := operand_of_unpack rfl hoa hx
  change encE 2 3 h (encW _ 0 _ (pack [(6, _), (6, _), (3, drainKindCode kind), (1, _), (16, 0)]) 0) = _
  rw [toNat_ofNat_of_lt hq rfl, toNat_ofNat_of_lt hslot rfl, toNat_ofNat_of_lt hcnt rfl, drainKindCode_of hk, toNat_beq_one hsat, ← hpack]
  rfl

theorem encode_wmode {f tr : Nat} {fmt : WellFmt} (hoa : oa < 2 ^ 32) (hx : unpack [3, 1, 28] oa = [f, tr, 0])
    (hf : wellFmtOfCode f = some fmt) :
    encode (.wmode h rows fmt (tr == 1)) = encE 2 4 h (encW (rowsRect rows) 0 0 oa 0) := by
  have hfits := fits_of_unpack hx
  simp only [List.forall₂_cons] at hfits
  obtain ⟨-, htr, -⟩ := hfits
  have hpack := operand_of_unpack rfl hoa hx
  change encE 2 4 h (encW _ 0 0 (pack [(3, wellFmtCode fmt), (1, _), (28, 0)]) 0) = _
  rw [wellFmtCode_of hf, toNat_beq_one htr, ← hpack]
  rfl

theorem encode_wpipe {dq ml rd f sp : Nat} {fn : ActFn} (hoa : oa < 2 ^ 32) (hob : ob < 2 ^ 64)
    (hx : unpack [1, 1, 1, 3, 26] oa = [dq, ml, rd, f, 0]) (hy : unpack [5, 59] ob = [sp, 0]) (hf : actFnOfCode f = some fn) :
    encode (.wpipe h rows fn (.ofNat 5 sp) (dq == 1) (ml == 1) (rd == 1)) = encE 2 5 h (encW (rowsRect rows) 0 0 oa ob) := by
  have hfits := fits_of_unpack hx
  simp only [List.forall₂_cons] at hfits
  obtain ⟨hdq, hml, hrd, -⟩ := hfits
  obtain ⟨hsp, -⟩ := List.forall₂_cons.mp (fits_of_unpack hy)
  have hpack := operand_of_unpack rfl hoa hx
  have hpack' := operand_of_unpack rfl hob hy
  change encE 2 5 h (encW _ 0 0 (pack [(1, _), (1, _), (1, _), (3, actFnCode fn), (26, 0)]) (pack [(5, _), (59, 0)])) = _
  rw [toNat_beq_one hdq, toNat_beq_one hml, toNat_beq_one hrd, actFnCode_of hf, toNat_ofNat_of_lt hsp rfl, ← hpack, ← hpack']
  rfl

theorem encode_wchk {slot sb : Nat} (hoa : oa < 2 ^ 32) (hob : ob < 2 ^ 64) (hx : unpack [6, 26] oa = [slot, 0])
    (hy : unpack [5, 59] ob = [sb, 0]) :
    encode (.wchk h r (.ofNat 6 slot) (.ofNat 5 sb)) = encE 2 6 h (encW r 0 0 oa ob) := by
  obtain ⟨hslot, -⟩ := List.forall₂_cons.mp (fits_of_unpack hx)
  obtain ⟨hsb, -⟩ := List.forall₂_cons.mp (fits_of_unpack hy)
  have hpack := operand_of_unpack rfl hoa hx
  have hpack' := operand_of_unpack rfl hob hy
  change encE 2 6 h (encW r 0 0 (pack [(6, _), (26, 0)]) (pack [(5, _), (59, 0)])) = _
  rw [toNat_ofNat_of_lt hslot rfl, toNat_ofNat_of_lt hsb rfl, ← hpack, ← hpack']
  rfl

end WellWords

theorem decodeWell_writes (op : Nat) (h : EHdr) (p : Nat) : Writes (decodeWell op h p) (encE 2 op h p) := by
  unfold decodeWell
  split
  case h_2 => exact writes_error _ _
  case h_1 rr nr rc nc la r q oa ob hp =>
    have hfits := fits_of_unpack hp
    simp only [layW, List.forall₂_cons] at hfits
    obtain ⟨hrr, hnr, hrc, hnc, hla, -, hq, hoa, hob, -⟩ := hfits
    have hpack := pack_of_unpack (k := 128) rfl hp
    simp only [layW, List.zip_cons_cons, List.zip_nil_left] at hpack
    simp only [writes_need, beq_iff_eq]
    rintro rfl
    have hbits : encW ⟨⟨.ofNat 5 rr, .ofNat 5 nr⟩, .ofNat 7 rc, .ofNat 7 nc⟩ la q oa ob = p % 2 ^ 128 := by
      rw [encW, toNat_ofNat_of_lt hrr rfl, toNat_ofNat_of_lt hnr rfl, toNat_ofNat_of_lt hrc rfl, toNat_ofNat_of_lt hnc rfl, hpack]
    rw [← encE_congr hbits]
    split
    case h_1 =>
      obtain ⟨off, sn, z, hx⟩ : ∃ off sn z, unpack [27, 5, 32] ob = [off, sn, z] := ⟨_, _, _, rfl⟩
      simp only [hx, writes_need, writes_ok, Bool.and_eq_true, beq_iff_eq]
      rintro ⟨⟨rfl, rfl⟩, rfl⟩
      exact encode_wload hla hob hx
    case h_2 =>
      simp only [writes_need, writes_ok, Bool.and_eq_true, beq_iff_eq]
      rintro ⟨⟨rfl, rfl⟩, rfl⟩
      change encE 2 1 h (encW _ _ 0 0 0) = _
      rw [toNat_beq_one hla]
    case h_3 =>
      obtain ⟨slot, cnt, z, hx⟩ : ∃ slot cnt z, unpack [6, 6, 20] oa = [slot, cnt, z] := ⟨_, _, _, rfl⟩
      obtain ⟨qp, pv, reuse, bc, z', hy⟩ : ∃ qp pv reuse bc z', unpack [4, 1, 1, 1, 57] ob = [qp, pv, reuse, bc, z'] :=
        ⟨_, _, _, _, _, rfl⟩
      simp only [hx, hy, writes_need, writes_ok, Bool.and_eq_true, Bool.or_eq_true, beq_iff_eq]
      rintro ⟨⟨⟨⟨rfl, rfl⟩, rfl⟩, hpart⟩, hsrc⟩
      exact encode_wfeed hq hoa hob hx hy hpart hsrc
    case h_4 =>
      obtain ⟨slot, cnt, k, sat, z, hx⟩ : ∃ slot cnt k sat z, unpack [6, 6, 3, 1, 16] oa = [slot, cnt, k, sat, z] :=
        ⟨_, _, _, _, _, rfl⟩
      simp only [hx, writes_need, writes_field, writes_ok, Bool.and_eq_true, beq_iff_eq]
      rintro ⟨⟨⟨⟨rfl, rfl⟩, rfl⟩, rfl⟩, rfl⟩ kind hk
      exact encode_wdrain hq hoa hx hk
    case h_5 =>
      obtain ⟨f, tr, z, hx⟩ : ∃ f tr z, unpack [3, 1, 28] oa = [f, tr, z] := ⟨_, _, _, rfl⟩
      simp only [hx, writes_need, writes_field, writes_ok, Bool.and_eq_true, beq_iff_eq]
      rintro ⟨⟨⟨⟨⟨rfl, rfl⟩, rfl⟩, rfl⟩, rfl⟩, rfl⟩ fmt hf
      exact encode_wmode hoa hx hf
    case h_6 =>
      obtain ⟨dq, ml, rd, f, z, hx⟩ : ∃ dq ml rd f z, unpack [1, 1, 1, 3, 26] oa = [dq, ml, rd, f, z] := ⟨_, _, _, _, _, rfl⟩
      obtain ⟨sp, z', hy⟩ : ∃ sp z', unpack [5, 59] ob = [sp, z'] := ⟨_, _, rfl⟩
      simp only [hx, hy, writes_need, writes_field, writes_ok, Bool.and_eq_true, beq_iff_eq]
      rintro ⟨⟨⟨⟨⟨rfl, rfl⟩, rfl⟩, rfl⟩, rfl⟩, rfl⟩ fn hf
      exact encode_wpipe hoa hob hx hy hf
    case h_7 =>
      obtain ⟨slot, z, hx⟩ : ∃ slot z, unpack [6, 26] oa = [slot, z] := ⟨_, _, rfl⟩
      obtain ⟨sb, z', hy⟩ : ∃ sb z', unpack [5, 59] ob = [sb, z'] := ⟨_, _, rfl⟩
      simp only [hx, hy, writes_need, writes_ok, Bool.and_eq_true, beq_iff_eq]
      rintro ⟨⟨⟨rfl, rfl⟩, rfl⟩, rfl⟩
      exact encode_wchk hoa hob hx hy
    case h_8 => exact writes_error _ _

/-! ## Engine words (R119, R120) -/

/-- The guard field of an engine word (R119). -/
def guardBits : Option (BitVec 4) → Nat
  | none => 0
  | some g => 16 + g.toNat

/-- The fields barv, barb and baroff of an engine word (R119, R120). -/
def barFields : Option BarRef → Nat × Nat × Nat
  | none => (0, 0, 0)
  | some x => (1, x.b.toNat, x.off.toNat)

theorem encE_eq (eng op : Nat) (h : EHdr) (p : Nat) : encE eng op h p =
    .ofNat 32 (pack [(2, 0), (4, h.wcnt.toNat), (8, h.wsem.toNat), (3, h.colour.toNat), (5, guardBits h.guard), (6, op), (2, eng),
      (2, 2)]) ::
    .ofNat 32 (pack [(15, (barFields h.bar).2.2), (4, (barFields h.bar).2.1), (1, (barFields h.bar).1), (4, h.scnt.toNat),
      (8, h.ssem.toNat)]) :: splitGranules 4 p := by
  obtain ⟨guard, colour, wsem, wcnt, ssem, scnt, bar⟩ := h
  cases guard <;> cases bar <;> rfl

theorem guardBits_of {g : Nat} {x : Option (BitVec 4)} (hg : g < 32) (h : guardOf g = some x) : guardBits x = g := by
  unfold guardOf at h
  split_ifs at h with h0 h16
  · cases h
    exact (eq_of_beq h0).symm
  · cases h
    have hx : (BitVec.ofNat 4 (g - 16)).toNat = g - 16 := toNat_ofNat_of_lt (m := 16) (by omega) rfl
    rw [guardBits, hx]
    omega

theorem barFields_of {v b o : Nat} {x : Option BarRef} (hv : v < 2) (hb : b < 2 ^ 4) (ho : o < 2 ^ 15) (h : barOf v b o = some x) :
    barFields x = (v, b, o) := by
  unfold barOf at h
  split_ifs at h with h1 h0
  · cases h
    rw [barFields, toNat_ofNat_of_lt hb rfl, toNat_ofNat_of_lt ho rfl, eq_of_beq h1]
  · cases h
    simp only [Bool.and_eq_true, beq_iff_eq] at h0 h1
    obtain ⟨rfl, rfl⟩ := h0
    obtain rfl : v = 0 := by omega
    rfl

theorem unpack_layE0 (w : Nat) : unpack layE0 w =
    [w % 2 ^ 2, w / 2 ^ 2 % 2 ^ 4, w / 2 ^ 6 % 2 ^ 8, w / 2 ^ 14 % 2 ^ 3, w / 2 ^ 17 % 2 ^ 5, w / 2 ^ 22 % 2 ^ 6, w / 2 ^ 28 % 2 ^ 2,
      w / 2 ^ 30 % 2 ^ 2] := by
  simp [unpack, layE0, Nat.div_div_eq_div_mul]

/-- The header of an engine word, whatever its payload, is written as it was read (R119, R120). -/
theorem encE_of_unpack {w w1 wc ws col g op eng bo bb bv sc ss : Nat} {guard : Option (BitVec 4)} {bar : Option BarRef}
    (hw : unpack layE0 w = [0, wc, ws, col, g, op, eng, 2]) (hw1 : unpack layE1 w1 = [bo, bb, bv, sc, ss])
    (hg : guardOf g = some guard) (hb : barOf bv bb bo = some bar) (p : Nat) :
    encE eng op ⟨guard, .ofNat 3 col, .ofNat 8 ws, .ofNat 4 wc, .ofNat 8 ss, .ofNat 4 sc, bar⟩ p =
      .ofNat 32 w :: .ofNat 32 w1 :: splitGranules 4 p := by
  have hfits := fits_of_unpack hw
  have hfits1 := fits_of_unpack hw1
  simp only [layE0, layE1, List.forall₂_cons] at hfits hfits1
  obtain ⟨-, hwc, hws, hcol, hglt, -⟩ := hfits
  obtain ⟨hbo, hbb, hbv, hsc, hss, -⟩ := hfits1
  have hhead := granule_of_unpack rfl hw
  have hhead1 := granule_of_unpack rfl hw1
  simp only [layE0, layE1, List.zip_cons_cons, List.zip_nil_left] at hhead hhead1
  rw [← hhead, ← hhead1]
  rw [encE_eq, guardBits_of hglt hg, barFields_of hbv hbb hbo hb]
  simp only [toNat_ofNat_of_lt hwc rfl, toNat_ofNat_of_lt hws rfl, toNat_ofNat_of_lt hcol rfl, toNat_ofNat_of_lt hsc rfl,
    toNat_ofNat_of_lt hss rfl]

theorem decodeEngine_writes {w : Nat} (w1 p : Nat) (hc : w / 2 ^ 30 % 2 ^ 2 = 2) :
    Writes (decodeEngine w w1 p) (.ofNat 32 w :: .ofNat 32 w1 :: splitGranules 4 p) := by
  unfold decodeEngine
  split
  case h_2 => exact writes_error _ _
  case h_1 r wc ws col g op eng cls bo bb bv sc ss hw hw1 =>
    obtain rfl : cls = 2 := by simp only [unpack_layE0, List.cons.injEq] at hw; omega
    have heng : eng < 4 := by simp only [unpack_layE0, List.cons.injEq] at hw; omega
    simp only [writes_need, writes_field, beq_iff_eq]
    rintro rfl guard hg bar hb
    rw [← encE_of_unpack hw hw1 hg hb]
    split
    case h_1 => exact decodePump_writes _ _ _
    case h_2 => exact decodeMatrix_writes _ _ _
    case h_3 => exact decodeWell_writes _ _ _
    case h_4 =>
      obtain rfl : eng = 3 := by simp only [imp_false] at *; omega
      exact decodeColl_writes _ _ _

/-! ## Words of any class -/

theorem class_of_granules {g : Granule} {n : Nat} (h : granules g = some n) :
    g.toNat / 2 ^ 30 = 0 ∧ n = 1 ∨ g.toNat / 2 ^ 30 = 1 ∧ n = 3 ∨ g.toNat / 2 ^ 30 = 2 ∧ n = 6 := by
  unfold granules at h
  split at h
  case h_1 hc => exact .inl ⟨hc, (Option.some.inj h).symm⟩
  case h_2 hc => exact .inr (.inl ⟨hc, (Option.some.inj h).symm⟩)
  case h_3 hc => exact .inr (.inr ⟨hc, (Option.some.inj h).symm⟩)
  case h_4 => cases h

/-- What decodes is written as the granules at its start, as many as the class of the first says (R106). -/
theorem encode_of_decodeRaw {g : Granule} {r : List Granule} {i : Instr} (h : decodeRaw g r = .ok i) :
    ∃ n, granules g = some n ∧ (encode i).length = n ∧ encode i <+: g :: r := by
  unfold decodeRaw at h
  split at h
  case h_1 hn =>
    have hc : g.toNat / 2 ^ 30 % 2 ^ 2 = 0 := by have := class_of_granules hn; omega
    have hi := decodeScalar_writes hc i h
    rw [BitVec.ofNat_toNat, BitVec.setWidth_eq] at hi
    exact ⟨1, hn, by simp [hi], by simp [hi]⟩
  case h_2 g1 g2 rest hn =>
    have hc : g.toNat / 2 ^ 30 % 2 ^ 2 = 1 := by have := class_of_granules hn; omega
    have hi := decodeVector_writes _ hc i h
    have hsplit : splitGranules 2 (join32 [g1, g2]) = [g1, g2] := splitGranules_join32 [g1, g2]
    rw [BitVec.ofNat_toNat, BitVec.setWidth_eq, hsplit] at hi
    exact ⟨3, hn, by simp [hi], by simp [hi]⟩
  case h_3 g1 g2 g3 g4 g5 rest hn =>
    have hc : g.toNat / 2 ^ 30 % 2 ^ 2 = 2 := by have := class_of_granules hn; omega
    have hi := decodeEngine_writes _ _ hc i h
    have hsplit : splitGranules 4 (join32 [g2, g3, g4, g5]) = [g2, g3, g4, g5] := splitGranules_join32 [g2, g3, g4, g5]
    rw [BitVec.ofNat_toNat, BitVec.setWidth_eq, BitVec.ofNat_toNat, BitVec.setWidth_eq, hsplit] at hi
    exact ⟨6, hn, by simp [hi], by simp [hi]⟩
  all_goals cases h

/-- The decoder answers an instruction only when it is well-formed and its fields are read from the first granules. -/
theorem decodeGranules_ok {g : Granule} {r : List Granule} {i : Instr} (h : decodeGranules (g :: r) = .ok i) :
    i.wf = true ∧ decodeRaw g r = .ok i := by
  simp only [decodeGranules] at h
  split at h
  case h_1 j hj =>
    split_ifs at h with hwf
    cases h
    exact ⟨hwf, hj⟩
  case h_2 => cases h

theorem encodeAfterDecode : Spec.EncodeAfterDecode := by
  intro gs i h
  cases gs with
  | nil => cases h
  | cons g r =>
    obtain ⟨hwf, hraw⟩ := decodeGranules_ok h
    obtain ⟨n, hn, hlen, rest, hrest⟩ := encode_of_decodeRaw hraw
    refine ⟨hwf, rest, hrest.symm, ?_⟩
    intro hnil
    have := class_of_granules hn
    simp only [hnil, List.length_nil] at hlen
    omega

theorem wordClasses : Spec.WordClasses := by
  intro g rest i h
  obtain ⟨-, hraw⟩ := decodeGranules_ok h
  obtain ⟨n, hn, hlen, -⟩ := encode_of_decodeRaw hraw
  obtain ⟨hc, rfl⟩ | ⟨hc, rfl⟩ | ⟨hc, rfl⟩ := class_of_granules hn
  all_goals rw [hc, hlen]; decide

/-- Settles O6, class of word by class of word: an instruction that a part of the map answers is written with the fields that were
read (`Writes`). -/
theorem wordsHaveOneMeaning : Obligations.WordsHaveOneMeaning :=
  ⟨encodeAfterDecode, wordClasses, unassignedWordsAreRefused⟩

end Sys2Proof.Laws.DecodeSound
end

section
/-! SUPPORT. The join release, the shared stream and qstat (HerdFrontEnd): what the front end does at a join and with a word that it
gives out (R138, R144, R145), and the bits that qstat gives each field (R184), which an overlong queue runs over. -/

namespace Sys2Proof.Laws.FrontEnd

open Sys2Proof Sys2Proof.Machine

/-! ## The cores of a herd by rank -/

theorem mem_ranks {x : HerdCtx} {f : Core → Bool} {i : Nat} : i ∈ x.ranks f ↔ ∃ c, x.cores[i]? = some c ∧ f c = true := by
  cases h : x.cores[i]? with
  | none => simp [HerdCtx.ranks, h]
  | some c =>
    have hi : i < x.cores.length := (List.getElem?_eq_some_iff.mp h).1
    simp only [HerdCtx.ranks, List.mem_filter, List.mem_range, h, hi, true_and, Option.some.injEq, exists_eq_left']

theorem getLsbD_foldl_bits (is : List Nat) (m : BitVec 8) {j : Nat} (hj : j < 8) :
    (is.foldl (fun m i => m ||| (1#8 <<< i)) m).getLsbD j = true ↔ m.getLsbD j = true ∨ j ∈ is := by
  induction is generalizing m with
  | nil => simp
  | cons i is ih =>
    have hbit : (1#8 <<< i).getLsbD j = true ↔ j = i := by simp [hj]; omega
    simp only [List.foldl_cons, ih, BitVec.getLsbD_or, Bool.or_eq_true, hbit, List.mem_cons, or_assoc]

theorem getLsbD_mask {x : HerdCtx} {f : Core → Bool} {i : Nat} (hi : i < 8) :
    (x.mask f).getLsbD i = true ↔ ∃ c, x.cores[i]? = some c ∧ f c = true := by
  simp [HerdCtx.mask, getLsbD_foldl_bits _ _ hi, mem_ranks]

theorem isLive_iff {c : Core} : c.isLive = true ↔ c.front ≠ .halted := by simp [Core.isLive]

theorem isAttached_iff {c : Core} : c.isAttached = true ↔ c.front = .attached := by simp [Core.isAttached]

/-! ## The join release -/

/-- The join addresses of the live cores, lowest rank first. -/
def joins (x : HerdCtx) : List (Option (BitVec 56)) := (x.ranks Core.isLive).map fun i => (x.cores[i]?).bind Core.join

theorem mem_joins {x : HerdCtx} {a : Option (BitVec 56)} : a ∈ joins x ↔ ∃ c ∈ x.cores, c.front ≠ .halted ∧ c.join = a := by
  simp only [joins, List.mem_map, mem_ranks, isLive_iff]
  constructor
  · rintro ⟨i, ⟨c, hc, hlive⟩, rfl⟩
    exact ⟨c, List.mem_of_getElem? hc, hlive, by simp [hc]⟩
  · rintro ⟨c, hmem, hlive, rfl⟩
    obtain ⟨i, hc⟩ := List.getElem?_of_mem hmem
    exact ⟨i, ⟨c, hc, hlive⟩, by simp [hc]⟩

theorem joinRelease_of_running {x : HerdCtx} (h : none ∈ joins x) : x.joinRelease = x := by
  have hany : (joins x).any Option.isNone = true := List.any_eq_true.mpr ⟨none, h, rfl⟩
  simp only [joins] at hany
  simp [HerdCtx.joinRelease, hany]

/-- The least of addresses that are all at least l, l among them, is l. -/
theorem foldl_least {l : BitVec 56} {as : List (BitVec 56)} (hle : ∀ a ∈ as, l.toNat ≤ a.toNat) (m : BitVec 56)
    (hm : l.toNat ≤ m.toNat) (hl : l = m ∨ l ∈ as) : as.foldl (fun m a => if a.toNat < m.toNat then a else m) m = l := by
  induction as generalizing m with
  | nil => simpa [eq_comm] using hl
  | cons a as ih =>
    obtain ⟨ha, has⟩ := List.forall_mem_cons.mp hle
    refine ih has _ ?_ ?_
    · show l.toNat ≤ (if a.toNat < m.toNat then a else m).toNat
      split <;> assumption
    · rcases hl with rfl | hl
      · exact .inl (if_neg (by omega)).symm
      · rcases List.mem_cons.mp hl with rfl | hl
        · left
          show l = if l.toNat < m.toNat then l else m
          split
          · rfl
          · exact BitVec.eq_of_toNat_eq (by omega)
        · exact .inr hl

/-- The part of HerdFrontEnd on the join release, which holds. -/
theorem joinRelease : Spec.JoinRelease := by
  intro x
  refine ⟨fun h => joinRelease_of_running (mem_joins.mpr h), fun l hl hall => ?_⟩
  have hnone : (joins x).any Option.isNone = false := by
    simp only [List.any_eq_false, mem_joins]
    rintro _ ⟨c, hc, hlive, rfl⟩
    obtain ⟨a, ha, -⟩ := hall c hc hlive
    simp [ha]
  have hleast : ((joins x).filterMap id).foldl (fun m a => if a.toNat < m.toNat then a else m) (.allOnes 56) = l := by
    refine foldl_least ?_ _ (by have := l.isLt; simp; omega) (.inr (by simpa [mem_joins] using hl))
    intro a ha
    obtain ⟨c, hc, hlive, hjoin⟩ := mem_joins.mp (by simpa using ha)
    obtain ⟨b, hb, hle⟩ := hall c hc hlive
    simpa [Option.some.inj (hjoin.symm.trans hb)] using hle
  have hlive : (x.ranks Core.isLive).isEmpty = false := by
    have := List.ne_nil_of_mem (mem_joins.mpr hl)
    simpa [joins] using this
  simp only [joins] at hnone hleast
  simp only [HerdCtx.joinRelease, hlive, hnone, hleast, Bool.false_eq_true, if_false, beq_iff_eq]

/-! ## The shared stream -/

/-- The part of HerdFrontEnd on the words of the shared stream, which holds. -/
theorem multicast : Spec.Multicast := by
  intro x w n i c hc hi
  refine ⟨by simp [HerdCtx.multicast, hc], rfl, rfl, ?_, ?_⟩
  · simp [getLsbD_mask hi, isAttached_iff]
  · intro s h user word a k hx
    simp [State.bufWord, hx]

/-! ## qstat -/

theorem statusCode_lt (e : EStatus) : e.code < 256 := by cases e <;> decide

/-- The bits of qstat that tell the state of the queue's head and the lease, in their places [9:6] (R184). -/
def headBits (c : Core) (g : Engine) (lease : Bool) : Nat :=
  let st := ((c.queue g).head?).map Entry.step
  2 ^ 6 * (st == some .running || st == some .discarded).toNat + 2 ^ 7 * (st == some .guardHeld).toNat +
    2 ^ 8 * (st == some .semWaiting).toNat + 2 ^ 9 * (g == .matrix && lease).toNat

theorem headBits_in_place (c : Core) (g : Engine) (lease : Bool) :
    headBits c g lease < 2 ^ 10 ∧ headBits c g lease % 2 ^ 6 = 0 := by
  have hbits (run ghold swait lease : Bool) :
      let n := 2 ^ 6 * run.toNat + 2 ^ 7 * ghold.toNat + 2 ^ 8 * swait.toNat + 2 ^ 9 * lease.toNat
      n < 2 ^ 10 ∧ n % 2 ^ 6 = 0 := by
    have h6 := run.toNat_lt
    have h7 := ghold.toNat_lt
    have h8 := swait.toNat_lt
    have h9 := lease.toNat_lt
    omega
  exact hbits _ _ _ _

/-- The fields of qstat are added in their places, and the length of the queue is not cut to its own (R184). -/
theorem qstatWord_toNat (c : Core) (g : Engine) (lease : Bool) : (qstatWord c g lease).toNat =
    ((c.queue g).length + headBits c g lease + 2 ^ 16 * (c.last.getD (engineCode g) .ok).code +
      2 ^ 32 * (c.done.getD (engineCode g) 0).toNat) % 2 ^ 64 := by
  simp only [qstatWord, headBits, BitVec.toNat_ofNat, Nat.add_assoc]

/-- With fewer than 64 entries in the queue, as R169 bounds each, qstat gives every field its bits (R184). -/
theorem qstatWord_fields {c : Core} {g : Engine} {lease : Bool} (h : (c.queue g).length < 64) :
    (qstatWord c g lease).toNat % 64 = (c.queue g).length ∧
    (qstatWord c g lease).toNat / 2 ^ 32 = (c.done.getD (engineCode g) 0).toNat ∧
    (qstatWord c g lease).toNat / 2 ^ 16 % 256 = (c.last.getD (engineCode g) .ok).code := by
  obtain ⟨hlt, hplace⟩ := headBits_in_place c g lease
  have hcode := statusCode_lt (c.last.getD (engineCode g) .ok)
  have hdone := (c.done.getD (engineCode g) 0).isLt
  rw [qstatWord_toNat]
  omega

/-- A queue of 2^16 entries adds one to the last status. -/
theorem qstatWord_status_of_overlong {c : Core} {g : Engine} {lease : Bool} (h : (c.queue g).length = 2 ^ 16) :
    (qstatWord c g lease).toNat / 2 ^ 16 % 256 = ((c.last.getD (engineCode g) .ok).code + 1) % 256 := by
  obtain ⟨hlt, hplace⟩ := headBits_in_place c g lease
  have hcode := statusCode_lt (c.last.getD (engineCode g) .ok)
  have hdone := (c.done.getD (engineCode g) 0).isLt
  rw [qstatWord_toNat, h]
  omega

theorem exec_qstat {s : State} {c : Core} {rd : BitVec 5} {g : Engine} (hc : s.Runs c) (hfree : c.free [] [rd] = true) :
    exec (.qstat rd g) s = .next (s.fin (c.ps rd (qstatWord c g (s.myCtx.leases s.cur.2)))) := by
  show execQstat rd g s = _
  have hc : s.core? s.cur.1 s.cur.2 = some c := hc
  simp [execQstat, scalar1, State.onMy, hc, hfree]

/-! ## What a word wrote -/

theorem runs_putMy {s : State} {c : Core} (hc : s.Runs c) (x : Core) : (s.putMy x).Runs x := by
  simp only [State.Runs, State.core?, State.ctx?, Option.bind_eq_some_iff, Option.map_eq_some_iff] at hc
  obtain ⟨_, ⟨y, hy, rfl⟩, hc⟩ := hc
  simp [State.Runs, State.core?, State.ctx?, State.putMy, State.modCore, State.modCtx, State.modHerd, hy, hc]

@[simp] theorem advance_s (c : Core) (n : Nat) : (c.advance n).s = c.s := by
  unfold Core.advance
  split
  · split
    · rfl
    · split <;> rfl
  · rfl

theorem gs_ps_same {c : Core} {rd : BitVec 5} (h0 : rd ≠ 0) (hlen : rd.toNat < c.s.length) (v : Word) : (c.ps rd v).gs rd = v := by
  rw [Core.ps, Core.gs, if_neg h0, if_neg h0]
  simp [hlen]

/-- A word that writes rd of the executing core behind it wrote one value. -/
theorem ps_inj_of_fin_eq {s : State} {c : Core} {rd : BitVec 5} {v w : Word} (hc : s.Runs c) (h0 : rd ≠ 0)
    (hlen : rd.toNat < c.s.length) (h : s.fin (c.ps rd v) = s.fin (c.ps rd w)) : v = w := by
  have hv : (s.fin (c.ps rd v)).Runs _ := runs_putMy hc _
  have hw : (s.fin (c.ps rd w)).Runs _ := runs_putMy hc _
  rw [h] at hv
  have hs : (c.ps rd v).s = (c.ps rd w).s := by
    simpa using congrArg Core.s (Option.some.inj (hv.symm.trans hw))
  calc v = (c.ps rd v).gs rd := (gs_ps_same h0 hlen v).symm
    _ = (c.ps rd w).gs rd := by simp only [Core.gs, hs]
    _ = w := gs_ps_same h0 hlen w

/-! ## The overlong queue -/

/-- A core at reset whose pump queue holds 2^16 entries, where R169 lets it hold 16; nothing has completed. -/
def overlongCore : Core := { Core.idle with eq := [.replicate (2 ^ 16) default, [], [], []] }

/-- A part whose first core is the one with the overlong queue, and executes. -/
def overlongState : State :=
  { State.reset with herds := [{ Herd.idle with act := { HerdCtx.idle with cores := [overlongCore] } }], cur := (0, 0) }

theorem overlongState_runs : overlongState.Runs overlongCore := rfl

theorem overlongCore_queue_length : (overlongCore.queue .pump).length = 2 ^ 16 := List.length_replicate

/-- Refutes O19: the statement bounds the queue only in its clause on bits [5:0] of qstat. On a core whose pump queue holds 2^16
entries, all with status ok so far, qstat s1, pump reads 1 in the bits of the last status, and not the code 0 of ok. The parts on the
join release and on the shared stream hold (`joinRelease`, `multicast`), and so do the fields of qstat with fewer than 64 entries
(`qstatWord_fields`). -/
theorem not_herdFrontEnd : ¬ Obligations.HerdFrontEnd := by
  unfold Obligations.HerdFrontEnd
  rintro ⟨-, -, hwords⟩
  obtain ⟨-, -, -, -, -, -, -, -, -, hqstat, -⟩ := hwords overlongState overlongCore _ overlongState_runs rfl
  have hfree : overlongCore.free [] [1] = true := by decide
  obtain ⟨v, hexec, -, -, hstatus⟩ := hqstat 1 .pump hfree
  have hnext := Host.Outcome.next.inj ((exec_qstat overlongState_runs hfree).symm.trans hexec)
  have hv := ps_inj_of_fin_eq overlongState_runs (by decide) (by decide) hnext
  have hone := qstatWord_status_of_overlong (lease := overlongState.myCtx.leases overlongState.cur.2) overlongCore_queue_length
  rw [hv, hstatus] at hone
  exact absurd hone (by decide)

end Sys2Proof.Laws.FrontEnd
end

section
/-! SUPPORT. Branches, jumps and the split of an attached set (BranchesAndJumps): where the executing core goes on (R140, R165 to R167),
and which cores stay attached once every attached core has reported (R141). -/

namespace Sys2Proof.Laws.ControlTransfer

open Sys2Proof Sys2Proof.Machine

/-! ## Targets -/

/-- A displacement counted in granules, as the model extends it to an address (R165, R166). -/
theorem add_four_mul_signExtend {n : Nat} (pc : BitVec 56) (d : BitVec n) :
    pc + 4 * d.signExtend 56 = pc + .ofInt 56 (4 * d.toInt) :=
  congrArg (pc + ·) (BitVec.ofInt_mul 4 d.toInt).symm

theorem pVa_eq_ofNat (p : Word) : pVa p = .ofNat 56 p.toNat :=
  BitVec.eq_of_toNat_eq (by simp [pVa])

/-- The tag lies above bit 55, so dropping it leaves the place within a granule (R167). -/
theorem pVa_toNat_mod_four (p : Word) : (pVa p).toNat % 4 = p.toNat % 4 := by
  simp only [pVa_eq_ofNat, BitVec.toNat_ofNat]
  omega

/-! ## The executing core -/

theorem onMy_of_runs {s : State} {c : Core} (hc : s.Runs c) (k : Core → Out) : s.onMy k = k c := by
  have hc : s.core? s.cur.1 s.cur.2 = some c := hc
  simp [State.onMy, hc]

/-- A resolved branch moves the core to the address in either case; only an attached core then waits (R141). -/
theorem branchTo_eq (s : State) (c : Core) (next : BitVec 56) : s.branchTo c next = s.putMy { c with
    pc := next, buf := c.buf.drop 1, seq := c.seq + 1, issueAt := s.now + 1
    block := if c.front = .attached then some .branch else c.block } := by
  unfold State.branchTo
  split <;> rfl

theorem branch_of_runs {s : State} {c : Core} {a b : BitVec 5} (hc : s.Runs c) (hfree : c.free [a, b] [] = true)
    (disp : BitVec 14) (taken : Word → Word → Bool) : branch a b disp taken s = .next (s.branchTo c
      (if taken (c.gs a) (c.gs b) then c.pc + .ofInt 56 (4 * disp.toInt) else c.pc + 4)) := by
  simp only [branch, onMy_of_runs hc, hfree, if_true, add_four_mul_signExtend]

/-- A register jump whose registers are free: to the address of rs1 where it is a granule's, else the trap (R167). -/
theorem jumpReg_of_runs {s : State} {c : Core} {a : BitVec 5} {link : Option (BitVec 5)} (hc : s.Runs c)
    (hfree : c.free [a] link.toList = true) : jumpReg link a s =
      if (c.gs a).toNat % 4 = 0 then .next (s.branchTo
        (link.elim c fun rd => c.ps rd (.ofNat 64 (c.pc + 4).toNat)) (.ofNat 56 (c.gs a).toNat))
      else s.trap (.misalignment (.ofNat 64 ((c.gs a).toNat % 2 ^ 56))) := by
  have hval : (pVa (c.gs a)).zeroExtend 64 = BitVec.ofNat 64 ((c.gs a).toNat % 2 ^ 56) := by
    rw [BitVec.zeroExtend_eq_setWidth, ← BitVec.ofNat_toNat, pVa_eq_ofNat, BitVec.toNat_ofNat]
  simp only [jumpReg, onMy_of_runs hc, hfree, if_true, pVa_toNat_mod_four, hval, ne_eq, ite_not]
  rw [pVa_eq_ofNat, BitVec.ofNat_toNat 64 (c.pc + 4)]
  cases link <;> rfl

/-! ## Branches and jumps -/

section Conditions

variable (s : State) (a b : BitVec 5) (disp : BitVec 14)

theorem exec_beq : exec (.beq a b disp) s = branch a b disp (fun x y => decide (x = y)) s := rfl

theorem exec_blt : exec (.blt a b disp) s = branch a b disp (fun x y => decide (x.toInt < y.toInt)) s := rfl

theorem exec_bltu : exec (.bltu a b disp) s = branch a b disp (fun x y => decide (x.toNat < y.toNat)) s := rfl

theorem exec_bne : exec (.bne a b disp) s = branch a b disp (fun x y => decide (x ≠ y)) s := by
  have h : (fun x y : Word => decide (x ≠ y)) = fun x y => x != y := by
    ext x y
    rw [decide_not, bne, beq_eq_decide]
  rw [h]
  rfl

theorem exec_bge : exec (.bge a b disp) s = branch a b disp (fun x y => decide (y.toInt ≤ x.toInt)) s := by
  have h : (fun x y : Word => decide (y.toInt ≤ x.toInt)) = fun x y => !x.slt y := by
    ext x y
    rw [BitVec.slt, ← decide_not, decide_eq_decide, not_lt]
  rw [h]
  rfl

theorem exec_bgeu : exec (.bgeu a b disp) s = branch a b disp (fun x y => decide (y.toNat ≤ x.toNat)) s := by
  have h : (fun x y : Word => decide (y.toNat ≤ x.toNat)) = fun x y => !x.ult y := by
    ext x y
    rw [BitVec.ult, ← decide_not, decide_eq_decide, not_lt]
  rw [h]
  rfl

end Conditions

/-- The meaning of every conditional branch is the one operation, under the condition that R165 gives it. -/
theorem exec_of_branchOf {i : Instr} {a b : BitVec 5} {disp : BitVec 14} {taken : Word → Word → Bool}
    (h : Spec.branchOf i = some (a, b, disp, taken)) (s : State) : exec i s = branch a b disp taken s := by
  unfold Spec.branchOf at h
  split at h
  all_goals cases h
  case h_1 => exact exec_beq ..
  case h_2 => exact exec_bne ..
  case h_3 => exact exec_blt ..
  case h_4 => exact exec_bge ..
  case h_5 => exact exec_bltu ..
  case h_6 => exact exec_bgeu ..

/-- The part of BranchesAndJumps on conditional branches. -/
theorem conditionalBranches : Spec.ConditionalBranches := by
  intro s c i a b disp taken hi hc hfree
  rw [exec_of_branchOf hi, branch_of_runs hc hfree, branchTo_eq]

theorem encJ_toNat {m : Nat} (hm : m < 64) (d : BitVec 24) : encJ m d.toNat = [.ofNat 32 (m * 2 ^ 24 + d.toNat)] := by
  have hd := d.isLt
  have hpack : pack [(24, d.toNat), (6, m), (2, 0)] = m * 2 ^ 24 + d.toNat := by
    simp only [pack]
    omega
  rw [encJ, hpack]

theorem encode_j (d : BitVec 24) : encode (.j d) = [.ofNat 32 (0x1E000000 + d.toNat)] := encJ_toNat (by decide) d

theorem encode_call (d : BitVec 24) : encode (.call d) = [.ofNat 32 (0x1F000000 + d.toNat)] := encJ_toNat (by decide) d

/-- The part of BranchesAndJumps on jumps and calls. -/
theorem jumps : Spec.Jumps := by
  intro s c hc
  refine ⟨fun d => ⟨encode_j d, encode_call d⟩, fun d => ?j, fun d hfree => ?call, fun a hfree => ?jr, fun d a hfree => ?callr⟩
  case j =>
    show execJ d s = _
    simp only [execJ, onMy_of_runs hc, add_four_mul_signExtend]
  case call =>
    show execCall d s = _
    simp only [execCall, onMy_of_runs hc, hfree, if_true, add_four_mul_signExtend, BitVec.ofNat_toNat]
  case jr => exact jumpReg_of_runs (link := none) hc hfree
  case callr => exact jumpReg_of_runs (link := some d) hc hfree

/-! ## The split of the attached cores -/

/-- The least rank with a property is the first of the ranks that have it. -/
theorem ranks_head? {x : HerdCtx} {f : Core → Bool} {m : Nat} {low : Core} (hm : x.cores[m]? = some low) (hlow : f low = true)
    (hleast : ∀ n c, n < m → x.cores[n]? = some c → f c = false) : (x.ranks f).head? = some m := by
  rw [HerdCtx.ranks, List.head?_filter, List.find?_range_eq_some]
  refine ⟨by simpa [hm] using hlow, by simpa using (List.getElem?_eq_some_iff.mp hm).1, fun n hn => ?_⟩
  cases hc : x.cores[n]? with
  | none => simp
  | some c => simp [hleast n c hn hc]

/-- What the resolution makes of a core when the group at an address stays attached (R141). -/
def splitCore (at_ : BitVec 56) (c : Core) : Core :=
  if c.front = .attached then { c with block := none, buf := [], front := if c.pc = at_ then .attached else .stray } else c

theorem resolve_of_lowest {x : HerdCtx} {m : Nat} {low : Core} (hm : x.cores[m]? = some low) (hlow : low.front = .attached)
    (hleast : ∀ n c, n < m → x.cores[n]? = some c → c.front ≠ .attached) : x.resolve =
      { x with diverge := none, stopped := false, stream := low.pc, cores := x.cores.map (splitCore low.pc) } := by
  have hhead : (x.ranks Core.isAttached).head? = some m :=
    ranks_head? hm (by simp [Core.isAttached, hlow]) fun n c hn hc => by simpa [Core.isAttached] using hleast n c hn hc
  simp only [HerdCtx.resolve, hhead, Option.bind_some, hm]
  rfl

theorem ctx?_modCtx_same {s : State} {h : Nat} {x : HerdCtx} (hx : s.ctx? h = some x) (f : HerdCtx → HerdCtx) :
    (s.modCtx h f).ctx? h = some (f x) := by
  simp only [State.ctx?, Option.map_eq_some_iff] at hx
  obtain ⟨y, hy, rfl⟩ := hx
  simp [State.ctx?, State.modCtx, State.modHerd, hy]

theorem ctx?_modCtx_ne {h k : Nat} (hk : k ≠ h) (s : State) (f : HerdCtx → HerdCtx) : (s.modCtx h f).ctx? k = s.ctx? k := by
  simp [State.ctx?, State.modCtx, State.modHerd, List.getElem?_modify_ne _ _ hk.symm]

theorem exec_branchResolution {s : State} {h : Nat} {x : HerdCtx} (hx : s.ctx? h = some x) :
    exec (.branchResolution h) s = .next (if x.reported then s.modCtx h HerdCtx.resolve else s) := by
  show execBranchResolution h s = _
  simp only [execBranchResolution, hx]

/-- The part of BranchesAndJumps on the split of an attached set. -/
theorem branchResolutionSplits : Spec.BranchResolutionSplits := by
  intro s h m x low hx
  refine ⟨fun hrep => by simp [exec_branchResolution hx, hrep], fun hrep hm hlow hleast => ?_⟩
  have hctx : (s.modCtx h HerdCtx.resolve).ctx? h = _ := ctx?_modCtx_same hx _
  rw [resolve_of_lowest hm hlow hleast] at hctx
  refine ⟨s.modCtx h HerdCtx.resolve, by simp [exec_branchResolution hx, hrep], ⟨_, hctx, rfl, rfl, rfl⟩,
    fun n c hc => ?_, fun k hk => ctx?_modCtx_ne hk _ _, rfl⟩
  simp [State.Has, State.core?, hctx, hc, splitCore]

/-- Settles O8: a branch is one operation for strays and for attached cores, and the resolution keeps the group of the lowest
attached core. -/
theorem branchesAndJumps : Obligations.BranchesAndJumps := ⟨conditionalBranches, jumps, branchResolutionSplits⟩

end Sys2Proof.Laws.ControlTransfer
end

section
/-! SUPPORT. The state at node entry (EntryState): what placing a node does to the launches and to the herds, and what the registers
of a core at entry read as (R41, R94, R154, R449). -/

namespace Sys2Proof.Laws.NodeEntry

open Sys2Proof Sys2Proof.Machine

/-! ## The placed node -/

theorem launch?_modLaunch {s : State} {lseq : Nat} {l : Launch} (hl : s.launch? lseq = some l) {f : Launch → Launch}
    (hf : ∀ x, (f x).lseq = x.lseq) : (s.modLaunch lseq f).launch? lseq = some (f l) := by
  have hkey : ((fun x : Launch => x.lseq == lseq) ∘ fun x => if x.lseq = lseq then f x else x) = fun x => x.lseq == lseq := by
    funext x
    by_cases hx : x.lseq = lseq <;> simp [hx, hf]
  have hlseq : l.lseq = lseq := by simpa using List.find?_some hl
  have hl : s.tahr.launches.find? (fun x => x.lseq == lseq) = some l := hl
  simp only [State.launch?, State.modLaunch, State.modTahr, List.find?_map, hkey, hl, Option.map_some, hlseq, if_true]

theorem node?_modNode {s : State} {lseq i : Nat} {n : Node} (hn : s.node? lseq i = some n) (f : Node → Node) :
    (s.modNode lseq i f).node? lseq i = some (f n) := by
  obtain ⟨l, hl, hn⟩ := Option.bind_eq_some_iff.mp hn
  simp [State.node?, State.modNode, launch?_modLaunch hl, hn]

theorem node?_congr {s t : State} (h : s.tahr = t.tahr) (lseq i : Nat) : s.node? lseq i = t.node? lseq i := by
  simp only [State.node?, State.launch?, h]

/-- What a placement writes into a node. -/
def placedNode (f : Fit) (x : Node) : Node :=
  { x with
    state := if x.saved.isSome then x.back else .running
    herds := f.herds
    pump := f.pump
    first := false
    rect := x.kind == .well
    moving := if x.saved.isSome then f.herds else []
    copied := 0
    lost := []
    stop := .ok }

/-! ## The herds of the placed node -/

/-- A herd with the context that the gang rank k of a node starts with. -/
def startHerd (l : Launch) (i : Nat) (n : Node) (now k : Nat) (y : Herd) : Herd := { y with act := startCtx l i n k now }

/-- A herd is handed to a gang rank of a node. -/
def enterHerd (l : Launch) (i : Nat) (n : Node) (now : Nat) (v : State) (x : Nat × Nat) : State :=
  (v.vacate x.1).modHerd x.1 (startHerd l i n now x.2)

theorem foldl_forget_preserves {α β : Type} (field : State → β) (hfield : ∀ s lo hi, field (s.forget lo hi) = field s)
    (lo hi : α → Nat) (cs : List α) (s : State) :
    field (cs.foldl (fun t c => t.forget (lo c) (hi c)) s) = field s := by
  induction cs generalizing s with
  | nil => rfl
  | cons c cs ih => rw [List.foldl_cons, ih, hfield]

@[simp] theorem vacate_herds (s : State) (h : Nat) : (s.vacate h).herds = s.herds := by
  unfold State.vacate
  split
  · rfl
  · exact foldl_forget_preserves State.herds (fun _ _ _ => rfl) _ _ _ s

@[simp] theorem vacate_tahr (s : State) (h : Nat) : (s.vacate h).tahr = s.tahr := by
  unfold State.vacate
  split
  · rfl
  · exact foldl_forget_preserves State.tahr (fun _ _ _ => rfl) _ _ _ s

theorem foldl_enterHerd_tahr (l : Launch) (i : Nat) (n : Node) (now : Nat) (xs : List (Nat × Nat)) (u : State) :
    (xs.foldl (enterHerd l i n now) u).tahr = u.tahr := by
  induction xs generalizing u with
  | nil => rfl
  | cons x xs ih => simp [ih, enterHerd]

/-- A herd that is not handed over stays as it is. -/
theorem foldl_enterHerd_herds_of_notMem {l : Launch} {i : Nat} {n : Node} {now h : Nat} {xs : List (Nat × Nat)} {u : State}
    (hh : h ∉ xs.map Prod.fst) : (xs.foldl (enterHerd l i n now) u).herds[h]? = u.herds[h]? := by
  induction xs generalizing u with
  | nil => rfl
  | cons x xs ih =>
    obtain ⟨hx, hxs⟩ : h ≠ x.1 ∧ h ∉ xs.map Prod.fst := by simpa using hh
    rw [List.foldl_cons, ih hxs]
    simp [enterHerd, State.modHerd, List.getElem?_modify_ne _ _ hx.symm]

/-- No two gang ranks take one herd, so the context of its own rank is the last that a herd takes. -/
theorem foldl_enterHerd_herds_of_mem {l : Launch} {i : Nat} {n : Node} {now h k : Nat} {xs : List (Nat × Nat)} {u : State}
    (hnodup : (xs.map Prod.fst).Nodup) (hh : (h, k) ∈ xs) :
    (xs.foldl (enterHerd l i n now) u).herds[h]? = (u.herds[h]?).map (startHerd l i n now k) := by
  induction xs generalizing u with
  | nil => simp at hh
  | cons x xs ih =>
    obtain ⟨hx, hxs⟩ := List.nodup_cons.mp hnodup
    rcases List.mem_cons.mp hh with rfl | hh
    · rw [List.foldl_cons, foldl_enterHerd_herds_of_notMem hx]
      simp [enterHerd, State.modHerd]
    · have hne : x.1 ≠ h := fun e => hx (e ▸ List.mem_map_of_mem (f := Prod.fst) hh)
      rw [List.foldl_cons, ih hxs hh]
      simp [enterHerd, State.modHerd, List.getElem?_modify_ne _ _ hne]

/-- Placing a node hands its herds over, rank by rank; what it does before that leaves the herds alone and writes the node. -/
theorem place_eq {s : State} {lseq i : Nat} {l : Launch} {n : Node} (hl : s.launch? lseq = some l) (hn : s.node? lseq i = some n)
    (f : Fit) : ∃ u, u.tahr = (s.modNode lseq i (placedNode f)).tahr ∧ u.herds = s.herds ∧
      s.place lseq i f = f.herds.zipIdx.foldl (enterHerd l i n s.now) u := by
  simp only [State.place, hl, hn]
  refine ⟨_, ?tahr, ?herds, rfl⟩
  case tahr => split <;> rfl
  case herds => split <;> rfl

theorem place_node? {s : State} {lseq i : Nat} {l : Launch} {n : Node} (hl : s.launch? lseq = some l) (hn : s.node? lseq i = some n)
    (f : Fit) : (s.place lseq i f).node? lseq i = some (placedNode f n) := by
  obtain ⟨u, htahr, -, hplace⟩ := place_eq hl hn f
  rw [hplace, node?_congr ((foldl_enterHerd_tahr ..).trans htahr), node?_modNode hn]

theorem place_ctx? {s : State} {lseq i : Nat} {l : Launch} {n : Node} {f : Fit} {k h : Nat} (hl : s.launch? lseq = some l)
    (hn : s.node? lseq i = some n) (hnodup : f.herds.Nodup) (hk : f.herds[k]? = some h) (hlen : h < s.herds.length) :
    (s.place lseq i f).ctx? h = some (startCtx l i n k s.now) := by
  obtain ⟨u, -, hherds, hplace⟩ := place_eq hl hn f
  have hmem : (h, k) ∈ f.herds.zipIdx := List.mk_mem_zipIdx_iff_getElem?.mpr hk
  have hfold := foldl_enterHerd_herds_of_mem (l := l) (i := i) (n := n) (now := s.now) (u := u)
    (by simpa using hnodup) hmem
  simp [State.ctx?, hplace, hfold, hherds, hlen, startHerd]

/-- A fresh node begins in the entry state (R94). -/
theorem startCtx_of_fresh {n : Node} (hn : n.saved = none) (l : Launch) (i k now : Nat) : startCtx l i n k now =
    { HerdCtx.idle with
      held := some (heldOf l i n k)
      cores := (List.range 8).map fun c => Core.entry n.hdr l.image k c now
      stream := n.hdr.entry.truncate 56 } := by
  simp only [startCtx, hn]

/-! ## A core at entry -/

theorem gs_zero (c : Core) : c.gs 0 = 0 := rfl

theorem ps_zero (c : Core) (v : Word) : c.ps 0 v = c := rfl

/-- The image of the record in b15: above the base, the extent 0xFFFFFFFF and the code 3 of its format alone (R221, R449). -/
theorem imageRecord_eq_append (base : Word) : imageRecord base = BitVec.ofNat 192 (0xFFFFFFFF + 3 * 2 ^ 96) ++ base := by
  have hbase := base.isLt
  refine BitVec.eq_of_toNat_eq ?_
  rw [BitVec.toNat_append, ← Nat.shiftLeft_add_eq_or_of_lt hbase, Nat.shiftLeft_eq, imageRecord, BitVec.toNat_ofNat,
    BitVec.toNat_ofNat]
  omega

theorem extractLsb'_imageRecord {lo : Nat} (hlo : 64 ≤ lo) (n : Nat) (base : Word) : (imageRecord base).extractLsb' lo n =
    (BitVec.ofNat 192 (0xFFFFFFFF + 3 * 2 ^ 96)).extractLsb' (lo - 64) n := by
  rw [imageRecord_eq_append, BitVec.extractLsb'_append_eq_of_le hlo]

theorem extractLsb'_imageRecord_base (base : Word) : (imageRecord base).extractLsb' 0 64 = base := by
  rw [imageRecord_eq_append, BitVec.extractLsb'_append_eq_of_add_le (Nat.le_refl 64), BitVec.extractLsb'_eq_self]

/-- The record of the image, field by field (R449). -/
theorem recOf_imageRecord (base : Word) : recOf (imageRecord base) = ⟨base, 0xFFFFFFFF, 0, 0, 3, 0, 0, false⟩ := by
  simp [recOf, extractLsb'_imageRecord_base, extractLsb'_imageRecord]

theorem ok_imageRecord (base : Word) : (recOf (imageRecord base)).ok = true := by
  simp [recOf_imageRecord, Rec.ok]

theorem getD_set_of_ne {α : Type} {i j : Nat} (h : i ≠ j) (xs : List α) (v d : α) : (xs.set i v).getD j d = xs.getD j d := by
  rw [List.getD_eq_getElem?_getD, List.getElem?_set_ne h, List.getD_eq_getElem?_getD]

/-- A bank of zeros reads as zero at every index, one beyond its end included. -/
theorem getD_replicate_same {α : Type} (n i : Nat) (d : α) : (List.replicate n d).getD i d = d := by
  rw [List.getD_eq_getElem?_getD, List.getElem?_getD_replicate_default_eq]

section Entry

variable {hd : Header} {image : Word} {grank c now : Nat}

theorem entry_gs_other {r : BitVec 5} (h1 : r ≠ 1) (h2 : r ≠ 2) (h3 : r ≠ 3) : (Core.entry hd image grank c now).gs r = 0 := by
  have h1 : 1 ≠ r.toNat := BitVec.toNat_ne.mp h1.symm
  have h2 : 2 ≠ r.toNat := BitVec.toNat_ne.mp h2.symm
  have h3 : 3 ≠ r.toNat := BitVec.toNat_ne.mp h3.symm
  have hbank : (Core.entry hd image grank c now).s.getD r.toNat 0 = 0 := by
    rw [Core.entry, getD_set_of_ne h3, getD_set_of_ne h2, getD_set_of_ne h1]
    exact getD_replicate_same 32 _ _
  rw [Core.gs, hbank, ite_self]

theorem entry_gb_image : (Core.entry hd image grank c now).gb 15 = imageRecord image := rfl

theorem entry_gb_other {r : BitVec 4} (hr : r ≠ 15) : (Core.entry hd image grank c now).gb r = 0 := by
  have hr : 15 ≠ r.toNat := BitVec.toNat_ne.mp hr.symm
  rw [Core.gb, Core.entry, getD_set_of_ne hr]
  exact getD_replicate_same 16 _ _

theorem entry_gv (r : BitVec 5) : (Core.entry hd image grank c now).gv r = 0 := getD_replicate_same 32 _ _

theorem entry_gq (r : BitVec 4) : (Core.entry hd image grank c now).gq r = 0 := getD_replicate_same 16 _ _

theorem entry_gl (r : BitVec 3) : (Core.entry hd image grank c now).gl r = 0 := getD_replicate_same 8 _ _

theorem entry_gp_other {r : BitVec 3} (hr : r ≠ 0) : (Core.entry hd image grank c now).gp r = 0 := by
  obtain ⟨k, hk⟩ := Nat.exists_eq_succ_of_ne_zero (BitVec.toNat_ne.mp hr)
  rw [Core.gp, if_neg hr, hk]
  exact getD_replicate_same 7 k _

theorem entry_guard (r : Fin 16) : (Core.entry hd image grank c now).g.getD r .no = .yes := List.getD_replicate _ r.isLt

theorem entry_queue (g : Engine) : (Core.entry hd image grank c now).queue g = [] := getD_replicate_same 4 _ _

end Entry

/-- Settles O45: a placement hands each herd the context of its rank, which for a fresh node is the entry state. -/
theorem entryState : Obligations.EntryState := by
  refine ⟨fun c v => ⟨gs_zero c, ps_zero c v⟩, fun s lseq i l n f hl hn hfresh hnodup hlen => ⟨?node, fun k h hk => ?herd⟩⟩
  case node => exact ⟨placedNode f n, place_node? hl hn f, by simp [placedNode, hfresh], rfl, rfl⟩
  case herd =>
    have hctx := place_ctx? hl hn hnodup hk (hlen h (List.mem_of_getElem? hk))
    rw [startCtx_of_fresh hfresh] at hctx
    refine ⟨_, _, hctx, rfl, rfl, rfl, rfl, rfl, rfl, fun j => ?sems, rfl, fun c hc => ?core⟩
    case sems => exact getD_replicate_same 256 j 0
    case core =>
      have hcore : (s.place lseq i f).core? h c = some (Core.entry n.hdr l.image k c s.now) := by
        simp [State.core?, hctx, hc]
      refine ⟨_, hcore, rfl, rfl, rfl, fun r h1 h2 h3 => entry_gs_other h1 h2 h3, entry_gv, ?_⟩
      rw [entry_gb_image, ok_imageRecord, recOf_imageRecord]
      exact ⟨rfl, rfl, rfl, rfl, rfl, rfl, rfl, rfl, fun r hr => entry_gb_other hr, entry_gq, entry_gl,
        fun r hr => entry_gp_other hr, entry_guard, entry_queue, rfl, rfl, rfl, rfl⟩

end Sys2Proof.Laws.NodeEntry
end

section
/-! SUPPORT. Trap entry, the return from a trap, and the boundary (TrapsAreTaken, ReturnsAndBoundaries): what the settling of the front
end (R145, R148) leaves of a core that does not wait in it, what trap entry and xret make of the core (R394, R397, R401), and what a
core finds at its boundary (R395). -/

namespace Sys2Proof.Laws.Traps

open Sys2Proof Sys2Proof.Machine
open Sys2Proof.Laws.FrontEnd Sys2Proof.Laws.ControlTransfer

/-! ## A core while its front end settles -/

/-- What settling may leave in the issue buffer of a core that held the words w: all of them, or, where the core is not attached,
nothing (R148). -/
def KeepsBuf (front : Front) (w b : List BufWord) : Prop := b = w ∨ front ≠ .attached ∧ b = []

theorem KeepsBuf.eq_nil {front : Front} {b : List BufWord} (h : KeepsBuf front [] b) : b = [] := h.elim id And.right

theorem flushDone_core? {x : HerdCtx} {n : Nat} {c : Core} (hc : x.cores[n]? = some c) (hblock : c.block ≠ some .iflush) :
    ∃ b, KeepsBuf c.front c.buf b ∧ x.flushDone.cores[n]? = some { c with buf := b } := by
  simp only [HerdCtx.flushDone]
  split
  case isTrue => exact ⟨c.buf, .inl rfl, hc⟩
  case isFalse h =>
    refine ⟨[], .inr ⟨fun hatt => hblock ?_, rfl⟩, by simp [hc, hblock]⟩
    simp only [Bool.or_eq_true, Bool.not_eq_true', not_or, Bool.not_eq_false, List.all_eq_true, beq_iff_eq] at h
    simpa [hc] using h.2 n (mem_ranks.mpr ⟨c, hc, isAttached_iff.mpr hatt⟩)

/-- A core that waits at no join stays as it is: it has halted, or it is one that the release still waits for (R145). -/
theorem joinRelease_core? {x : HerdCtx} {n : Nat} {c : Core} (hc : x.cores[n]? = some c) (hjoin : c.join = none) :
    x.joinRelease.cores[n]? = some c := by
  by_cases hlive : c.front = .halted
  · simp only [HerdCtx.joinRelease]
    split
    · exact hc
    · split
      · exact hc
      · simp [hc, hlive]
  · rwa [joinRelease_of_running (mem_joins.mpr ⟨c, List.mem_of_getElem? hc, hlive, hjoin⟩)]

variable {s : State} {h n : Nat} {c : Core}

theorem has_modCore (hc : s.Has h n c) (f : Core → Core) : (s.modCore h n f).Has h n (f c) := by
  simp only [State.Has, State.core?, Option.bind_eq_some_iff] at hc
  obtain ⟨x, hx, hc⟩ := hc
  have hctx : (s.modCore h n f).ctx? h = _ := ctx?_modCtx_same hx _
  simp [State.Has, State.core?, hctx, hc]

theorem has_settle (hc : s.Has h n c) (hblock : c.block ≠ some .iflush) (hjoin : c.join = none) :
    ∃ b, KeepsBuf c.front c.buf b ∧ (s.settle h).Has h n { c with buf := b } := by
  simp only [State.Has, State.core?, Option.bind_eq_some_iff] at hc
  obtain ⟨x, hx, hc⟩ := hc
  obtain ⟨b, hb, hflush⟩ := flushDone_core? hc hblock
  have hctx : (s.settle h).ctx? h = _ := ctx?_modCtx_same hx _
  exact ⟨b, hb, by simpa [State.Has, State.core?, hctx, HerdCtx.settle] using joinRelease_core? hflush hjoin⟩

theorem ctx?_settle_modCore_ne {k : Nat} (hk : k ≠ h) (s : State) (n : Nat) (f : Core → Core) :
    ((s.modCore h n f).settle h).ctx? k = s.ctx? k := by
  rw [State.settle, ctx?_modCtx_ne hk, State.modCore, ctx?_modCtx_ne hk]

/-! ## Trap entry -/

variable {t : Cause} {aq : Bool}

theorem isNotice_eq_code (t : Cause) : t.isNotice = decide (t.code = 0x0C) := by cases t <;> rfl

theorem after_eq_code (t : Cause) : t.after = if t.code = 0x0A ∨ t.code = 0x0B then 4 else 0 := by cases t <;> rfl

/-- The address that xepc takes: that of the word, or the one behind it for trap and ebreak (R393). -/
def returnPc (c : Core) (t : Cause) : BitVec 56 := c.join.getD c.pc + .ofNat 56 t.after

/-- The core in the handler (R142, R394). -/
def handlerCore (c : Core) (t : Cause) (aq : Bool) : Core :=
  { c with
    front := if c.front = .attached then .stray else c.front
    buf := []
    join := none
    block := none
    absent := c.absent.filter fun r => r != .x .xepc && r != .x .xcause && r != .x .xtval
    pc := .ofNat 56 c.x.xvec.toNat
    x := { c.x with
      pp := c.x.priv, pie := c.x.ie, intrap := true, priv := true, ie := false
      np := c.x.np && decide (t.code ≠ 0x0C)
      xepc := .ofNat 64 (returnPc c t).toNat, xcause := t.word aq, xtval := t.value } }

theorem detach_eq (c : Core) : c.detach = { c with
    front := if c.front = .attached then .stray else c.front
    buf := if c.front = .attached then [] else c.buf } := by
  by_cases hatt : c.front = .attached <;> simp [Core.detach, hatt]

theorem enter_eq (x : XRegs) (epc : BitVec 56) : x.enter t aq epc = { x with
    pp := x.priv, pie := x.ie, intrap := true, priv := true, ie := false
    np := x.np && decide (t.code ≠ 0x0C)
    xepc := .ofNat 64 epc.toNat, xcause := t.word aq, xtval := t.value } := by
  have hnp : (if t.isNotice then false else x.np) = (x.np && decide (t.code ≠ 0x0C)) := by
    simp [isNotice_eq_code, Bool.and_comm]
  rw [XRegs.enter, hnp, BitVec.ofNat_toNat]

theorem enterTrap_of_taken (htaken : c.x.intrap = false ∨ t.code = 0x0C) : c.enterTrap t aq = handlerCore c t aq := by
  have hsingle : ¬ (c.x.intrap && !t.isNotice) = true := by
    rcases htaken with hin | hcode
    · simp [hin]
    · simp [isNotice_eq_code, hcode]
  rw [Core.enterTrap, if_neg hsingle, detach_eq, enter_eq, handlerCore, BitVec.ofNat_toNat 56 c.x.xvec]
  rfl

theorem enterTrap_of_double (hin : c.x.intrap = true) (hcode : t.code ≠ 0x0C) :
    c.enterTrap t aq = { c with
      join := none
      block := some (.report 0 true (t.word aq) (.ofNat 64 (returnPc c t).toNat) t.value) } := by
  have hdouble : (c.x.intrap && !t.isNotice) = true := by simp [hin, isNotice_eq_code, hcode]
  rw [Core.enterTrap, if_pos hdouble, BitVec.ofNat_toNat]
  rfl

/-- A handler's core and one whose report ends it wait neither for a flush nor at a join, so the front end leaves them. -/
theorem has_enterTrap (hc : s.Has h n c) (t : Cause) (aq : Bool) :
    ∃ b, KeepsBuf (c.enterTrap t aq).front (c.enterTrap t aq).buf b ∧
      (s.enterTrap h n t aq).Has h n { c.enterTrap t aq with issueAt := s.now + 8, buf := b } := by
  have hwait : (c.enterTrap t aq).block ≠ some .iflush ∧ (c.enterTrap t aq).join = none := by
    unfold Core.enterTrap
    split <;> simp [Core.doubleFault]
  exact has_settle (has_modCore hc fun x => { x.enterTrap t aq with issueAt := s.now + 8 }) hwait.1 hwait.2

theorem has_enterTrap_of_taken (hc : s.Has h n c) (htaken : c.x.intrap = false ∨ t.code = 0x0C) (aq : Bool) :
    (s.enterTrap h n t aq).Has h n { handlerCore c t aq with issueAt := s.now + 8 } := by
  obtain ⟨b, hb, hhas⟩ := has_enterTrap hc t aq
  rw [enterTrap_of_taken htaken] at hb hhas
  obtain rfl : b = [] := hb.eq_nil
  exact hhas

/-- The part of TrapsAreTaken on the executing core's trap. -/
theorem trapEntry : Spec.TrapEntry := by
  intro s c k hc
  rw [← after_eq_code]
  refine ⟨_, rfl, rfl, fun h hh => ctx?_settle_modCore_ne hh .., fun htaken => ?handler, fun hin hcode => ?double⟩
  case handler => exact has_enterTrap_of_taken hc htaken false
  case double =>
    obtain ⟨b, hb, hhas⟩ := has_enterTrap hc k false
    rw [enterTrap_of_double hin hcode] at hb hhas
    exact ⟨b, hb, hhas⟩

/-! ## The causes and the words that trap -/

theorem word_toNat (t : Cause) (aq : Bool) : (t.word aq).toNat = (t.code + 256 * t.detail + 65536 * aq.toNat) % 2 ^ 64 :=
  BitVec.toNat_ofNat ..

theorem word_true (t : Cause) : t.word true = t.word false + 0x10000 := by
  apply BitVec.eq_of_toNat_eq
  simp [word_toNat]

theorem word_true_eq_ofNat (t : Cause) : t.word true = .ofNat 64 (2 ^ 16 + (t.code + 256 * t.detail)) := by
  simp [Cause.word, Nat.add_comm]

/-- The part of TrapsAreTaken on the causes. -/
theorem causeTable : Spec.CauseTable := by
  have hvalue {w : Nat} (v : BitVec w) : v.zeroExtend 64 = BitVec.ofNat 64 v.toNat := (BitVec.ofNat_toNat 64 v).symm
  exact ⟨fun g => ⟨rfl, hvalue g, rfl, hvalue g⟩, fun _ => ⟨rfl, rfl, rfl, rfl, rfl, rfl, rfl, rfl, rfl⟩, rfl, rfl,
    fun k => ⟨rfl, hvalue k⟩, rfl, rfl, fun k => ⟨rfl, hvalue k⟩, rfl, rfl, fun k => ⟨rfl, hvalue k⟩, word_true⟩

/-- The part of TrapsAreTaken on trap and ebreak. -/
theorem trapWords : Spec.TrapWords := fun _ _ _ hc => ⟨onMy_of_runs hc _, onMy_of_runs hc _⟩

/-- Settles O18: trap entry puts the core in its handler, or at the report of a double fault. In neither does it wait for a flush or at a
join, so that the front end, as it settles, leaves all of it but words of its issue buffer. -/
theorem trapsAreTaken : Obligations.TrapsAreTaken := ⟨causeTable, trapEntry, trapWords⟩

/-! ## The return -/

theorem exec_xret (hc : s.Runs c) (hpriv : c.x.priv = true) (hepc : c.isAbsent (.x .xepc) = false) :
    exec .xret s = .next ((s.putMy { c.xret with issueAt := s.now + 1 }).settle s.cur.1) := by
  show execXret s = _
  simp [execXret, State.privileged, onMy_of_runs hc, hpriv, Core.here, hepc]

/-- The core behind the return (R142, R229, R259, R401). -/
def xretCore (c : Core) : Core :=
  { c with
    front := .stray
    pc := .ofNat 56 c.x.xepc.toNat
    buf := []
    seq := c.seq + 1
    faulted := none
    direct := if c.faulted = some (.ofNat 56 c.x.xepc.toNat) then some (c.seq + 1) else c.direct
    x := { c.x with priv := c.x.pp, ie := c.x.pie, intrap := false }
    aq := c.aq.map fun q => q.map fun e => if e.reported then { e with held := none, reported := false } else e }

theorem xret_of_live (hlive : c.front ≠ .halted) : c.xret = xretCore c := by
  have hstray : (if c.front = .attached then Front.stray else c.front) = .stray := by
    cases hfront : c.front with
    | attached | stray => rfl
    | halted => exact absurd hfront hlive
  rw [Core.xret, detach_eq, hstray, xretCore, BitVec.ofNat_toNat 56 c.x.xepc]

/-- The part of ReturnsAndBoundaries on xret. -/
theorem returnFromTrap : Spec.ReturnFromTrap := by
  intro s c hc hpriv hepc hlive hjoin hblock
  rw [exec_xret hc hpriv hepc, xret_of_live hlive]
  refine ⟨_, rfl, rfl, fun h hh => ctx?_settle_modCore_ne hh .., ?_⟩
  have hput := runs_putMy hc { xretCore c with issueAt := s.now + 1 }
  obtain ⟨b, hb, hhas⟩ := has_settle hput (by simp [xretCore, hblock]) hjoin
  obtain rfl : b = [] := hb.eq_nil
  exact hhas

/-! ## The boundary -/

/-- No head of the first n queues is held by a fault that is still to be taken (R259). -/
def QuietHeads (c : Core) (n : Nat) : Prop := ∀ q e r, q < n → c.aq.getD q [] = e :: r → e.held = none ∨ e.reported = true

/-- The fault to be taken that holds the head of a queue, with the queue (R259). -/
def headFault (c : Core) (q : Nat) : Option (Nat × Cause) :=
  match c.aq.getD q [] with
  | e :: _ => if e.reported then none else e.trap.map fun t => (q, t)
  | [] => none

theorem heldQueue_eq (c : Core) : c.heldQueue = (List.range 4).findSome? (headFault c) := rfl

theorem headFault_of_quiet {m q : Nat} (hquiet : QuietHeads c m) (hq : q < m) : headFault c q = none := by
  unfold headFault
  split
  case h_1 e r he => rcases hquiet q e r hq he with hheld | hrep <;> simp [AqEntry.trap, *]
  case h_2 => rfl

theorem findSome?_range_of_least {α : Type} {f : Nat → Option α} {m q : Nat} {a : α} (hq : q < m) (hf : f q = some a)
    (hleast : ∀ j < q, f j = none) : (List.range m).findSome? f = some a := by
  obtain ⟨k, rfl⟩ := Nat.exists_eq_add_of_lt hq
  have hnone : (List.range q).findSome? f = none := List.findSome?_eq_none_iff.mpr fun j hj => hleast j (List.mem_range.mp hj)
  simp [Nat.add_assoc, List.range_add, List.range_succ_eq_map, hnone, hf]

theorem heldQueue_of_quiet (hquiet : QuietHeads c 4) : c.heldQueue = none := by
  rw [heldQueue_eq, List.findSome?_eq_none_iff]
  exact fun _ hq => headFault_of_quiet hquiet (List.mem_range.mp hq)

theorem heldQueue_of_lowest {q : Nat} {e : AqEntry} {r : List AqEntry} (hq : q < 4) (he : c.aq.getD q [] = e :: r)
    (hrep : e.reported = false) (htrap : e.trap = some t) (hleast : QuietHeads c q) : c.heldQueue = some (q, t) := by
  have hhead : headFault c q = some (q, t) := by
    rw [headFault, he]
    simp [hrep, htrap]
  rw [heldQueue_eq]
  exact findSome?_range_of_least hq hhead fun _ hj => headFault_of_quiet hleast hj

/-- xcause's code and detail for a held head (R260, R393). -/
def heldCode : AqCause → Nat
  | .translation n => 0x05 + 256 * n.toNat
  | .bounds => 0x04
  | .misalignment => 0x03
  | .unrecoverable => 0x106

/-- A held head traps before a word, as no notice does, with its pointer and its cause (R260, R393). -/
theorem trap_of_held {e : AqEntry} {k : AqCause} (hk : e.held = some k) :
    ∃ t, e.trap = some t ∧ t.after = 0 ∧ t.code ≠ 0x0C ∧ t.value = ptrAt e.base e.off ∧ t.code + 256 * t.detail = heldCode k := by
  rw [AqEntry.trap, hk]
  cases k with
  | translation | bounds | misalignment | unrecoverable => exact ⟨_, rfl, rfl, by simp [Cause.code], rfl, rfl⟩

section Boundary

variable (hlive : c.front ≠ .halted) (hswap : c.swapped = false) (hblock : c.block = none)
include hlive hswap hblock

theorem boundary_of_quiet (hquiet : c.x.intrap = true ∨ QuietHeads c 4) :
    c.boundary = if c.x.ie && c.x.np then some (.notice c.x.ncode, none) else none := by
  have hnone : (if c.x.intrap then none else c.heldQueue) = none := by
    rcases hquiet with hin | hheads
    · simp [hin]
    · simp [heldQueue_of_quiet hheads]
  simp [Core.boundary, hlive, hswap, hblock, hnone]

theorem boundary_of_held {q : Nat} (hin : c.x.intrap = false) (hheld : c.heldQueue = some (q, t)) :
    c.boundary = some (t, some q) := by
  simp [Core.boundary, hlive, hswap, hblock, hin, hheld]

end Boundary

theorem exec_trapEntry_of_some {q : Option Nat} (hc : s.Has h n c) (hb : c.boundary = some (t, q)) :
    exec (.trapEntry h n) s = .next (s.takeBoundary h n t q) := by
  have hc : s.core? h n = some c := hc
  show execTrapEntry h n s = _
  simp [execTrapEntry, State.onCore, hc, hb]

theorem exec_trapEntry_of_none (hc : s.Has h n c) (hb : c.boundary = none) : exec (.trapEntry h n) s = .next s := by
  have hc : s.core? h n = some c := hc
  show execTrapEntry h n s = _
  simp [execTrapEntry, State.onCore, hc, hb]

theorem report_aq {q : Nat} {e : AqEntry} {r : List AqEntry} (he : c.aq.getD q [] = e :: r) :
    (c.report q).aq = c.aq.set q ({ e with reported := true } :: r) := by
  have hget : c.aq[q]? = some (e :: r) := by
    cases hget : c.aq[q]? with
    | none => simp [hget] at he
    | some l => simpa [hget] using he
  simp [Core.report, List.modify_eq_set_getElem?, hget]

/-- y is the core x just after it took a trap before its next word (R393, R394). -/
def Entered (x y : Core) : Prop :=
  y.x.priv = true ∧ y.x.ie = false ∧ y.x.intrap = true ∧ y.x.pp = x.x.priv ∧ y.x.pie = x.x.ie ∧
  y.x.xepc = .ofNat 64 (x.join.getD x.pc).toNat ∧ y.pc = .ofNat 56 x.x.xvec.toNat ∧ y.buf = [] ∧ y.join = none ∧ y.s = x.s ∧ y.v = x.v

theorem entered_handlerCore (hafter : t.after = 0) (now : Nat) (qs : List (List AqEntry)) :
    Entered c { handlerCore c t aq with issueAt := now, aq := qs } := by
  simp [Entered, handlerCore, returnPc, hafter]

/-- The part of ReturnsAndBoundaries on what waits at a boundary. -/
theorem boundaryEvents : Spec.BoundaryEvents := by
  intro s h n c hc hlive hswap hblock
  refine ⟨fun hquiet hie hnp => ?notice, fun hquiet hno => ?nothing, fun q e r k hq he hk hrep hin hleast => ?held⟩
  case notice =>
    have hb := boundary_of_quiet hlive hswap hblock hquiet
    simp only [hie, hnp, Bool.and_self, if_true] at hb
    refine ⟨_, _, exec_trapEntry_of_some hc hb, has_enterTrap_of_taken hc (.inr rfl) false,
      entered_handlerCore rfl .., ?_, rfl, (BitVec.ofNat_toNat 64 c.x.ncode).symm, rfl⟩
    simp [handlerCore, Cause.code]
  case nothing =>
    have hb := boundary_of_quiet hlive hswap hblock hquiet
    refine exec_trapEntry_of_none hc (hb.trans (if_neg ?_))
    rcases hno with hoff | hoff <;> simp [hoff]
  case held =>
    obtain ⟨t, htrap, hafter, hnotice, hvalue, hcode⟩ := trap_of_held hk
    have hb := boundary_of_held hlive hswap hblock hin (heldQueue_of_lowest hq he hrep htrap hleast)
    have hhas := has_modCore (has_enterTrap_of_taken (t := t) hc (.inl hin) true) fun x => x.report q
    have hword := word_true_eq_ofNat t
    rw [hcode] at hword
    refine ⟨_, _, exec_trapEntry_of_some hc hb, hhas, entered_handlerCore hafter .., ?_, hvalue, hword, report_aq he⟩
    simp [handlerCore, Core.report, hnotice]

/-- Settles O20: xret leaves a running stray, which the front end does not change as it settles; TRAP_ENTRY enters the trap of the
lowest head to be taken, else that of a notice. -/
theorem returnsAndBoundaries : Obligations.ReturnsAndBoundaries := ⟨returnFromTrap, boundaryEvents⟩

end Sys2Proof.Laws.Traps
end
